-- ==== Sys2Proof/Word.lean ====
section
/-! DEFINITION. The words of the BVK-N840 (spec 00_scope.md R1, R3) and their plainest arithmetic. -/

namespace Sys2Proof

/-- One byte of memory. -/
abbrev Byte := BitVec 8
/-- A word of 32 bits (R1): a lane value, an instruction word. -/
abbrev Word := BitVec 32
/-- A doubleword of 64 bits (R1): a sequencer register. -/
abbrev DWord := BitVec 64
/-- The 256 data bits of a token, lane `l` in bits 32l+31:32l (R4). -/
abbrev Data256 := BitVec 256

end Sys2Proof
end

