-- ==== Sys2Proof/Syntax.lean ====
section
/-! DEFINITION. The instructions: one constructor for each row of spec/opcode_table.json (331 rows).
The first group is the sequencer's words, the second the element operation words; the third is the
machine's internal and host events, which have no encoding: their operands say who acts. -/

namespace Sys2Proof

/-- A sequencer register number, g0 to g31 (R54). -/
abbrev GReg := BitVec 5
/-- An element register number, x0 to x15 (R64). -/
abbrev XReg := BitVec 4
/-- A predicate number, p0 to p7. -/
abbrev PReg := BitVec 3
/-- A site number, s0 to s63 (R142). -/
abbrev SiteNo := BitVec 6

/-- Issue control of a sequencer word (R52): GAP and SW. -/
structure Issue where
  gap : BitVec 2
  sw  : Bool
  deriving DecidableEq, Repr

/-- Access sizes of QM (R53): b, h, w, d. -/
inductive Size where
  | b | h | w | d
  deriving DecidableEq, Repr

/-- ORD of QM (R53): plain, acquire on a load or release on a store, or non-temporal. -/
inductive MemOrd where
  | plain | sync | nt
  deriving DecidableEq, Repr

/-- Scopes, narrowest to widest (R54, R91). -/
inductive Scope where
  | ctx | elem | region | die | dev | sys
  deriving DecidableEq, Repr

/-- KIND of QF (R53). -/
inductive FenceKind where
  | full | acquire | release
  deriving DecidableEq, Repr

/-- The condition of `btst` (R55, R192). -/
inductive HandleCond where
  | busy | done | fault | notBusy
  deriving DecidableEq, Repr

/-- The atomic operations of `atom` and `satm` (R56, R158, R211). -/
inductive AOp where
  | add | and | or | xor | min | max | minn | maxn | swap | cas | fadd | bfadd2
  deriving DecidableEq, Repr

/-- Source codes of an element operand (R64). -/
inductive Src where
  | reg (n : XReg)
  | take (c : BitVec 2)
  | keep (c : BitVec 2)
  | lane
  | here
  | zero
  deriving DecidableEq, Repr

/-- Destination codes of an element operand (R64): a register, o0, o1, both outputs, or none. -/
inductive Dst where
  | reg (n : XReg)
  | o0
  | o1
  | both
  | none
  deriving DecidableEq, Repr

/-- PM of an EA word (R63): no update, result not zero, result negative, carry or unordered. -/
inductive PUpd where
  | none | nz | neg | cu
  deriving DecidableEq, Repr

/-- Sizes of an EM access (R156): byte, halfword, word, whole token. -/
inductive ESize where
  | b | h | w | t
  deriving DecidableEq, Repr

/-- MOD of `pmov` (R134). -/
inductive PMovMode where
  | each | any | all
  deriving DecidableEq, Repr

/-- The fields of an EA word (R63). -/
structure EA where
  d  : Dst
  a  : Src
  b  : Src
  pd : PReg
  pm : PUpd
  tg : BitVec 3
  md : BitVec 2
  deriving DecidableEq, Repr

/-- The fields of an EI word (R63). -/
structure EI where
  d   : Dst
  a   : Src
  imm : BitVec 15
  deriving DecidableEq, Repr

/-- An element by (die, row, column) (R13). -/
structure ElemId where
  die : Nat
  row : Nat
  col : Nat
  deriving DecidableEq, Repr

/-- One side of the fabric: west or east hem (R15). -/
inductive Side where
  | west | east
  deriving DecidableEq, Repr

/-- A plane of the mesh (R69). -/
inductive Plane where
  | a | b
  deriving DecidableEq, Repr

/-- A stream slot of a hem tile (R117, R214). -/
structure HemSlot where
  die  : Nat
  side : Side
  tile : Nat
  slot : Nat
  deriving DecidableEq, Repr

/-- A buffer that a token can leave over a plane (R107, R108): an output queue of an element, its
hop register on a plane, or a hem stream slot. -/
inductive BufId where
  | out (e : ElemId) (o : Bool)
  | hop (e : ElemId) (p : Plane)
  | hem (h : HemSlot)
  deriving DecidableEq, Repr

/-- A party that may be parked at a queue or a barrier (R325): a strand or a trigger context. -/
inductive Party where
  | strand (n : Nat)
  | elem (e : ElemId) (ctx : Nat)
  deriving DecidableEq, Repr

/-- A 64-byte sector's bytes. -/
abbrev Data512 := BitVec 512

/-- A unit that a soft error or a wring test names (R393). -/
inductive ErrUnit where
  | elem (e : ElemId)
  | sliceBank (die slice bank : Nat)
  | gateway (die port : Nat)
  | l1 (die core : Nat)
  | msu (die unit : Nat)
  | link (k : Nat)
  | dram (die unit : Nat)
  | plane (e : ElemId)
  | pleat (e : ElemId)
  | dispatcher (die : Nat)
  deriving DecidableEq, Repr

/-- What the steward finds in a firmware image (R396): the two signatures, its form and its version. -/
structure FirmwareImage where
  ecdsaOk : Bool
  lmsOk   : Bool
  formOk  : Bool
  version : Nat
  deriving DecidableEq, Repr

/-- What the stages of a start find (R395): the firmware image, the elements and slice banks that fail
their test, whether another unit fails, whether the HBM trains, and whether every die pair is joined. -/
structure StartInput where
  image     : FirmwareImage
  badUnits  : List ErrUnit
  otherFail : Bool
  hbmOk     : Bool
  pairsOk   : Bool
  deriving DecidableEq, Repr

/-- The instructions and events of the machine, one constructor for each row of the opcode table. -/
inductive Instr where
  -- sequencer words (03_encodings.md R52-R60)
  /-- ADD (R202): Sequencer alu add of gA and gB into gD. -/
  | add (q : Issue) (d a b : GReg)
  /-- SUB (R202): Sequencer alu subtract gB from gA into gD. -/
  | sub (q : Issue) (d a b : GReg)
  /-- AND (R202): Sequencer bitwise and. -/
  | and (q : Issue) (d a b : GReg)
  /-- OR (R202): Sequencer bitwise or. -/
  | or (q : Issue) (d a b : GReg)
  /-- XOR (R202): Sequencer bitwise exclusive or. -/
  | xor (q : Issue) (d a b : GReg)
  /-- ANDN (R202): Sequencer and of gA with the complement of gB. -/
  | andn (q : Issue) (d a b : GReg)
  /-- SHL (R202): Sequencer logical shift left by gB[5:0]. -/
  | shl (q : Issue) (d a b : GReg)
  /-- SHR (R202): Sequencer logical shift right by gB[5:0]. -/
  | shr (q : Issue) (d a b : GReg)
  /-- SHA (R202): Sequencer arithmetic shift right by gB[5:0]. -/
  | sha (q : Issue) (d a b : GReg)
  /-- MIN (R202): Sequencer signed minimum. -/
  | min (q : Issue) (d a b : GReg)
  /-- MAX (R202): Sequencer signed maximum. -/
  | max (q : Issue) (d a b : GReg)
  /-- MINN (R202): Sequencer unsigned minimum. -/
  | minn (q : Issue) (d a b : GReg)
  /-- MAXN (R202): Sequencer unsigned maximum. -/
  | maxn (q : Issue) (d a b : GReg)
  /-- SLT (R202): Sequencer signed set-less-than. -/
  | slt (q : Issue) (d a b : GReg)
  /-- SLTN (R202): Sequencer unsigned set-less-than. -/
  | sltn (q : Issue) (d a b : GReg)
  /-- MUL (R202): Sequencer multiply, low 64 bits, latency 3. -/
  | mul (q : Issue) (d a b : GReg)
  /-- MULH (R202): Sequencer signed multiply, high 64 bits. -/
  | mulh (q : Issue) (d a b : GReg)
  /-- MULHN (R202): Sequencer unsigned multiply, high 64 bits. -/
  | mulhn (q : Issue) (d a b : GReg)
  /-- DIV (R202): Sequencer signed divide toward zero. -/
  | div (q : Issue) (d a b : GReg)
  /-- DIVN (R202): Sequencer unsigned divide. -/
  | divn (q : Issue) (d a b : GReg)
  /-- REM (R202): Sequencer signed remainder. -/
  | rem (q : Issue) (d a b : GReg)
  /-- REMN (R202): Sequencer unsigned remainder. -/
  | remn (q : Issue) (d a b : GReg)
  /-- CLZ (R202): Sequencer count of leading zero bits. -/
  | clz (q : Issue) (d a : GReg)
  /-- POPC (R202): Sequencer count of set bits. -/
  | popc (q : Issue) (d a : GReg)
  /-- HOME (R204): Translates gA without access and returns its home die, slice and placement flags. -/
  | home (q : Issue) (d a : GReg)
  /-- ADDI (R203): Adds a signed 13-bit immediate. -/
  | addi (q : Issue) (d a : GReg) (imm : BitVec 13)
  /-- ANDI (R203): Ands with a sign-extended immediate. -/
  | andi (q : Issue) (d a : GReg) (imm : BitVec 13)
  /-- ORI (R203): Ors with a sign-extended immediate. -/
  | ori (q : Issue) (d a : GReg) (imm : BitVec 13)
  /-- XORI (R203): Exclusive-ors with a sign-extended immediate. -/
  | xori (q : Issue) (d a : GReg) (imm : BitVec 13)
  /-- SLTI (R203): Signed compare of gA with an immediate. -/
  | slti (q : Issue) (d a : GReg) (imm : BitVec 13)
  /-- SLTNI (R203): Unsigned compare of gA with an immediate. -/
  | sltni (q : Issue) (d a : GReg) (imm : BitVec 13)
  /-- SHLI (R203): Shifts gA left by an immediate 0 to 63. -/
  | shli (q : Issue) (d a : GReg) (imm : BitVec 13)
  /-- SHRI (R203): Shifts gA logically right by an immediate. -/
  | shri (q : Issue) (d a : GReg) (imm : BitVec 13)
  /-- SHAI (R203): Shifts gA arithmetically right by an immediate. -/
  | shai (q : Issue) (d a : GReg) (imm : BitVec 13)
  /-- LUI (R203): Writes a sign-extended 18-bit immediate shifted left by 13. -/
  | lui (q : Issue) (d : GReg) (imm : BitVec 18)
  /-- JAL (R205): Jumps by a word offset and writes the link. -/
  | jal (q : Issue) (d : GReg) (off : BitVec 18)
  /-- JALR (R205): Jumps to gA plus an immediate and writes the link. -/
  | jalr (q : Issue) (d a : GReg) (imm : BitVec 13)
  /-- BEQ (R205): Branches when gA equals gB. -/
  | beq (q : Issue) (a b : GReg) (off : BitVec 13)
  /-- BNE (R205): Branches when gA differs from gB. -/
  | bne (q : Issue) (a b : GReg) (off : BitVec 13)
  /-- BLT (R205): Branches when gA is signed less than gB. -/
  | blt (q : Issue) (a b : GReg) (off : BitVec 13)
  /-- BGE (R205): Branches when gA is signed greater or equal to gB. -/
  | bge (q : Issue) (a b : GReg) (off : BitVec 13)
  /-- BLTN (R205): Branches when gA is unsigned less than gB. -/
  | bltn (q : Issue) (a b : GReg) (off : BitVec 13)
  /-- BGEN (R205): Branches when gA is unsigned greater or equal to gB. -/
  | bgen (q : Issue) (a b : GReg) (off : BitVec 13)
  /-- LOOP (R206): Pushes a hardware loop entry with count gA, or skips the body when the count is zero. -/
  | loop (q : Issue) (a : GReg) (off : BitVec 13)
  /-- BTST (R192): Branches on the state of a command handle, acquiring on done or fault. -/
  | btst (q : Issue) (a : GReg) (cond : HandleCond) (off : BitVec 13)
  /-- LD (R209): Sign-extending load of 1, 2, 4 or 8 bytes, translated at issue. -/
  | ld (q : Issue) (d a : GReg) (off : BitVec 9) (sz : Size) (ord : MemOrd)
  /-- LDN (R209): Zero-extending load of 1, 2 or 4 bytes. -/
  | ldn (q : Issue) (d a : GReg) (off : BitVec 9) (sz : Size) (ord : MemOrd)
  /-- ST (R209): Stores the low bytes of gD. -/
  | st (q : Issue) (d a : GReg) (off : BitVec 9) (sz : Size) (ord : MemOrd)
  /-- AADD (R211): Atomic wrapping add at the home die. -/
  | aadd (q : Issue) (d a b : GReg) (scope : Scope) (dbl : Bool)
  /-- AAND (R211): Atomic and. -/
  | aand (q : Issue) (d a b : GReg) (scope : Scope) (dbl : Bool)
  /-- AOR (R211): Atomic or. -/
  | aor (q : Issue) (d a b : GReg) (scope : Scope) (dbl : Bool)
  /-- AXOR (R211): Atomic exclusive or. -/
  | axor (q : Issue) (d a b : GReg) (scope : Scope) (dbl : Bool)
  /-- AMIN (R211): Atomic signed minimum. -/
  | amin (q : Issue) (d a b : GReg) (scope : Scope) (dbl : Bool)
  /-- AMAX (R211): Atomic signed maximum. -/
  | amax (q : Issue) (d a b : GReg) (scope : Scope) (dbl : Bool)
  /-- AMINN (R211): Atomic unsigned minimum. -/
  | aminn (q : Issue) (d a b : GReg) (scope : Scope) (dbl : Bool)
  /-- AMAXN (R211): Atomic unsigned maximum. -/
  | amaxn (q : Issue) (d a b : GReg) (scope : Scope) (dbl : Bool)
  /-- ASWAP (R211): Atomic swap. -/
  | aswap (q : Issue) (d a b : GReg) (scope : Scope) (dbl : Bool)
  /-- ACAS (R211): Atomic compare and swap with gD as expected value. -/
  | acas (q : Issue) (d a b : GReg) (scope : Scope) (dbl : Bool)
  /-- AFADD (R211): Atomic FP32 add, 32 bits only. -/
  | afadd (q : Issue) (d a b : GReg) (scope : Scope)
  /-- ABFADD2 (R211): Atomic pair of BF16 adds, 32 bits only. -/
  | abfadd2 (q : Issue) (d a b : GReg) (scope : Scope)
  /-- FENCE (R212): Stalls issue until the scope and kind condition of R91 holds. -/
  | fence (q : Issue) (scope : Scope) (kind : FenceKind)
  /-- WAIT (R193): Stalls until each outstanding class is within its count. -/
  | wait (q : Issue) (ld st cp tl bk : BitVec 4)
  /-- CLEAN (R213): Writes back dirty bytes of a range to DRAM in every module cache. -/
  | clean (q : Issue) (a b : GReg)
  /-- INVAL (R213): Drops cached copies of a range, losing dirty bytes of wholly covered sectors. -/
  | inval (q : Issue) (a b : GReg)
  /-- FLUSH (R213): Writes back and drops cached copies of a range. -/
  | flush (q : Issue) (a b : GReg)
  /-- DISCARD (R213): As inval, also cancelling unaccepted write-backs of the range. -/
  | discard (q : Issue) (a b : GReg)
  /-- PREF (R213): Prefetches a range's lines into the strand's die. -/
  | pref (q : Issue) (a b : GReg)
  /-- ENQ (R330): Blocking enqueue of one element at the queue's home. -/
  | enq (q : Issue) (a b : GReg)
  /-- TENQ (R330): Non-blocking enqueue returning a status. -/
  | tenq (q : Issue) (d a b : GReg)
  /-- DEQ (R331): Blocking dequeue of one element. -/
  | deq (q : Issue) (d a b : GReg)
  /-- TDEQ (R331): Non-blocking dequeue returning status and element. -/
  | tdeq (q : Issue) (d a b c : GReg)
  /-- QINIT (R333): Checks and opens a queue control block. -/
  | qinit (q : Issue) (d a : GReg)
  /-- QSTAT (R332): Returns a queue's state word in one relaxed step. -/
  | qstat (q : Issue) (d a : GReg)
  /-- QDRAIN (R334): Closes, reopens or arms a wake-up on a queue. -/
  | qdrain (q : Issue) (d a b : GReg)
  /-- BINIT (R342): Initialises a barrier word to OPEN. -/
  | binit (q : Issue) (d a b : GReg)
  /-- BARR (R342): Arrives at a barrier and returns the phase. -/
  | barr (q : Issue) (d a : GReg)
  /-- BWAIT (R342): Waits until the barrier phase differs from gB. -/
  | bwait (q : Issue) (d a b : GReg)
  /-- BARW (R342): Arrives and waits for the phase to complete. -/
  | barw (q : Issue) (d a : GReg)
  /-- BQUERY (R342): Reads the barrier state relaxed. -/
  | bquery (q : Issue) (d a : GReg)
  /-- BPOISON (R342): Poisons a barrier with a code. -/
  | bpoison (q : Issue) (d a b : GReg)
  /-- LAUNCH (R312): Reads a launch record and submits it to the dispatcher with a handle. -/
  | launch (q : Issue) (d a : GReg)
  /-- TDONE (R313): Ends the strand's task with a status and enrols the strand as a free worker. -/
  | tdone (q : Issue) (a : GReg)
  /-- TSTAT (R314): Returns the task word of a launched or own task. -/
  | tstat (q : Issue) (d a : GReg)
  /-- CFGLD (R277): Binds and configures a fabric load on the strand's region and runs it. -/
  | cfgld (q : Issue) (d a b c : GReg)
  /-- PLACE (R276): Asks the placer for a region and returns the result word. -/
  | place (q : Issue) (d a b : GReg)
  /-- CFGDROP (R278): Drops the configuration of the strand's bound region. -/
  | cfgdrop (q : Issue) (d a : GReg)
  /-- GCALL (R294): Sequencer-form grid call of a call-list entry on the bound region. -/
  | gcall (q : Issue) (d a b : GReg)
  /-- GRET (R295): Forces the innermost grid call of the bound region to return. -/
  | gret (q : Issue) (d : GReg)
  /-- STRM (R214): Hands a stream parameter block to a hem stream slot. -/
  | strm (q : Issue) (d a b : GReg)
  /-- STRMW (R215): As strm, waiting without fault until the region is RUNNING. -/
  | strmw (q : Issue) (d a b : GReg)
  /-- STRMC (R215): Stops a stream and returns its element count. -/
  | strmc (q : Issue) (d a : GReg)
  /-- COPY (R216): Copies gC bytes from gB to gA by the copy engine. -/
  | copy (q : Issue) (d a b c : GReg)
  /-- FILL (R216): Fills gC bytes at gA with the byte pattern of gB. -/
  | fill (q : Issue) (d a b c : GReg)
  /-- BFADD (R257): Memory-side BF16 add of two ranges. -/
  | bfadd (q : Issue) (d a b c : GReg)
  /-- BFMUL (R257): Memory-side BF16 multiply. -/
  | bfmul (q : Issue) (d a b c : GReg)
  /-- IADD32 (R257): Memory-side INT32 add. -/
  | iadd32 (q : Issue) (d a b c : GReg)
  /-- FADD32 (R257): Memory-side FP32 add. -/
  | fadd32 (q : Issue) (d a b c : GReg)
  /-- BFMAX (R257): Memory-side BF16 maximum. -/
  | bfmax (q : Issue) (d a b c : GReg)
  /-- ROWCP (R258): Copies DRAM rows by the memory-side unit. -/
  | rowcp (q : Issue) (d a b c : GReg)
  /-- ROWZERO (R259): Zeroes DRAM rows by the memory-side unit. -/
  | rowzero (q : Issue) (d a b : GReg)
  /-- SUBSCR (R368): Sets a query's bit in a page's subscriber bitmap. -/
  | subscr (q : Issue) (d a b : GReg)
  /-- UNSUB (R368): Clears a query's bit in a page's subscriber bitmap. -/
  | unsub (q : Issue) (d a b : GReg)
  /-- SWEEP (R369): Starts a Mangle sweep of a sweep table on an injecting port. -/
  | sweep (q : Issue) (d a b : GReg)
  /-- SWAIT (R370): Waits for a sweep handle and returns its status. -/
  | swait (q : Issue) (d a : GReg)
  /-- PKSEND (R385): Sends a route-class packet. -/
  | pksend (q : Issue) (d a b c : GReg)
  /-- CMASK (R386): Masks route classes die-wide. -/
  | cmask (q : Issue) (d a : GReg)
  /-- CUNMASK (R386): Unmasks route classes and frees taken event slots. -/
  | cunmask (q : Issue) (d a : GReg)
  /-- NOP (R219): No effect. -/
  | nop (q : Issue)
  /-- ERET (R200): Returns from a trap restoring PC, privilege, AE and loop base. -/
  | eret (q : Issue)
  /-- HALT (R230): Enters HALTED with the resume point at the next instruction. -/
  | halt (q : Issue)
  /-- IDLE (R230): Enters IDLE until an event, a completion or a thaw. -/
  | idle (q : Issue)
  /-- YIELD (R230): Makes the strand not ready until the other ready strands issue once or 4 cycles pass. -/
  | yield (q : Issue)
  /-- TLBI (R248): Shoots down an ASID's translations for a range and drains them. -/
  | tlbi (q : Issue) (d a b : GReg)
  /-- TLBIA (R248): Shoots down every translation of an ASID. -/
  | tlbia (q : Issue) (d : GReg)
  /-- FREEZE (R231): Freezes a selected master or context. -/
  | freeze (q : Issue) (d a b : GReg)
  /-- THAW (R231): Thaws a selected master or context. -/
  | thaw (q : Issue) (d a b : GReg)
  /-- KILL (R232): Ends a selected master or context, failing its items. -/
  | kill (q : Issue) (d a b : GReg)
  /-- CTXSW (R233): Switches the strand to another resident context. -/
  | ctxsw (q : Issue) (d a : GReg)
  /-- CSRR (R218): Reads a control register. -/
  | csrr (q : Issue) (d : GReg) (csr : BitVec 11)
  /-- CSRW (R218): Reads then writes a control register with gA. -/
  | csrw (q : Issue) (d a : GReg) (csr : BitVec 11)
  /-- CSRS (R218): Reads then sets bits of a control register. -/
  | csrs (q : Issue) (d a : GReg) (csr : BitVec 11)
  /-- CSRC (R218): Reads then clears bits of a control register. -/
  | csrc (q : Issue) (d a : GReg) (csr : BitVec 11)
  /-- PHASE (R217): Advances the release phase of an eviction schedule. -/
  | phase (q : Issue) (a : GReg)
  /-- EVSCH (R217): Loads an eviction schedule table into the die's slices. -/
  | evsch (q : Issue) (a b : GReg)
  /-- TRAP (R219): Traps with code TRAP and EINFO holding the immediate. -/
  | trap (q : Issue) (code : BitVec 18)
  /-- LIMM (R210): Long form writing a 45-bit sign-extended immediate. -/
  | limm (q : Issue) (d : GReg) (imm : BitVec 45)
  /-- LDL (R210): Long-offset doubleword load. -/
  | ldl (q : Issue) (d a : GReg) (off : BitVec 40)
  /-- STL (R210): Long-offset doubleword store. -/
  | stl (q : Issue) (d a : GReg) (off : BitVec 40)
  /-- JALL (R205): Long jump and link. -/
  | jall (q : Issue) (d : GReg) (off : BitVec 45)
  -- element operation words (03_encodings.md R61-R68)
  /-- E_NOP (R128): Element no-operation that still reads and takes sources. -/
  | eNop (a b : Src)
  /-- MOV (R128): Element move of source A. -/
  | mov (f : EA)
  /-- MOVI (R129): Element load of a sign-extended 15-bit immediate. -/
  | movi (d : Dst) (imm : BitVec 15)
  /-- MOVHI (R129): Element shift in of 15 immediate bits. -/
  | movhi (f : EI)
  /-- IADD (R128): Element 32-bit wrapping add. -/
  | iadd (f : EA)
  /-- ISUB (R128): Element 32-bit wrapping subtract. -/
  | isub (f : EA)
  /-- IADDS (R128): Element saturating add. -/
  | iadds (f : EA)
  /-- ISUBS (R128): Element saturating subtract. -/
  | isubs (f : EA)
  /-- IMUL (R128): Element multiply, low 32 bits. -/
  | imul (f : EA)
  /-- IMULH (R128): Element signed multiply high. -/
  | imulh (f : EA)
  /-- IMULHN (R128): Element unsigned multiply high. -/
  | imulhn (f : EA)
  /-- IMAD (R128): Element multiply-add into x[D]. -/
  | imad (f : EA)
  /-- IMIN (R128): Element signed minimum. -/
  | imin (f : EA)
  /-- IMAX (R128): Element signed maximum. -/
  | imax (f : EA)
  /-- NMIN (R128): Element unsigned minimum. -/
  | nmin (f : EA)
  /-- NMAX (R128): Element unsigned maximum. -/
  | nmax (f : EA)
  /-- IABS (R128): Element saturating absolute value. -/
  | iabs (f : EA)
  /-- E_AND (R128): Element bitwise and. -/
  | eAnd (f : EA)
  /-- E_OR (R128): Element bitwise or. -/
  | eOr (f : EA)
  /-- E_XOR (R128): Element bitwise exclusive or. -/
  | eXor (f : EA)
  /-- E_ANDN (R128): Element and with complement. -/
  | eAndn (f : EA)
  /-- E_SHL (R128): Element logical shift left. -/
  | eShl (f : EA)
  /-- E_SHR (R128): Element logical shift right. -/
  | eShr (f : EA)
  /-- E_SHA (R128): Element arithmetic shift right. -/
  | eSha (f : EA)
  /-- SEL (R128): Element select by predicate p[MOD]. -/
  | sel (f : EA)
  /-- IADDI (R129): Element add of an immediate. -/
  | iaddi (f : EI)
  /-- E_ANDI (R129): Element and with an immediate. -/
  | eAndi (f : EI)
  /-- E_SHLI (R129): Element shift left by an immediate. -/
  | eShli (f : EI)
  /-- E_SHRI (R129): Element shift right by an immediate. -/
  | eShri (f : EI)
  /-- E_POPC (R128): Element count of set bits. -/
  | ePopc (f : EA)
  /-- E_CLZ (R128): Element count of leading zeros. -/
  | eClz (f : EA)
  /-- IDOT4 (R128): Element four-way byte dot product accumulated into x[D]. -/
  | idot4 (f : EA)
  /-- FADD (R130): Element FP32 add. -/
  | fadd (f : EA)
  /-- FSUB (R130): Element FP32 subtract. -/
  | fsub (f : EA)
  /-- FMUL (R130): Element FP32 multiply. -/
  | fmul (f : EA)
  /-- FFMA (R130): Element FP32 fused multiply-add into x[D]. -/
  | ffma (f : EA)
  /-- FMIN (R130): Element FP32 minimum. -/
  | fmin (f : EA)
  /-- FMAX (R130): Element FP32 maximum. -/
  | fmax (f : EA)
  /-- FABS (R130): Element FP32 absolute value. -/
  | fabs (f : EA)
  /-- FNEG (R130): Element FP32 negate. -/
  | fneg (f : EA)
  /-- BFADD2 (R131): Element packed BF16 add. -/
  | bfadd2 (f : EA)
  /-- BFMUL2 (R131): Element packed BF16 multiply. -/
  | bfmul2 (f : EA)
  /-- BFFMA2 (R131): Element packed BF16 fused multiply-add. -/
  | bffma2 (f : EA)
  /-- BFDOT2 (R131): Element BF16 pair dot product into FP32. -/
  | bfdot2 (f : EA)
  /-- HADD2 (R131): Element packed FP16 add. -/
  | hadd2 (f : EA)
  /-- HMUL2 (R131): Element packed FP16 multiply. -/
  | hmul2 (f : EA)
  /-- HFMA2 (R131): Element packed FP16 fused multiply-add. -/
  | hfma2 (f : EA)
  /-- FSCALE (R132): Element FP32 scale by a power of two. -/
  | fscale (f : EA)
  /-- ICMP (R133): Element integer compare. -/
  | icmp (f : EA)
  /-- FCMP (R133): Element FP32 compare. -/
  | fcmp (f : EA)
  /-- PSET (R134): Sets a predicate to a constant. -/
  | pset (pd : PReg) (v : Bool)
  /-- PAND (R134): Predicate and. -/
  | pand (pd pa pb : PReg) (na nb : Bool)
  /-- POR (R134): Predicate or. -/
  | por (pd pa pb : PReg) (na nb : Bool)
  /-- PXOR (R134): Predicate exclusive or. -/
  | pxor (pd pa pb : PReg) (na nb : Bool)
  /-- PNOT (R134): Predicate not. -/
  | pnot (pd pa : PReg)
  /-- PMOV (R134): Predicate move, any or all. -/
  | pmov (pd pa : PReg) (mode : PMovMode)
  /-- CVT_F32_I32 (R135): Converts INT32 to FP32. -/
  | cvtF32I32 (f : EA)
  /-- CVT_I32_F32 (R135): Converts FP32 to saturated INT32. -/
  | cvtI32F32 (f : EA)
  /-- CVT_BF16_F32 (R135): Converts FP32 to BF16, optionally scaled. -/
  | cvtBf16F32 (f : EA)
  /-- CVT_F32_BF16 (R135): Widens a BF16 half to FP32. -/
  | cvtF32Bf16 (f : EA)
  /-- CVT_E4M3_F32 (R135): Converts FP32 to E4M3. -/
  | cvtE4m3F32 (f : EA)
  /-- CVT_E5M2_F32 (R135): Converts FP32 to E5M2. -/
  | cvtE5m2F32 (f : EA)
  /-- CVT_E2M1_F32 (R135): Converts FP32 to E2M1. -/
  | cvtE2m1F32 (f : EA)
  /-- CVT_F32_E4M3 (R135): Widens an E4M3 byte to FP32. -/
  | cvtF32E4m3 (f : EA)
  /-- CVT_F32_E5M2 (R135): Widens an E5M2 byte to FP32. -/
  | cvtF32E5m2 (f : EA)
  /-- CVT_F32_E2M1 (R135): Widens an E2M1 nibble to FP32. -/
  | cvtF32E2m1 (f : EA)
  /-- CVT_I8_F32 (R135): Converts FP32 to saturated INT8. -/
  | cvtI8F32 (f : EA)
  /-- CVT_F32_I8 (R135): Widens a signed byte to FP32. -/
  | cvtF32I8 (f : EA)
  /-- SCLX (R140): Derives the E8M0 scale byte of an FP32 magnitude. -/
  | sclx (f : EA)
  /-- CVT_F16_F32 (R135): Converts FP32 to FP16. -/
  | cvtF16F32 (f : EA)
  /-- CVT_F32_F16 (R135): Widens an FP16 half to FP32. -/
  | cvtF32F16 (f : EA)
  /-- EXP2 (R137): Element correctly rounded exp2. -/
  | exp2 (f : EA)
  /-- LOG2 (R137): Element correctly rounded log2. -/
  | log2 (f : EA)
  /-- RCP (R137): Element correctly rounded reciprocal. -/
  | rcp (f : EA)
  /-- RSQRT (R137): Element correctly rounded reciprocal square root. -/
  | rsqrt (f : EA)
  /-- SQRT (R137): Element correctly rounded square root. -/
  | sqrt (f : EA)
  /-- RSTAT (R138): Folds a score into the running online-softmax state. -/
  | rstat (f : EA)
  /-- RMERGE (R139): Merges two attention partials lane by lane. -/
  | rmerge (d : XReg) (a : XReg) (pd : PReg) (pm : PUpd)
  /-- LRED (R140): Reduces a source across executing lanes in a fixed tree. -/
  | lred (f : EA)
  /-- LSCAN (R140): Inclusive scan across executing lanes. -/
  | lscan (f : EA)
  /-- LPERM (R141): Permutes lanes by per-lane indices. -/
  | lperm (f : EA)
  /-- LBCAST (R141): Broadcasts one lane. -/
  | lbcast (f : EA)
  /-- LSHIFT (R141): Shifts or rotates lanes. -/
  | lshift (f : EA)
  /-- SLD (R157): Site load through a site buffer. -/
  | sld (d : Dst) (site : SiteNo) (a : Src) (sz : ESize) (sx : Bool)
  /-- SST (R157): Site store into a site buffer. -/
  | sst (site : SiteNo) (a b : Src) (sz : ESize)
  /-- SATM (R158): Relaxed per-lane atomic on an atomic site. -/
  | satm (aop : AOp) (d : Dst) (site : SiteNo) (a b : Src)
  /-- SPF (R159): Prefetches a window range under the fill rule. -/
  | spf (site : SiteNo) (a b : Src)
  /-- SCLN (R159): Writes back a window range's dirty sectors. -/
  | scln (site : SiteNo) (a b : Src)
  /-- SINV (R159): Writes back and drops a window range's lines. -/
  | sinv (site : SiteNo) (a b : Src)
  /-- XLD (R157): Scratch load ignoring full bits. -/
  | xld (d : Dst) (a : Src) (sz : ESize) (sx : Bool)
  /-- XST (R157): Scratch store leaving full bits. -/
  | xst (a b : Src) (sz : ESize)
  /-- FELD (R157): Scratch load that waits for full granules and may take them. -/
  | feld (take : Bool) (d : Dst) (a : Src) (sz : ESize)
  /-- FEST (R157): Scratch store that sets full bits. -/
  | fest (a b : Src) (sz : ESize)
  /-- FECLR (R162): Clears full bits of a scratch range. -/
  | feclr (a b : Src)
  /-- EENQ (R163): Element enqueue through a hem tile queue binding. -/
  | eenq (t : Bool) (f : BitVec 5) (b : Src) (tg : BitVec 3)
  /-- EDEQ (R163): Element dequeue delivering the element to i2. -/
  | edeq (t : Bool) (f : BitVec 5) (tg : BitVec 3)
  /-- EBAR (R164): Element barrier arrival with optional release token. -/
  | ebar (na : Bool) (f : BitVec 5) (tg : BitVec 3)
  /-- MRLD (R165): Starts the weight reload of the M-element to the east. -/
  | mrld (at_ : Option Src)
  /-- EMIT (R165): Forwards a channel head with its K bit. -/
  | emit (kt : Bool) (d : Dst) (a : Src) (tg : BitVec 3)
  /-- HDR (R165): Emits a header token. -/
  | hdr (d : Dst) (a b : Src) (tg : BitVec 3)
  /-- DROP (R165): Consumes channel heads, or tokens up to the next header. -/
  | drop (page : Bool) (a b : Src)
  /-- LGEN (R168): Produces the loop generator's value and advances the nest. -/
  | lgen (lane : Bool) (d : Dst) (pr : Option PReg) (tg : BitVec 3)
  /-- LGB (R169): Arms the loop generator nest from a bound token. -/
  | lgb (a : Src) (pr : Option PReg)
  /-- WSPLIT (R170): Splits a token into narrower pieces over several tokens. -/
  | wsplit (half : Bool) (d : Dst) (a : Src) (tg : BitVec 3)
  /-- WJOIN (R171): Writes narrow pieces into a register. -/
  | wjoin (half : Bool) (d : Dst) (a : Src) (k : BitVec 5)
  /-- ORDT (R150): Emits an ordering token once a site's operations performed, or skips a turn. -/
  | ordt (skip : Bool) (d : Dst) (site : SiteNo) (tg : BitVec 3)
  /-- PTAKE (R172): Takes a thimble permit. -/
  | ptake (a : Src)
  /-- PGIVE (R172): Emits a thimble permit after the context's operations performed. -/
  | pgive (d : Dst) (tg : BitVec 3)
  /-- E_GCALL (R283): Element request for a grid call. -/
  | eGcall (f : BitVec 5)
  /-- E_GRET (R284): Element return from a grid call. -/
  | eGret
  /-- ETRAP (R174): Sends a TRAP fault record and halts the context unless .go. -/
  | etrap (go : Bool) (a : Src) (code : BitVec 10)
  /-- EHALT (R175): Halts the context, or ends the fabric load. -/
  | ehalt (load : Bool)
  -- internal and host events (95_what_each_step_holds.md)
  /-- QUEUE_OP_CANCEL (R326): A parked queue or barrier operation is cancelled by an event, freeze or kill with no effect. -/
  | queueOpCancel (p : Party)
  /-- FIRING_COMPLETE (R103): At t+L-1 a firing writes registers, predicates and its reserved output entries. -/
  | firingComplete (e : ElemId) (ctx : Nat)
  /-- SITE_FILL_ARRIVAL (R144): A fetched or streamed sector arrives in a site buffer and the waiting operation resumes. -/
  | siteFillArrival (e : ElemId) (ctx : Nat)
  /-- CHAIN_TURN (R149): A site operation waiting for its chain turn performs when the turn reaches it. -/
  | chainTurn (e : ElemId) (ctx : Nat)
  /-- DIRECTORY_FORWARD (R153): A spread group's directory forwards a received update to every other holder. -/
  | directoryForward (region : Nat)
  /-- SPREAD_UPDATE_APPLY (R86): A member's copy merges a forwarded update. -/
  | spreadUpdateApply (region : Nat)
  /-- ROUTER_FORWARD (R107): Each cycle a router forwards a source head to every selecting output with room. -/
  | routerForward (buf : BufId)
  /-- ROW_PACKET_DELIVERY (R110): A row-network packet reaches its destination queue, buffer or scratch. -/
  | rowPacketDelivery (die idx : Nat)
  /-- ELEMENT_CLOCK_GATE (R118): After 16 idle cycles the element's compute part is clock-gated. -/
  | elementClockGate (e : ElemId)
  /-- ELEMENT_POWER_GATE (R118): After 4,096 idle cycles the element's compute part is power-gated. -/
  | elementPowerGate (e : ElemId)
  /-- ELEMENT_WAKE (R118): A gated element wakes after 2 or 48 cycles and takes the waiting token. -/
  | elementWake (e : ElemId)
  /-- WEIGHT_LATCH (R111): A weight reload, once its granules are read, latches planes, format and scales. -/
  | weightLatch (e : ElemId)
  /-- ROW_ASSEMBLY (R112): An M-element assembles an A row from its input channels. -/
  | rowAssembly (e : ElemId)
  /-- MROW_FIRE (R113): An M-element fires an A row when its conditions hold. -/
  | mrowFire (e : ElemId)
  /-- MROW_OUTPUT (R116): A fired row's results reach the seam, outputs or scratch ring. -/
  | mrowOutput (e : ElemId)
  /-- CONFIG_WORD_WRITE (R68): The configuration tree checks and writes one word into an element. -/
  | configWordWrite (region : Nat)
  /-- CONFIG_END (R68): Configuration ends and the region starts or fails CFG_BLOCKED. -/
  | configEnd (region : Nat)
  /-- BIND_CHECK (R267): The loader reads the image and runs the binding checks. -/
  | bindCheck (region : Nat)
  /-- PLACER_SERVE (R272): The placer serves one region request. -/
  | placerServe (die : Nat)
  /-- LOAD_END (R175): A fabric load ends, completes operations, writes back load buffers and reports done. -/
  | loadEnd (region : Nat)
  /-- STREAM_TOKEN_TRANSFER (R179): A stream moves one token between memory and its destination. -/
  | streamTokenTransfer (cmd : Nat)
  /-- COPY_SECTOR (R216): The copy engine reads and writes one 64-byte destination sector. -/
  | copySector (cmd : Nat)
  /-- BANK_SECTOR (R257): A memory-side unit computes one destination sector of a bankop. -/
  | bankSector (cmd : Nat)
  /-- ROW_TRANSFER (R258): A memory-side unit copies or zeroes one DRAM row. -/
  | rowTransfer (cmd : Nat)
  /-- WRITEBACK_ACCEPT (R252): A memory-side unit queues a write-back. -/
  | writebackAccept (die pa : Nat)
  /-- ORDER_READ_PERFORM (R78): The ordering machine performs a read from an image. -/
  | orderReadPerform (strand ev : Nat)
  /-- ORDER_WRITE_PERFORM (R79): The ordering machine performs a write in its die's image. -/
  | orderWritePerform (strand ev : Nat)
  /-- ORDER_APPLY_PENDING (R80): A die applies a pending write of another die. -/
  | orderApplyPending (die src : Nat)
  /-- LOAD_COMPLETE (R188): An asynchronous load, atomic or home writes its destination. -/
  | loadComplete (strand ev : Nat)
  /-- LATE_ECC_TRAP (R201): An uncorrected error ends an issued operation and the strand traps before its next issue. -/
  | lateEccTrap (strand : Nat)
  /-- WALK_COMPLETE (R244): A page-table walk ends and every waiter receives its result. -/
  | walkComplete (die idx : Nat)
  /-- SHOOTDOWN_ACK (R248): A shootdown's drain ends and the issuing strand proceeds. -/
  | shootdownAck (strand : Nat)
  /-- HANDLE_COMPLETE (R89): A command's handle reads done or fault once its writes reach the reader's image. -/
  | handleComplete (cmd : Nat)
  /-- ASYNC_EVENT_TAKE (R200): A supervisor strand with AE set takes a pending asynchronous event. -/
  | asyncEventTake (strand : Nat)
  /-- IDLE_WAKE (R230): An idle strand returns to RUNNING on an event, a completion or a thaw. -/
  | idleWake (strand : Nat)
  /-- YIELD_TIMEOUT (R230): A yielding strand becomes ready after 4 cycles. -/
  | yieldTimeout (strand : Nat)
  /-- FAULT_RECORD_POST (R227): A fault record is enqueued to the context's fault queue, or the context is killed and the record goes to the host. -/
  | faultRecordPost (ctx : Nat)
  /-- CONTEXT_RETIRE (R226): A DYING context becomes INVALID when its last item ends. -/
  | contextRetire (ctx : Nat)
  /-- FREEZE_WAVE (R286): A freeze spreads over a region and stops firing and moves. -/
  | freezeWave (region : Nat)
  /-- FREEZE_POINT (R287): When every element has finished the wave the snapshot is taken. -/
  | freezePoint (region : Nat)
  /-- CALLEE_BIND (R280): A grid call's callee is checked and configured over the region. -/
  | calleeBind (region : Nat)
  /-- GRID_RETURN (R284): A return thaws the caller and delivers results to i3. -/
  | gridReturn (region : Nat)
  /-- PLEAT_SPILL (R290): An older pleat is spilled to the hamper. -/
  | pleatSpill (region : Nat)
  /-- PLEAT_REFILL (R290): The newest hamper frame is refilled into a pleat. -/
  | pleatRefill (region : Nat)
  /-- LAUNCH_ADMIT (R301): The dispatcher admits a launch into its task table and creates arcs. -/
  | launchAdmit (die : Nat)
  /-- PIN_BREAK (R303): A scheduled pin break writes back and drops a resident buffer once its region stops. -/
  | pinBreak (region : Nat)
  /-- TASK_READY (R309): A task whose arcs are released enters the ready pool. -/
  | taskReady (task : Nat)
  /-- AGING_TICK (R304): Every 2^20 cycles in the pool lowers a task's priority number. -/
  | agingTick (task : Nat)
  /-- TASK_BIND (R305): The dispatcher binds a ready task to a free worker. -/
  | taskBind (die : Nat)
  /-- GROUP_BIND (R307): All members of a pending group bind together. -/
  | groupBind (group : Nat)
  /-- PREEMPT_TIMEOUT (R308): Work waiting 4,096 cycles for a region pre-empts a victim. -/
  | preemptTimeout (task : Nat)
  /-- TASK_FAULT_END (R389): An element fault stops the load and fails the region's task. -/
  | taskFaultEnd (region : Nat)
  /-- RETIRE_COMPLETE (R309): A retiring task's write-backs have performed; arcs release and completion posts. -/
  | retireComplete (task : Nat)
  /-- EENQ_STATUS_DELIVERY (R163): The port delivers an eenq.t status token to i2. -/
  | eenqStatusDelivery (e : ElemId)
  /-- EDEQ_DELIVERY (R163): The port delivers a dequeued element token to i2. -/
  | edeqDelivery (e : ElemId)
  /-- BAR_RELEASE_TOKEN (R164): The port delivers a barrier release token to i3. -/
  | barReleaseToken (e : ElemId)
  /-- HOST_TAIL_WRITE (R336): A host write of TAIL commits host enqueues. -/
  | hostTailWrite (pa : Nat) (v : Word)
  /-- HOST_HEAD_WRITE (R336): A host write of HEAD commits host dequeues. -/
  | hostHeadWrite (pa : Nat) (v : Word)
  /-- HOST_MEM_READ (R96): A host CXL.mem read of device memory at the home image. -/
  | hostMemRead (pa n : Nat)
  /-- HOST_MEM_WRITE (R96): A host CXL.mem write of device memory at the home image. -/
  | hostMemWrite (pa n : Nat) (v : DWord)
  /-- BI_SNOOP_RESPONSE (R241): The host's response to a back-invalidate snoop lets a SYSATOM access perform. -/
  | biSnoopResponse (pa : Nat) (dirty : Option Data512)
  /-- PAGE_SEND (R360): A sweep unit snapshots a page's bitmap, obtains entries and sends the page. -/
  | pageSend (die unit : Nat)
  /-- PARTIAL_ARRIVAL (R359): A query's partial reaches its owner's seam entry. -/
  | partialArrival (die idx : Nat)
  /-- CATCHUP_FETCH (R362): A unit fetches a page again for late subscribers. -/
  | catchupFetch (die unit : Nat)
  /-- END_HEADER_SEND (R363): The end header is sent and outputs are written. -/
  | endHeaderSend (die : Nat)
  /-- FLIT_RECEIVE (R376): A link receives a flit, accepting it in order or requesting replay. -/
  | flitReceive (link seq : Nat) (crcOk : Bool) (payload : Nat)
  /-- LINK_TRAINED (R377): Training completes at full or reduced width. -/
  | linkTrained (link width : Nat)
  /-- LINK_TRAINING_FAILURE (R377): A training attempt fails, the third in a row making the link FAILED. -/
  | linkTrainingFailure (link : Nat)
  /-- LINK_LANE_LOSS (R377): Lane loss or 8 replays send the link to RETRAINING. -/
  | linkLaneLoss (link : Nat)
  /-- LINK_FENCE (R380): Host CMD 1 fences a link. -/
  | linkFence (link : Nat)
  /-- LINK_RETRAIN (R380): Host CMD 2 retrains a link. -/
  | linkRetrain (link : Nat)
  /-- CTXTAB (R380): Host write of the context table base, effective only with no live context. -/
  | ctxtab (v : DWord)
  /-- REGISTER_WRITE (R380): Host write to a BAR0 field without its own row. -/
  | registerWrite (off : Nat) (v : DWord)
  /-- PACKET_ARRIVAL (R383): A route-class packet reaches a die and is handled by its class entry. -/
  | packetArrival (die : Nat)
  /-- PROBE_SEND (R390): A context waiting a whole threshold sends a darning probe. -/
  | probeSend (e : ElemId) (ctx queue : Nat)
  /-- PROBE_RETURN (R391): A probe returning to its origin raises DEADLOCK. -/
  | probeReturn (idx : Nat)
  /-- SOFT_ERROR (R392): A soft error is corrected or fails the item that met it. -/
  | softError (unit : ErrUnit) (corrected : Bool) (addr : Nat)
  /-- WRING_TEST (R393): A wring test starts on an erring unit. -/
  | wringTest (idx : Nat)
  /-- WRING_TEST_RESULT (R394): A wring test ends TRANSIENT or LASTING and fences on failure. -/
  | wringTestResult (idx : Nat) (pass : Bool)
  /-- MODULE_START (R395): The steward starts the module. -/
  | moduleStart (img : StartInput)
  /-- START_RUNNING (R395): Training done, the steward sets MODE to running. -/
  | startRunning
  /-- START_WATCHDOG (R395): The 30 s watchdog expires before running and the start fails. -/
  | startWatchdog
  /-- FIRMWARE_UPDATE (R397): A verified mailbox firmware update clears the failure count. -/
  | firmwareUpdate (img : FirmwareImage)
  /-- GET_MEASUREMENTS (R399): SPDM request returning measurements. -/
  | getMeasurements
  /-- KEY_LOAD (R399): SPDM secured message loading a key slot. -/
  | keyLoad (slot : Nat)
  /-- KEY_ERASE (R399): SPDM secured message erasing a key slot. -/
  | keyErase (slot : Nat)
  /-- EVENT_LOG_READ (R400): The host reads the event log through the mailbox. -/
  | eventLogRead
  /-- FLIT_ACKNOWLEDGEMENT (R376): The sender of a link receives an acknowledgement, freeing held flits, or a replay request, resending from the named flit. -/
  | flitAcknowledgement (link seq : Nat) (replay : Bool)
  /-- CREDIT_RETURN (R376): A stitch-link sender receives a link-layer credit for a buffer freed at the next hop and may send a held flit. -/
  | creditReturn (link : Nat)
  /-- SPDM_SESSION_REQUEST (R399): The steward answers an SPDM 1.2 request over DOE that sets up or uses a secured session with the host. -/
  | spdmSessionRequest (secured : Bool)
  deriving DecidableEq, Repr

end Sys2Proof
end

