-- ==== Sys2Proof/Decode.lean ====
section
/-! DEFINITION. Decoding: from the bits of a word to an instruction, or a rejection by name, written from
03_encodings.md (R52-R60 for sequencer words, R61-R68 for element operation words, with the limits that
R123-R176 place on single instructions), and after it the encoder. Words are read as numbers: bit 0 is the least significant. -/

namespace Sys2Proof

/-- Why a word is no instruction. For sequencer words the conditions of R58, for element words those of R67. -/
inductive Illegal where
  /-- R58 item 1, R67 item 3: the opcode is reserved. -/
  | reservedOp
  /-- R58 item 2: the function or sub-operation is reserved. -/
  | reservedFunction
  /-- R58 item 3: a field that the format marks zero is not zero. -/
  | nonzeroBits
  /-- R58 item 4, R67 item 5: a field that the instruction does not use is not zero. -/
  | unusedField
  /-- R58 item 5, R67 item 5: a field holds a reserved value. -/
  | reservedValue
  /-- R58 item 6, R127: an operand is out of range. -/
  | operandRange
  /-- R58 item 7: the word writes a read-only control register. -/
  | readOnlyCsr
  /-- R67 item 4: an operand code is not one the instruction takes. -/
  | operandCode
  deriving DecidableEq, Repr

/-- Bits hi:lo of a word, as an unsigned number (R7). -/
def fld (w hi lo : Nat) : Nat := w / 2 ^ lo % 2 ^ (hi - lo + 1)

/-! ### Fields of a sequencer word (R53, R54) -/

def issueOf (w : Nat) : Issue := ⟨BitVec.ofNat 2 (fld w 31 30), fld w 29 29 == 1⟩
def regD (w : Nat) : GReg := BitVec.ofNat 5 (fld w 22 18)
def regA (w : Nat) : GReg := BitVec.ofNat 5 (fld w 17 13)
def regB (w : Nat) : GReg := BitVec.ofNat 5 (fld w 12 8)
def regC (w : Nat) : GReg := BitVec.ofNat 5 (fld w 7 3)

def sizeOf? : Nat → Option Size
  | 0 => some .b
  | 1 => some .h
  | 2 => some .w
  | 3 => some .d
  | _ => none

def Size.code : Size → Nat
  | .b => 0
  | .h => 1
  | .w => 2
  | .d => 3

def memOrdOf? : Nat → Option MemOrd
  | 0 => some .plain
  | 1 => some .sync
  | 2 => some .nt
  | _ => none

def MemOrd.code : MemOrd → Nat
  | .plain => 0
  | .sync => 1
  | .nt => 2

def scopeOf? : Nat → Option Scope
  | 0 => some .ctx
  | 1 => some .elem
  | 2 => some .region
  | 3 => some .die
  | 4 => some .dev
  | 5 => some .sys
  | _ => none

def Scope.code : Scope → Nat
  | .ctx => 0
  | .elem => 1
  | .region => 2
  | .die => 3
  | .dev => 4
  | .sys => 5

def fenceKindOf? : Nat → Option FenceKind
  | 0 => some .full
  | 1 => some .acquire
  | 2 => some .release
  | _ => none

def FenceKind.code : FenceKind → Nat
  | .full => 0
  | .acquire => 1
  | .release => 2

def handleCondOf? : Nat → Option HandleCond
  | 0 => some .busy
  | 1 => some .done
  | 2 => some .fault
  | 3 => some .notBusy
  | _ => none

def HandleCond.code : HandleCond → Nat
  | .busy => 0
  | .done => 1
  | .fault => 2
  | .notBusy => 3

/-- The value of an optional field, or the rejection that its reserved value earns. -/
def orIllegal {α : Type} (x : Option α) (e : Illegal) (k : α → Except Illegal Instr) : Except Illegal Instr :=
  match x with
  | some v => k v
  | none => .error e

/-- A condition of R58 or R67 that must hold. -/
def need (c : Bool) (e : Illegal) (k : Except Illegal Instr) : Except Illegal Instr :=
  if c then k else .error e

/-- Control registers that R195 assigns. -/
def csrAssigned (n : Nat) : Bool :=
  n ≤ 0x006 || (0x010 ≤ n && n ≤ 0x013) || (0x020 ≤ n && n ≤ 0x022) || (0x030 ≤ n && n ≤ 0x034) ||
    n == 0x040 || n == 0x041

/-- Control registers that some level may write (R195). -/
def csrWritable (n : Nat) : Bool :=
  n ≤ 0x006 || n == 0x013 || n == 0x040 || n == 0x041

/-! ### Sequencer words -/

/-- `alu` (R57): the three-register functions, by FN. -/
def aluTable : List (Issue → GReg → GReg → GReg → Instr) :=
  [.add, .sub, .and, .or, .xor, .andn, .shl, .shr, .sha, .min, .max, .minn, .maxn, .slt, .sltn, .mul, .mulh, .mulhn, .div, .divn, .rem, .remn]

/-- `atom` (R56): the operations of both sizes, by AOP. -/
def atomTable : List (Issue → GReg → GReg → GReg → Scope → Bool → Instr) :=
  [.aadd, .aand, .aor, .axor, .amin, .amax, .aminn, .amaxn, .aswap, .acas]

/-- A word of QE whose unused register fields must be zero (R58 item 4). -/
def qe (w : Nat) (useD useA useB useC : Bool) (k : Issue → GReg → GReg → GReg → GReg → Instr) : Except Illegal Instr :=
  need ((useD || fld w 22 18 == 0) && (useA || fld w 17 13 == 0) && (useB || fld w 12 8 == 0) && (useC || fld w 7 3 == 0))
    .unusedField (.ok (k (issueOf w) (regD w) (regA w) (regB w) (regC w)))

/-- A word of Q3 whose unused register fields must be zero. -/
def q3 (w : Nat) (useD useA useB : Bool) (k : Issue → GReg → GReg → GReg → Instr) : Except Illegal Instr :=
  need ((useD || fld w 22 18 == 0) && (useA || fld w 17 13 == 0) && (useB || fld w 12 8 == 0))
    .unusedField (.ok (k (issueOf w) (regD w) (regA w) (regB w)))

/-- The sub-operations of OP 0x1C (R56). -/
def decodeQe1C (w : Nat) : Except Illegal Instr :=
  match fld w 2 0 with
  | 0 => qe w false true true false (fun q _ a b _ => .clean q a b)
  | 1 => qe w false true true false (fun q _ a b _ => .inval q a b)
  | 2 => qe w false true true false (fun q _ a b _ => .flush q a b)
  | 3 => qe w false true true false (fun q _ a b _ => .discard q a b)
  | 4 => qe w false true true false (fun q _ a b _ => .pref q a b)
  | _ => .error .reservedFunction

/-- The sub-operations of OP 0x1D (R56). -/
def decodeQe1D (w : Nat) : Except Illegal Instr :=
  match fld w 2 0 with
  | 0 => qe w false true true false (fun q _ a b _ => .enq q a b)
  | 1 => qe w true true true false (fun q d a b _ => .tenq q d a b)
  | 2 => qe w true true true false (fun q d a b _ => .deq q d a b)
  | 3 => qe w true true true true (fun q d a b c => .tdeq q d a b c)
  | 4 => qe w true true false false (fun q d a _ _ => .qinit q d a)
  | 5 => qe w true true false false (fun q d a _ _ => .qstat q d a)
  | 6 => qe w true true true false (fun q d a b _ => .qdrain q d a b)
  | _ => .error .reservedFunction

/-- The sub-operations of OP 0x1E (R56). -/
def decodeQe1E (w : Nat) : Except Illegal Instr :=
  match fld w 2 0 with
  | 0 => qe w true true true false (fun q d a b _ => .binit q d a b)
  | 1 => qe w true true false false (fun q d a _ _ => .barr q d a)
  | 2 => qe w true true true false (fun q d a b _ => .bwait q d a b)
  | 3 => qe w true true false false (fun q d a _ _ => .barw q d a)
  | 4 => qe w true true false false (fun q d a _ _ => .bquery q d a)
  | 5 => qe w true true true false (fun q d a b _ => .bpoison q d a b)
  | _ => .error .reservedFunction

/-- The sub-operations of OP 0x1F (R56). -/
def decodeQe1F (w : Nat) : Except Illegal Instr :=
  match fld w 2 0 with
  | 0 => qe w true true false false (fun q d a _ _ => .launch q d a)
  | 1 => qe w false true false false (fun q _ a _ _ => .tdone q a)
  | 2 => qe w true true false false (fun q d a _ _ => .tstat q d a)
  | _ => .error .reservedFunction

/-- The sub-operations of OP 0x20 (R56). -/
def decodeQe20 (w : Nat) : Except Illegal Instr :=
  match fld w 2 0 with
  | 0 => qe w true true true true (fun q d a b c => .cfgld q d a b c)
  | 1 => qe w true true true false (fun q d a b _ => .place q d a b)
  | 2 => qe w true true false false (fun q d a _ _ => .cfgdrop q d a)
  | 3 => qe w true true true false (fun q d a b _ => .gcall q d a b)
  | 4 => qe w true false false false (fun q d _ _ _ => .gret q d)
  | _ => .error .reservedFunction

/-- The sub-operations of OP 0x21 (R56). -/
def decodeQe21 (w : Nat) : Except Illegal Instr :=
  match fld w 2 0 with
  | 0 => qe w true true true false (fun q d a b _ => .strm q d a b)
  | 1 => qe w true true true false (fun q d a b _ => .strmw q d a b)
  | 2 => qe w true true false false (fun q d a _ _ => .strmc q d a)
  | _ => .error .reservedFunction

/-- The sub-operations of OP 0x22 (R56). -/
def decodeQe22 (w : Nat) : Except Illegal Instr :=
  match fld w 2 0 with
  | 0 => qe w true true true true (fun q d a b c => .copy q d a b c)
  | 1 => qe w true true true true (fun q d a b c => .fill q d a b c)
  | _ => .error .reservedFunction

/-- The sub-operations of OP 0x23 (R56). -/
def decodeQe23 (w : Nat) : Except Illegal Instr :=
  match fld w 2 0 with
  | 0 => need (fld w 7 3 != 31) .operandRange (qe w true true true true (fun q d a b c => .bfadd q d a b c))
  | 1 => need (fld w 7 3 != 31) .operandRange (qe w true true true true (fun q d a b c => .bfmul q d a b c))
  | 2 => need (fld w 7 3 != 31) .operandRange (qe w true true true true (fun q d a b c => .iadd32 q d a b c))
  | 3 => need (fld w 7 3 != 31) .operandRange (qe w true true true true (fun q d a b c => .fadd32 q d a b c))
  | 4 => need (fld w 7 3 != 31) .operandRange (qe w true true true true (fun q d a b c => .bfmax q d a b c))
  | _ => .error .reservedFunction

/-- The sub-operations of OP 0x24 (R56). -/
def decodeQe24 (w : Nat) : Except Illegal Instr :=
  match fld w 2 0 with
  | 0 => qe w true true true true (fun q d a b c => .rowcp q d a b c)
  | 1 => qe w true true true false (fun q d a b _ => .rowzero q d a b)
  | _ => .error .reservedFunction

/-- The sub-operations of OP 0x25 (R56). -/
def decodeQe25 (w : Nat) : Except Illegal Instr :=
  match fld w 2 0 with
  | 0 => qe w true true true false (fun q d a b _ => .subscr q d a b)
  | 1 => qe w true true true false (fun q d a b _ => .unsub q d a b)
  | 2 => qe w true true true false (fun q d a b _ => .sweep q d a b)
  | 3 => qe w true true false false (fun q d a _ _ => .swait q d a)
  | _ => .error .reservedFunction

/-- The sub-operations of OP 0x26 (R56). -/
def decodeQe26 (w : Nat) : Except Illegal Instr :=
  match fld w 2 0 with
  | 0 => qe w true true true true (fun q d a b c => .pksend q d a b c)
  | 1 => qe w true true false false (fun q d a _ _ => .cmask q d a)
  | 2 => qe w true true false false (fun q d a _ _ => .cunmask q d a)
  | _ => .error .reservedFunction

/-- The sub-operations of OP 0x29 (R56). -/
def decodeQe29 (w : Nat) : Except Illegal Instr :=
  match fld w 2 0 with
  | 0 => qe w false true false false (fun q _ a _ _ => .phase q a)
  | 1 => qe w false true true false (fun q _ a b _ => .evsch q a b)
  | _ => .error .reservedFunction

/-- `sys` (R56). -/
def decodeSys (w : Nat) : Except Illegal Instr :=
  match fld w 7 0 with
  | 0 => q3 w false false false (fun q _ _ _ => .nop q)
  | 1 => q3 w false false false (fun q _ _ _ => .eret q)
  | 2 => q3 w false false false (fun q _ _ _ => .halt q)
  | 3 => q3 w false false false (fun q _ _ _ => .idle q)
  | 4 => q3 w false false false (fun q _ _ _ => .yield q)
  | 5 => q3 w true true true (fun q d a b => .tlbi q d a b)
  | 6 => q3 w true false false (fun q d _ _ => .tlbia q d)
  | 7 => q3 w true true true (fun q d a b => .freeze q d a b)
  | 8 => q3 w true true true (fun q d a b => .thaw q d a b)
  | 9 => q3 w true true true (fun q d a b => .kill q d a b)
  | 10 => q3 w true true false (fun q d a _ => .ctxsw q d a)
  | _ => .error .reservedFunction

/-- `alu` (R57): the table above, then the unary functions, whose B must be zero (R202). -/
def decodeAlu (w : Nat) : Except Illegal Instr :=
  match fld w 7 0 with
  | 0x16 => q3 w true true false (fun q d a _ => .clz q d a)
  | 0x17 => q3 w true true false (fun q d a _ => .popc q d a)
  | 0x18 => q3 w true true false (fun q d a _ => .home q d a)
  | fn => orIllegal aluTable[fn]? .reservedFunction (fun k => .ok (k (issueOf w) (regD w) (regA w) (regB w)))

/-- `atom` (R53 QA, R56, R58 items 2 and 5). -/
def decodeAtom (w : Nat) : Except Illegal Instr :=
  match fld w 7 4 with
  | 10 => orIllegal (scopeOf? (fld w 3 1)) .reservedValue (fun sc =>
      need (fld w 0 0 == 0) .reservedValue (.ok (.afadd (issueOf w) (regD w) (regA w) (regB w) sc)))
  | 11 => orIllegal (scopeOf? (fld w 3 1)) .reservedValue (fun sc =>
      need (fld w 0 0 == 0) .reservedValue (.ok (.abfadd2 (issueOf w) (regD w) (regA w) (regB w) sc)))
  | n => orIllegal atomTable[n]? .reservedFunction (fun k =>
      orIllegal (scopeOf? (fld w 3 1)) .reservedValue (fun sc =>
        .ok (k (issueOf w) (regD w) (regA w) (regB w) sc (fld w 0 0 == 1))))

/-- A word of QM (R53): its size and ordering are decoded, and reserved values rejected. -/
def decodeMem (w : Nat) (dwordOk : Bool) (k : Issue → GReg → GReg → BitVec 9 → Size → MemOrd → Instr) : Except Illegal Instr :=
  orIllegal (sizeOf? (fld w 3 2)) .reservedValue (fun sz =>
    orIllegal (memOrdOf? (fld w 1 0)) .reservedValue (fun o =>
      need (dwordOk || sz != .d) .reservedValue
        (.ok (k (issueOf w) (regD w) (regA w) (BitVec.ofNat 9 (fld w 12 4)) sz o))))

/-- The immediate shifts (R58 item 6): IMM, a signed field, must lie from 0 to 63. -/
def decodeShift (w : Nat) (k : Issue → GReg → GReg → BitVec 13 → Instr) : Except Illegal Instr :=
  need (fld w 12 0 ≤ 63) .operandRange (.ok (k (issueOf w) (regD w) (regA w) (BitVec.ofNat 13 (fld w 12 0))))

/-- `csr` (R53 QC, R58 items 4, 6 and 7). -/
def decodeCsr (w : Nat) : Except Illegal Instr :=
  let n := fld w 10 0
  need (csrAssigned n) .operandRange <|
    match fld w 12 11 with
    | 0 => need (fld w 17 13 == 0) .unusedField (.ok (.csrr (issueOf w) (regD w) (BitVec.ofNat 11 n)))
    | 1 => need (csrWritable n) .readOnlyCsr (.ok (.csrw (issueOf w) (regD w) (regA w) (BitVec.ofNat 11 n)))
    | 2 => need (csrWritable n) .readOnlyCsr (.ok (.csrs (issueOf w) (regD w) (regA w) (BitVec.ofNat 11 n)))
    | _ => need (csrWritable n) .readOnlyCsr (.ok (.csrc (issueOf w) (regD w) (regA w) (BitVec.ofNat 11 n)))

/-- The long forms (R60), from both words; only word 0 can be illegal. -/
def decodeLong (w w1 : Nat) : Except Illegal Instr :=
  let imm := BitVec.ofNat 45 (fld w 12 0 * 2 ^ 32 + w1 % 2 ^ 32)
  let off := BitVec.ofNat 40 (fld w 7 0 * 2 ^ 32 + w1 % 2 ^ 32)
  match fld w 17 13 with
  | 0 => .ok (.limm (issueOf w) (regD w) imm)
  | 1 => .ok (.ldl (issueOf w) (regD w) (regB w) off)
  | 2 => .ok (.stl (issueOf w) (regD w) (regB w) off)
  | 3 => .ok (.jall (issueOf w) (regD w) imm)
  | _ => .error .reservedFunction

/-- `fence` (R53 QF). -/
def decodeFence (w : Nat) : Except Illegal Instr :=
  need (fld w 17 0 == 0) .nonzeroBits <|
    orIllegal (scopeOf? (fld w 22 20)) .reservedValue (fun sc =>
      orIllegal (fenceKindOf? (fld w 19 18)) .reservedValue (fun k => .ok (.fence (issueOf w) sc k)))

/-- `wait` (R53 QW). -/
def decodeWait (w : Nat) : Except Illegal Instr :=
  need (fld w 2 0 == 0) .nonzeroBits
    (.ok (.wait (issueOf w) (BitVec.ofNat 4 (fld w 22 19)) (BitVec.ofNat 4 (fld w 18 15)) (BitVec.ofNat 4 (fld w 14 11))
      (BitVec.ofNat 4 (fld w 10 7)) (BitVec.ofNat 4 (fld w 6 3))))

/-- A word of QI. -/
def qi (w : Nat) (k : Issue → GReg → GReg → BitVec 13 → Instr) : Except Illegal Instr :=
  .ok (k (issueOf w) (regD w) (regA w) (BitVec.ofNat 13 (fld w 12 0)))

/-- A word of QB; its A stands in bits 22:18 and its B in bits 17:13. -/
def qb (w : Nat) (k : Issue → GReg → GReg → BitVec 13 → Instr) : Except Illegal Instr :=
  .ok (k (issueOf w) (regD w) (regA w) (BitVec.ofNat 13 (fld w 12 0)))

/-- A sequencer word (R55); `w1` is the second word, read only by a long instruction. -/
def decodeSeq (w w1 : Nat) : Except Illegal Instr :=
  match fld w 28 23 with
  | 0x01 => decodeAlu w
  | 0x02 => qi w .addi
  | 0x03 => qi w .andi
  | 0x04 => qi w .ori
  | 0x05 => qi w .xori
  | 0x06 => qi w .slti
  | 0x07 => qi w .sltni
  | 0x08 => decodeShift w .shli
  | 0x09 => decodeShift w .shri
  | 0x0A => decodeShift w .shai
  | 0x0D => qi w .jalr
  | 0x0B => .ok (.lui (issueOf w) (regD w) (BitVec.ofNat 18 (fld w 17 0)))
  | 0x0C => .ok (.jal (issueOf w) (regD w) (BitVec.ofNat 18 (fld w 17 0)))
  | 0x0E => qb w .beq
  | 0x0F => qb w .bne
  | 0x10 => qb w .blt
  | 0x11 => qb w .bge
  | 0x12 => qb w .bltn
  | 0x13 => qb w .bgen
  | 0x14 => need (fld w 17 13 == 0) .unusedField (need (1 ≤ fld w 12 0 && fld w 12 0 < 4096) .operandRange
      (.ok (.loop (issueOf w) (regD w) (BitVec.ofNat 13 (fld w 12 0)))))
  | 0x15 => orIllegal (handleCondOf? (fld w 17 13)) .reservedValue (fun c =>
      .ok (.btst (issueOf w) (regD w) c (BitVec.ofNat 13 (fld w 12 0))))
  | 0x16 => decodeMem w true .ld
  | 0x17 => decodeMem w false .ldn
  | 0x18 => decodeMem w true .st
  | 0x19 => decodeAtom w
  | 0x1A => decodeFence w
  | 0x1B => decodeWait w
  | 0x1C => decodeQe1C w
  | 0x1D => decodeQe1D w
  | 0x1E => decodeQe1E w
  | 0x1F => decodeQe1F w
  | 0x20 => decodeQe20 w
  | 0x21 => decodeQe21 w
  | 0x22 => decodeQe22 w
  | 0x23 => decodeQe23 w
  | 0x24 => decodeQe24 w
  | 0x25 => decodeQe25 w
  | 0x26 => decodeQe26 w
  | 0x27 => decodeSys w
  | 0x28 => decodeCsr w
  | 0x29 => decodeQe29 w
  | 0x2A => need (fld w 22 18 == 0) .unusedField (.ok (.trap (issueOf w) (BitVec.ofNat 18 (fld w 17 0))))
  | 0x3F => decodeLong w w1
  | _ => .error .reservedOp

/-- Does a sequencer word open a long instruction (R60)? -/
def isLongWord (w : Nat) : Bool := fld w 28 23 == 0x3F

/-! ### Element operation words -/

/-- A source code (R64). -/
def srcOf? (c : Nat) : Option Src :=
  if c < 16 then some (.reg (BitVec.ofNat 4 c))
  else if c < 20 then some (.take (BitVec.ofNat 2 (c - 16)))
  else if c < 24 then some (.keep (BitVec.ofNat 2 (c - 20)))
  else match c with
    | 24 => some .lane
    | 25 => some .here
    | 26 => some .zero
    | _ => none

def Src.code : Src → Nat
  | .reg n => n.toNat
  | .take c => 16 + c.toNat
  | .keep c => 20 + c.toNat
  | .lane => 24
  | .here => 25
  | .zero => 26

/-- A destination code (R64). -/
def dstOf? (c : Nat) : Option Dst :=
  if c < 16 then some (.reg (BitVec.ofNat 4 c))
  else match c with
    | 16 => some .o0
    | 17 => some .o1
    | 18 => some .both
    | 19 => some .none
    | _ => none

def Dst.code : Dst → Nat
  | .reg n => n.toNat
  | .o0 => 16
  | .o1 => 17
  | .both => 18
  | .none => 19

def Dst.isOut : Dst → Bool
  | .o0 | .o1 | .both => true
  | _ => false

def Dst.isReg : Dst → Bool
  | .reg _ => true
  | _ => false

/-- An output code or none: what the token-forming EC instructions take (R165, R170). -/
def Dst.isOutOrNone : Dst → Bool
  | .reg _ => false
  | _ => true

def pupdOf (n : Nat) : PUpd :=
  match n with
  | 0 => .none
  | 1 => .nz
  | 2 => .neg
  | _ => .cu

def PUpd.code : PUpd → Nat
  | .none => 0
  | .nz => 1
  | .neg => 2
  | .cu => 3

def Src.isTake : Src → Bool
  | .take _ => true
  | _ => false

def Src.isChan : Src → Bool
  | .take _ | .keep _ => true
  | _ => false

/-- What R128 to R141 say of an EA instruction: the MOD values it defines, whether it has a carry (PM = 3),
whether its B must be zero, whether `.sc` (MOD bit 1) brings B back, and whether it accumulates (R124). -/
structure EaRow where
  mods  : List Nat
  carry : Bool
  unary : Bool
  sc    : Bool
  acc   : Bool
  deriving DecidableEq, Repr

/-- May these fields stand in a word of this row (R67 items 4 and 5, R124, R127)? -/
def EaRow.ok (r : EaRow) (f : EA) : Bool :=
  r.mods.contains f.md.toNat &&
  (f.pm != .none || f.pd == 0) &&
  (f.pm != .cu || r.carry) &&
  (f.d.isOut || f.tg == 0) &&
  (!r.acc || f.d.isReg) &&
  (!r.unary || f.b == .reg 0 || (r.sc && f.md.getLsbD 1))

/-- The EA fields of a word (R63). -/
def eaOf (w : Nat) (k : EA → Except Illegal Instr) : Except Illegal Instr :=
  orIllegal (dstOf? (fld w 24 20)) .operandCode (fun d =>
    orIllegal (srcOf? (fld w 19 15)) .operandCode (fun a =>
      orIllegal (srcOf? (fld w 14 10)) .operandCode (fun b =>
        k ⟨d, a, b, BitVec.ofNat 3 (fld w 9 7), pupdOf (fld w 6 5), BitVec.ofNat 3 (fld w 4 2), BitVec.ofNat 2 (fld w 1 0)⟩)))

/-- The EI fields of a word (R63). -/
def eiOf (w : Nat) (k : EI → Except Illegal Instr) : Except Illegal Instr :=
  orIllegal (dstOf? (fld w 24 20)) .operandCode (fun d =>
    orIllegal (srcOf? (fld w 19 15)) .operandCode (fun a => k ⟨d, a, BitVec.ofNat 15 (fld w 14 0)⟩))

/-- Plain EA instructions: opcode, what their row allows, and the constructor (R65, R128 to R141). -/
def eaTableA : List (Nat × EaRow × (EA → Instr)) :=
  [(0x01, ⟨[0], false, true, false, false⟩, .mov),
   (0x04, ⟨[0], true, false, false, false⟩, .iadd),
   (0x05, ⟨[0], true, false, false, false⟩, .isub),
   (0x06, ⟨[0], true, false, false, false⟩, .iadds),
   (0x07, ⟨[0], true, false, false, false⟩, .isubs),
   (0x08, ⟨[0], false, false, false, false⟩, .imul),
   (0x09, ⟨[0], false, false, false, false⟩, .imulh),
   (0x0A, ⟨[0], false, false, false, false⟩, .imulhn),
   (0x0B, ⟨[0], false, false, false, true⟩, .imad),
   (0x0C, ⟨[0], false, false, false, false⟩, .imin),
   (0x0D, ⟨[0], false, false, false, false⟩, .imax),
   (0x0E, ⟨[0], false, false, false, false⟩, .nmin),
   (0x0F, ⟨[0], false, false, false, false⟩, .nmax),
   (0x10, ⟨[0], false, true, false, false⟩, .iabs),
   (0x11, ⟨[0], false, false, false, false⟩, .eAnd),
   (0x12, ⟨[0], false, false, false, false⟩, .eOr),
   (0x13, ⟨[0], false, false, false, false⟩, .eXor),
   (0x14, ⟨[0], false, false, false, false⟩, .eAndn)]

/-- Plain EA instructions: opcode, what their row allows, and the constructor (R65, R128 to R141). -/
def eaTableB : List (Nat × EaRow × (EA → Instr)) :=
  [(0x15, ⟨[0], false, false, false, false⟩, .eShl),
   (0x16, ⟨[0], false, false, false, false⟩, .eShr),
   (0x17, ⟨[0], false, false, false, false⟩, .eSha),
   (0x18, ⟨[0, 1, 2, 3], false, false, false, false⟩, .sel),
   (0x1D, ⟨[0], false, true, false, false⟩, .ePopc),
   (0x1E, ⟨[0], false, true, false, false⟩, .eClz),
   (0x1F, ⟨[0, 1, 2], false, false, false, true⟩, .idot4),
   (0x20, ⟨[0], false, false, false, false⟩, .fadd),
   (0x21, ⟨[0], false, false, false, false⟩, .fsub),
   (0x22, ⟨[0], false, false, false, false⟩, .fmul),
   (0x23, ⟨[0], false, false, false, true⟩, .ffma),
   (0x24, ⟨[0], false, false, false, false⟩, .fmin),
   (0x25, ⟨[0], false, false, false, false⟩, .fmax),
   (0x26, ⟨[0], false, true, false, false⟩, .fabs),
   (0x27, ⟨[0], false, true, false, false⟩, .fneg),
   (0x28, ⟨[0], false, false, false, false⟩, .bfadd2),
   (0x29, ⟨[0], false, false, false, false⟩, .bfmul2),
   (0x2A, ⟨[0], false, false, false, true⟩, .bffma2)]

/-- Plain EA instructions: opcode, what their row allows, and the constructor (R65, R128 to R141). -/
def eaTableC : List (Nat × EaRow × (EA → Instr)) :=
  [(0x2B, ⟨[0], false, false, false, true⟩, .bfdot2),
   (0x2C, ⟨[0], false, false, false, false⟩, .hadd2),
   (0x2D, ⟨[0], false, false, false, false⟩, .hmul2),
   (0x2E, ⟨[0], false, false, false, true⟩, .hfma2),
   (0x2F, ⟨[0, 1], false, false, false, false⟩, .fscale),
   (0x38, ⟨[0, 1, 2, 3], false, false, false, false⟩, .icmp),
   (0x39, ⟨[0, 1, 2, 3], true, false, false, false⟩, .fcmp),
   (0x40, ⟨[0], false, true, false, false⟩, .cvtF32I32),
   (0x41, ⟨[0], false, true, false, false⟩, .cvtI32F32),
   (0x42, ⟨[0, 1, 2, 3], false, true, true, false⟩, .cvtBf16F32),
   (0x43, ⟨[0, 1], false, true, false, false⟩, .cvtF32Bf16),
   (0x44, ⟨[0, 1, 2, 3], false, true, true, false⟩, .cvtE4m3F32),
   (0x45, ⟨[0, 1, 2, 3], false, true, true, false⟩, .cvtE5m2F32),
   (0x46, ⟨[0, 2], false, true, true, false⟩, .cvtE2m1F32),
   (0x47, ⟨[0, 1, 2, 3], false, true, false, false⟩, .cvtF32E4m3),
   (0x48, ⟨[0, 1, 2, 3], false, true, false, false⟩, .cvtF32E5m2),
   (0x49, ⟨[0, 1, 2, 3], false, true, false, false⟩, .cvtF32E2m1),
   (0x4A, ⟨[0, 2], false, true, true, false⟩, .cvtI8F32)]

/-- Plain EA instructions: opcode, what their row allows, and the constructor (R65, R128 to R141). -/
def eaTableD : List (Nat × EaRow × (EA → Instr)) :=
  [(0x4B, ⟨[0, 1, 2, 3], false, true, false, false⟩, .cvtF32I8),
   (0x4C, ⟨[0], false, true, false, false⟩, .sclx),
   (0x4D, ⟨[0, 1, 2, 3], false, true, true, false⟩, .cvtF16F32),
   (0x4E, ⟨[0, 1], false, true, false, false⟩, .cvtF32F16),
   (0x50, ⟨[0], false, true, false, false⟩, .exp2),
   (0x51, ⟨[0], false, true, false, false⟩, .log2),
   (0x52, ⟨[0], false, true, false, false⟩, .rcp),
   (0x53, ⟨[0], false, true, false, false⟩, .rsqrt),
   (0x54, ⟨[0], false, true, false, false⟩, .sqrt),
   (0x58, ⟨[0], false, true, false, true⟩, .rstat),
   (0x5A, ⟨[0, 1, 2, 3], false, true, false, false⟩, .lred),
   (0x5B, ⟨[0, 1, 2, 3], false, true, false, false⟩, .lscan),
   (0x5C, ⟨[0], false, false, false, false⟩, .lperm),
   (0x5D, ⟨[0], false, false, false, false⟩, .lbcast),
   (0x5E, ⟨[0, 1, 2, 3], false, false, false, false⟩, .lshift)]

/-- All plain EA instructions. -/
def eaTable : List (Nat × EaRow × (EA → Instr)) := eaTableA ++ eaTableB ++ eaTableC ++ eaTableD

/-- Looks an opcode up in a table keyed by opcode. -/
def opLookup {α : Type} : List (Nat × α) → Nat → Option α
  | [], _ => none
  | (k, v) :: rest, n => if k == n then some v else opLookup rest n

/-- The predicate instructions (R134): D is 19, TG 0, PM 1, and A and B are predicate numbers. -/
def decodePred (w : Nat) : Except Illegal Instr :=
  let a := fld w 19 15
  let b := fld w 14 10
  let md := fld w 1 0
  let pd : PReg := BitVec.ofNat 3 (fld w 9 7)
  let pa : PReg := BitVec.ofNat 3 a
  let pb : PReg := BitVec.ofNat 3 b
  need (fld w 24 20 == 19 && fld w 4 2 == 0 && fld w 6 5 == 1 && a < 8 && b < 8) .operandCode <|
    match fld w 31 25 with
    | 0x3A => need (a == 0 && b == 0) .unusedField (need (md < 2) .reservedValue (.ok (.pset pd (md == 1))))
    | 0x3B => .ok (.pand pd pa pb (md / 2 == 1) (md % 2 == 1))
    | 0x3C => .ok (.por pd pa pb (md / 2 == 1) (md % 2 == 1))
    | 0x3D => .ok (.pxor pd pa pb (md / 2 == 1) (md % 2 == 1))
    | 0x3E => need (b == 0 && md == 0) .unusedField (.ok (.pnot pd pa))
    | _ => need (b == 0) .unusedField
        (match md with
        | 0 => .ok (.pmov pd pa .each)
        | 1 => .ok (.pmov pd pa .any)
        | 2 => .ok (.pmov pd pa .all)
        | _ => .error .reservedValue)

def esizeOf (n : Nat) : ESize :=
  match n with
  | 0 => .b
  | 1 => .h
  | 2 => .w
  | _ => .t

def ESize.code : ESize → Nat
  | .b => 0
  | .h => 1
  | .w => 2
  | .t => 3

def aopOf? : Nat → Option AOp
  | 0 => some .add
  | 1 => some .and
  | 2 => some .or
  | 3 => some .xor
  | 4 => some .min
  | 5 => some .max
  | 6 => some .minn
  | 7 => some .maxn
  | 8 => some .swap
  | 9 => some .cas
  | 10 => some .fadd
  | 11 => some .bfadd2
  | _ => none

def AOp.code : AOp → Nat
  | .add => 0
  | .and => 1
  | .or => 2
  | .xor => 3
  | .min => 4
  | .max => 5
  | .minn => 6
  | .maxn => 7
  | .swap => 8
  | .cas => 9
  | .fadd => 10
  | .bfadd2 => 11

/-- The EM instructions (R156). -/
def decodeEm (w : Nat) : Except Illegal Instr :=
  let site : SiteNo := BitVec.ofNat 6 (fld w 14 9)
  let sz := esizeOf (fld w 3 2)
  let q := fld w 1 0
  let signOk := q == 0 || (q == 1 && fld w 3 2 < 2)
  orIllegal (dstOf? (fld w 24 20)) .operandCode (fun d =>
    orIllegal (srcOf? (fld w 19 15)) .operandCode (fun a =>
      orIllegal (srcOf? (fld w 8 4)) .operandCode (fun b =>
        match fld w 31 25 with
        | 0x60 => need (d != .none) .operandCode (need (b == .reg 0) .unusedField (need signOk .reservedValue
            (.ok (.sld d site a sz (q == 1)))))
        | 0x62 => need (d == .none) .operandCode (need (q == 0) .unusedField (.ok (.sst site a b sz)))
        | 0x63 => orIllegal (aopOf? (fld w 3 0)) .reservedValue (fun o =>
            need (o != .cas || d.isReg) .operandCode (.ok (.satm o d site a b)))
        | 0x64 => need (d == .none) .operandCode (need (fld w 3 0 == 0) .unusedField (.ok (.spf site a b)))
        | 0x65 => need (d == .none) .operandCode (need (fld w 3 0 == 0) .unusedField (.ok (.scln site a b)))
        | 0x66 => need (d == .none) .operandCode (need (fld w 3 0 == 0) .unusedField (.ok (.sinv site a b)))
        | 0x67 => need (d != .none) .operandCode (need (b == .reg 0 && site == 0) .unusedField (need signOk .reservedValue
            (.ok (.xld d a sz (q == 1)))))
        | 0x68 => need (d == .none) .operandCode (need (q == 0 && site == 0) .unusedField (.ok (.xst a b sz)))
        | 0x69 => need (d != .none) .operandCode (need (b == .reg 0 && site == 0) .unusedField
            (need (2 ≤ fld w 3 2 && q < 2) .reservedValue (.ok (.feld (q == 1) d a sz))))
        | _ => need (d == .none) .operandCode (need (q == 0 && site == 0) .unusedField (.ok (.fest a b sz))))))

/-- F of `lgen` and `lgb` (R161): bit 8 of the word enables the predicate of bits 7:5; bit 9 must be zero. -/
def loopPred (w : Nat) : Option PReg :=
  if fld w 8 8 == 1 then some (BitVec.ofNat 3 (fld w 7 5)) else none

def loopPredOk (w : Nat) : Bool := fld w 9 9 == 0 && (fld w 8 8 == 1 || fld w 7 5 == 0)

/-- The EC instructions (R160, R161), with the limits of R150 and R162 to R175. -/
def decodeEc (w : Nat) : Except Illegal Instr :=
  let dz := fld w 24 20 == 0
  let az := fld w 19 15 == 0
  let bz := fld w 14 10 == 0
  let fz := fld w 9 5 == 0
  let tz := fld w 4 2 == 0
  let f : BitVec 5 := BitVec.ofNat 5 (fld w 9 5)
  let tg : BitVec 3 := BitVec.ofNat 3 (fld w 4 2)
  let md := fld w 1 0
  let withA := orIllegal (srcOf? (fld w 19 15)) .operandCode
  let withB := orIllegal (srcOf? (fld w 14 10)) .operandCode
  let withD := orIllegal (dstOf? (fld w 24 20)) .operandCode
  match fld w 31 25 with
  | 0x6B => withA (fun a => withB (fun b => need (dz && fz && tz && md == 0) .unusedField (.ok (.feclr a b))))
  | 0x6C => withB (fun b => need (dz && az && fld w 9 5 < 16) .unusedField (need (md < 2 && (md == 1 || tz)) .reservedValue
      (.ok (.eenq (md == 1) f b tg))))
  | 0x6D => need (dz && az && bz && fld w 9 5 < 16) .unusedField (need (md < 2 && (md == 0 || fld w 4 2 < 7)) .reservedValue
      (.ok (.edeq (md == 1) f tg)))
  | 0x6E => need (dz && az && bz && fld w 9 5 < 16) .unusedField (need (md < 2 && (md == 0 || tz)) .reservedValue
      (.ok (.ebar (md == 1) f tg)))
  | 0x6F => need (dz && bz && fz && tz && md < 2) .unusedField
      (if md == 1 then withA (fun a => .ok (.mrld (some a))) else need az .unusedField (.ok (.mrld none)))
  | 0x70 => withD (fun d => withA (fun a => need (bz && fz && md < 2) .unusedField
      (need (d.isOutOrNone && a.isChan && (d.isOut || tz)) .operandCode (.ok (.emit (md == 1) d a tg)))))
  | 0x71 => withD (fun d => withA (fun a => withB (fun b => need (fz && md == 0) .unusedField
      (need (d.isOutOrNone && (d.isOut || tz)) .operandCode (.ok (.hdr d a b tg))))))
  | 0x72 => withA (fun a => withB (fun b => need (dz && fz && tz && md < 2) .unusedField
      (need (a.isChan && (if md == 1 then bz else (b.isChan || b == .zero))) .operandCode
        (.ok (.drop (md == 1) a b)))))
  | 0x73 => withD (fun d => need (az && bz && loopPredOk w && md < 2) .unusedField (need (d.isOut || tz) .operandCode
      (.ok (.lgen (md == 1) d (loopPred w) tg))))
  | 0x74 => withA (fun a => need (dz && bz && tz && md == 0 && loopPredOk w) .unusedField (need a.isTake .operandCode
      (.ok (.lgb a (loopPred w)))))
  | 0x75 => withD (fun d => withA (fun a => need (bz && fz && md < 2) .unusedField
      (need (d.isOutOrNone && a.isTake && (d.isOut || tz)) .operandCode (.ok (.wsplit (md == 1) d a tg)))))
  | 0x76 => withD (fun d => withA (fun a => need (bz && tz && md < 2) .unusedField
      (need d.isReg .operandCode (need (fld w 9 5 < (if md == 1 then 2 else 4)) .operandRange
        (.ok (.wjoin (md == 1) d a f))))))
  | 0x77 => withD (fun d => need (az && fld w 8 5 == 0 && md < 2) .unusedField
      (need (d.isOutOrNone && (d.isOut || tz) && (md == 0 || d == .none)) .operandCode
        (.ok (.ordt (md == 1) d (BitVec.ofNat 6 (fld w 14 9)) tg))))
  | 0x78 => withA (fun a => need (dz && bz && fz && tz && md == 0) .unusedField (need a.isTake .operandCode (.ok (.ptake a))))
  | 0x79 => withD (fun d => need (az && bz && fz && md == 0) .unusedField (need (d.isOutOrNone && (d.isOut || tz)) .operandCode
      (.ok (.pgive d tg))))
  | 0x7A => need (dz && az && bz && tz && md == 0) .unusedField (.ok (.eGcall f))
  | 0x7B => need (dz && az && bz && fz && tz && md == 0) .unusedField (.ok .eGret)
  | 0x7C => withA (fun a => need (dz && tz && md < 2) .unusedField (.ok (.etrap (md == 1) a (BitVec.ofNat 10 (fld w 14 5)))))
  | _ => need (dz && az && bz && fz && tz && md < 2) .unusedField (.ok (.ehalt (md == 1)))

/-- The EI instructions (R129). -/
def decodeEi (w : Nat) : Except Illegal Instr :=
  eiOf w (fun f =>
    match fld w 31 25 with
    | 0x02 => need (f.a == .reg 0) .unusedField (.ok (.movi f.d f.imm))
    | 0x03 => .ok (.movhi f)
    | 0x19 => .ok (.iaddi f)
    | 0x1A => .ok (.eAndi f)
    | 0x1B => need (fld w 14 0 < 32) .operandRange (.ok (.eShli f))
    | _ => need (fld w 14 0 < 32) .operandRange (.ok (.eShri f)))

/-- `nop` (R128): D is 19 and every other field but A and B is zero. -/
def decodeENop (w : Nat) : Except Illegal Instr :=
  eaOf w (fun f => need (f.d == .none && f.pd == 0 && f.pm == .none && f.tg == 0 && f.md == 0) .unusedField (.ok (.eNop f.a f.b)))

/-- `rmerge` (R139): D is 0 to 12, and A is a register number from 0 to 14. -/
def decodeRmerge (w : Nat) : Except Illegal Instr :=
  need (fld w 24 20 ≤ 12 && fld w 19 15 ≤ 14) .operandRange
    (need (fld w 14 10 == 0 && fld w 4 2 == 0 && fld w 1 0 == 0) .unusedField
      (need (fld w 6 5 != 3 && (fld w 6 5 != 0 || fld w 9 7 == 0)) .reservedValue
        (.ok (.rmerge (BitVec.ofNat 4 (fld w 24 20)) (BitVec.ofNat 4 (fld w 19 15)) (BitVec.ofNat 3 (fld w 9 7)) (pupdOf (fld w 6 5))))))

/-- An EA instruction of the table; `rstat` has D from 0 to 12 (R138). -/
def decodeEa (w : Nat) : Except Illegal Instr :=
  orIllegal (opLookup eaTable (fld w 31 25)) .reservedOp (fun r =>
    eaOf w (fun f => need (r.1.ok f) .operandCode
      (need (fld w 31 25 != 0x58 || fld w 24 20 ≤ 12) .operandRange (.ok (r.2 f)))))

/-- An element operation word (R65, R66). -/
def decodeElem (w : Nat) : Except Illegal Instr :=
  let op := fld w 31 25
  if op == 0x00 then decodeENop w
  else if op == 0x02 || op == 0x03 || (0x19 ≤ op && op ≤ 0x1C) then decodeEi w
  else if 0x3A ≤ op && op ≤ 0x3F then decodePred w
  else if op == 0x59 then decodeRmerge w
  else if op == 0x60 || (0x62 ≤ op && op ≤ 0x6A) then decodeEm w
  else if 0x6B ≤ op && op ≤ 0x7D then decodeEc w
  else decodeEa w

/-! ### One word of either kind

Sequencer words and element operation words are different programs' words: nothing in a word says which
it is. Where a bare word is given, it is read as follows (log entry 4). -/

/-- The instruction that a bare word of the opcode table stands for: with bits 31:29 zero a sequencer word first,
otherwise an element operation word first; the other kind where the first refuses. -/
def decodeTableWord (nbits w : Nat) : Option Instr :=
  let w0 := w % 2 ^ 32
  let w1 := if nbits ≤ 32 then 0 else w / 2 ^ 32 % 2 ^ 32
  let seq := (decodeSeq w0 w1).toOption
  let elem := (decodeElem w0).toOption
  if nbits > 32 || w0 < 2 ^ 29 then seq.orElse (fun _ => elem) else elem.orElse (fun _ => seq)

/-! ### The encoder -/

/-- Bits 31:23 of a sequencer word (R52). -/
def Issue.bits (q : Issue) (op : Nat) : Nat :=
  q.gap.toNat * 2 ^ 30 + (if q.sw then 1 else 0) * 2 ^ 29 + op * 2 ^ 23

def encQ3 (q : Issue) (op : Nat) (d a b : GReg) (fn : Nat) : Nat :=
  q.bits op + d.toNat * 2 ^ 18 + a.toNat * 2 ^ 13 + b.toNat * 2 ^ 8 + fn

def encQI (q : Issue) (op : Nat) (d a : GReg) (imm : BitVec 13) : Nat :=
  q.bits op + d.toNat * 2 ^ 18 + a.toNat * 2 ^ 13 + imm.toNat

def encQU (q : Issue) (op : Nat) (d : GReg) (imm : BitVec 18) : Nat :=
  q.bits op + d.toNat * 2 ^ 18 + imm.toNat

def encQM (q : Issue) (op : Nat) (d a : GReg) (off : BitVec 9) (sz : Size) (o : MemOrd) : Nat :=
  q.bits op + d.toNat * 2 ^ 18 + a.toNat * 2 ^ 13 + off.toNat * 2 ^ 4 + sz.code * 2 ^ 2 + o.code

def encQA (q : Issue) (d a b : GReg) (aop : Nat) (sc : Scope) (dbl : Bool) : Nat :=
  q.bits 0x19 + d.toNat * 2 ^ 18 + a.toNat * 2 ^ 13 + b.toNat * 2 ^ 8 + aop * 2 ^ 4 + sc.code * 2 + (if dbl then 1 else 0)

def encQE (q : Issue) (op : Nat) (d a b c : GReg) (sub : Nat) : Nat :=
  q.bits op + d.toNat * 2 ^ 18 + a.toNat * 2 ^ 13 + b.toNat * 2 ^ 8 + c.toNat * 2 ^ 3 + sub

def encQC (q : Issue) (d a : GReg) (csrop : Nat) (csr : BitVec 11) : Nat :=
  q.bits 0x28 + d.toNat * 2 ^ 18 + a.toNat * 2 ^ 13 + csrop * 2 ^ 11 + csr.toNat

/-- Both words of a long form (R60), word 0 first. -/
def encQL (q : Issue) (d : GReg) (sub hi lo : Nat) : List Nat :=
  [q.bits 0x3F + d.toNat * 2 ^ 18 + sub * 2 ^ 13 + hi, lo]

def encEA (op : Nat) (f : EA) : Nat :=
  op * 2 ^ 25 + f.d.code * 2 ^ 20 + f.a.code * 2 ^ 15 + f.b.code * 2 ^ 10 + f.pd.toNat * 2 ^ 7 + f.pm.code * 2 ^ 5 +
    f.tg.toNat * 2 ^ 2 + f.md.toNat

def encEI (op : Nat) (d : Dst) (a : Src) (imm : BitVec 15) : Nat :=
  op * 2 ^ 25 + d.code * 2 ^ 20 + a.code * 2 ^ 15 + imm.toNat

def encEM (op : Nat) (d a : Nat) (site : SiteNo) (b szq : Nat) : Nat :=
  op * 2 ^ 25 + d * 2 ^ 20 + a * 2 ^ 15 + site.toNat * 2 ^ 9 + b * 2 ^ 4 + szq

def encEC (op d a b f tg md : Nat) : Nat :=
  op * 2 ^ 25 + d * 2 ^ 20 + a * 2 ^ 15 + b * 2 ^ 10 + f * 2 ^ 5 + tg * 2 ^ 2 + md

def encP (op : Nat) (pd pa pb : PReg) (md : Nat) : Nat :=
  op * 2 ^ 25 + 19 * 2 ^ 20 + pa.toNat * 2 ^ 15 + pb.toNat * 2 ^ 10 + pd.toNat * 2 ^ 7 + 1 * 2 ^ 5 + md

def loopPredCode : Option PReg → Nat
  | none => 0
  | some p => 8 + p.toNat

def bit (b : Bool) : Nat := if b then 1 else 0

/-- The words of an instruction, word 0 first; an event has none. -/
def encode : Instr → List Nat
  | .add q d a b => [encQ3 q 0x01 d a b 0x00]
  | .sub q d a b => [encQ3 q 0x01 d a b 0x01]
  | .and q d a b => [encQ3 q 0x01 d a b 0x02]
  | .or q d a b => [encQ3 q 0x01 d a b 0x03]
  | .xor q d a b => [encQ3 q 0x01 d a b 0x04]
  | .andn q d a b => [encQ3 q 0x01 d a b 0x05]
  | .shl q d a b => [encQ3 q 0x01 d a b 0x06]
  | .shr q d a b => [encQ3 q 0x01 d a b 0x07]
  | .sha q d a b => [encQ3 q 0x01 d a b 0x08]
  | .min q d a b => [encQ3 q 0x01 d a b 0x09]
  | .max q d a b => [encQ3 q 0x01 d a b 0x0A]
  | .minn q d a b => [encQ3 q 0x01 d a b 0x0B]
  | .maxn q d a b => [encQ3 q 0x01 d a b 0x0C]
  | .slt q d a b => [encQ3 q 0x01 d a b 0x0D]
  | .sltn q d a b => [encQ3 q 0x01 d a b 0x0E]
  | .mul q d a b => [encQ3 q 0x01 d a b 0x0F]
  | .mulh q d a b => [encQ3 q 0x01 d a b 0x10]
  | .mulhn q d a b => [encQ3 q 0x01 d a b 0x11]
  | .div q d a b => [encQ3 q 0x01 d a b 0x12]
  | .divn q d a b => [encQ3 q 0x01 d a b 0x13]
  | .rem q d a b => [encQ3 q 0x01 d a b 0x14]
  | .remn q d a b => [encQ3 q 0x01 d a b 0x15]
  | .clz q d a => [encQ3 q 0x01 d a 0 0x16]
  | .popc q d a => [encQ3 q 0x01 d a 0 0x17]
  | .home q d a => [encQ3 q 0x01 d a 0 0x18]
  | .addi q d a imm => [encQI q 0x02 d a imm]
  | .andi q d a imm => [encQI q 0x03 d a imm]
  | .ori q d a imm => [encQI q 0x04 d a imm]
  | .xori q d a imm => [encQI q 0x05 d a imm]
  | .slti q d a imm => [encQI q 0x06 d a imm]
  | .sltni q d a imm => [encQI q 0x07 d a imm]
  | .shli q d a imm => [encQI q 0x08 d a imm]
  | .shri q d a imm => [encQI q 0x09 d a imm]
  | .shai q d a imm => [encQI q 0x0A d a imm]
  | .jalr q d a imm => [encQI q 0x0D d a imm]
  | .lui q d imm => [encQU q 0x0B d imm]
  | .jal q d off => [encQU q 0x0C d off]
  | .beq q a b off => [encQI q 0x0E a b off]
  | .bne q a b off => [encQI q 0x0F a b off]
  | .blt q a b off => [encQI q 0x10 a b off]
  | .bge q a b off => [encQI q 0x11 a b off]
  | .bltn q a b off => [encQI q 0x12 a b off]
  | .bgen q a b off => [encQI q 0x13 a b off]
  | .loop q a off => [encQI q 0x14 a 0 off]
  | .btst q a c off => [encQI q 0x15 a (BitVec.ofNat 5 c.code) off]
  | .ld q d a off sz o => [encQM q 0x16 d a off sz o]
  | .ldn q d a off sz o => [encQM q 0x17 d a off sz o]
  | .st q d a off sz o => [encQM q 0x18 d a off sz o]
  | .aadd q d a b sc dbl => [encQA q d a b 0 sc dbl]
  | .aand q d a b sc dbl => [encQA q d a b 1 sc dbl]
  | .aor q d a b sc dbl => [encQA q d a b 2 sc dbl]
  | .axor q d a b sc dbl => [encQA q d a b 3 sc dbl]
  | .amin q d a b sc dbl => [encQA q d a b 4 sc dbl]
  | .amax q d a b sc dbl => [encQA q d a b 5 sc dbl]
  | .aminn q d a b sc dbl => [encQA q d a b 6 sc dbl]
  | .amaxn q d a b sc dbl => [encQA q d a b 7 sc dbl]
  | .aswap q d a b sc dbl => [encQA q d a b 8 sc dbl]
  | .acas q d a b sc dbl => [encQA q d a b 9 sc dbl]
  | .afadd q d a b sc => [encQA q d a b 10 sc false]
  | .abfadd2 q d a b sc => [encQA q d a b 11 sc false]
  | .fence q sc k => [q.bits 0x1A + sc.code * 2 ^ 20 + k.code * 2 ^ 18]
  | .wait q l t c u v => [q.bits 0x1B + l.toNat * 2 ^ 19 + t.toNat * 2 ^ 15 + c.toNat * 2 ^ 11 + u.toNat * 2 ^ 7 + v.toNat * 2 ^ 3]
  | .clean q a b => [encQE q 0x1C 0 a b 0 0]
  | .inval q a b => [encQE q 0x1C 0 a b 0 1]
  | .flush q a b => [encQE q 0x1C 0 a b 0 2]
  | .discard q a b => [encQE q 0x1C 0 a b 0 3]
  | .pref q a b => [encQE q 0x1C 0 a b 0 4]
  | .enq q a b => [encQE q 0x1D 0 a b 0 0]
  | .tenq q d a b => [encQE q 0x1D d a b 0 1]
  | .deq q d a b => [encQE q 0x1D d a b 0 2]
  | .tdeq q d a b c => [encQE q 0x1D d a b c 3]
  | .qinit q d a => [encQE q 0x1D d a 0 0 4]
  | .qstat q d a => [encQE q 0x1D d a 0 0 5]
  | .qdrain q d a b => [encQE q 0x1D d a b 0 6]
  | .binit q d a b => [encQE q 0x1E d a b 0 0]
  | .barr q d a => [encQE q 0x1E d a 0 0 1]
  | .bwait q d a b => [encQE q 0x1E d a b 0 2]
  | .barw q d a => [encQE q 0x1E d a 0 0 3]
  | .bquery q d a => [encQE q 0x1E d a 0 0 4]
  | .bpoison q d a b => [encQE q 0x1E d a b 0 5]
  | .launch q d a => [encQE q 0x1F d a 0 0 0]
  | .tdone q a => [encQE q 0x1F 0 a 0 0 1]
  | .tstat q d a => [encQE q 0x1F d a 0 0 2]
  | .cfgld q d a b c => [encQE q 0x20 d a b c 0]
  | .place q d a b => [encQE q 0x20 d a b 0 1]
  | .cfgdrop q d a => [encQE q 0x20 d a 0 0 2]
  | .gcall q d a b => [encQE q 0x20 d a b 0 3]
  | .gret q d => [encQE q 0x20 d 0 0 0 4]
  | .strm q d a b => [encQE q 0x21 d a b 0 0]
  | .strmw q d a b => [encQE q 0x21 d a b 0 1]
  | .strmc q d a => [encQE q 0x21 d a 0 0 2]
  | .copy q d a b c => [encQE q 0x22 d a b c 0]
  | .fill q d a b c => [encQE q 0x22 d a b c 1]
  | .bfadd q d a b c => [encQE q 0x23 d a b c 0]
  | .bfmul q d a b c => [encQE q 0x23 d a b c 1]
  | .iadd32 q d a b c => [encQE q 0x23 d a b c 2]
  | .fadd32 q d a b c => [encQE q 0x23 d a b c 3]
  | .bfmax q d a b c => [encQE q 0x23 d a b c 4]
  | .rowcp q d a b c => [encQE q 0x24 d a b c 0]
  | .rowzero q d a b => [encQE q 0x24 d a b 0 1]
  | .subscr q d a b => [encQE q 0x25 d a b 0 0]
  | .unsub q d a b => [encQE q 0x25 d a b 0 1]
  | .sweep q d a b => [encQE q 0x25 d a b 0 2]
  | .swait q d a => [encQE q 0x25 d a 0 0 3]
  | .pksend q d a b c => [encQE q 0x26 d a b c 0]
  | .cmask q d a => [encQE q 0x26 d a 0 0 1]
  | .cunmask q d a => [encQE q 0x26 d a 0 0 2]
  | .phase q a => [encQE q 0x29 0 a 0 0 0]
  | .evsch q a b => [encQE q 0x29 0 a b 0 1]
  | .nop q => [encQ3 q 0x27 0 0 0 0]
  | .eret q => [encQ3 q 0x27 0 0 0 1]
  | .halt q => [encQ3 q 0x27 0 0 0 2]
  | .idle q => [encQ3 q 0x27 0 0 0 3]
  | .yield q => [encQ3 q 0x27 0 0 0 4]
  | .tlbi q d a b => [encQ3 q 0x27 d a b 5]
  | .tlbia q d => [encQ3 q 0x27 d 0 0 6]
  | .freeze q d a b => [encQ3 q 0x27 d a b 7]
  | .thaw q d a b => [encQ3 q 0x27 d a b 8]
  | .kill q d a b => [encQ3 q 0x27 d a b 9]
  | .ctxsw q d a => [encQ3 q 0x27 d a 0 10]
  | .csrr q d n => [encQC q d 0 0 n]
  | .csrw q d a n => [encQC q d a 1 n]
  | .csrs q d a n => [encQC q d a 2 n]
  | .csrc q d a n => [encQC q d a 3 n]
  | .trap q code => [encQU q 0x2A 0 code]
  | .limm q d imm => encQL q d 0 (imm.toNat / 2 ^ 32) (imm.toNat % 2 ^ 32)
  | .ldl q d a off => encQL q d 1 (a.toNat * 2 ^ 8 + off.toNat / 2 ^ 32) (off.toNat % 2 ^ 32)
  | .stl q d a off => encQL q d 2 (a.toNat * 2 ^ 8 + off.toNat / 2 ^ 32) (off.toNat % 2 ^ 32)
  | .jall q d off => encQL q d 3 (off.toNat / 2 ^ 32) (off.toNat % 2 ^ 32)
  | .eNop a b => [encEA 0x00 ⟨.none, a, b, 0, .none, 0, 0⟩]
  | .movi d imm => [encEI 0x02 d (.reg 0) imm]
  | .movhi f => [encEI 0x03 f.d f.a f.imm]
  | .iaddi f => [encEI 0x19 f.d f.a f.imm]
  | .eAndi f => [encEI 0x1A f.d f.a f.imm]
  | .eShli f => [encEI 0x1B f.d f.a f.imm]
  | .eShri f => [encEI 0x1C f.d f.a f.imm]
  | .mov f => [encEA 0x01 f]
  | .iadd f => [encEA 0x04 f]
  | .isub f => [encEA 0x05 f]
  | .iadds f => [encEA 0x06 f]
  | .isubs f => [encEA 0x07 f]
  | .imul f => [encEA 0x08 f]
  | .imulh f => [encEA 0x09 f]
  | .imulhn f => [encEA 0x0A f]
  | .imad f => [encEA 0x0B f]
  | .imin f => [encEA 0x0C f]
  | .imax f => [encEA 0x0D f]
  | .nmin f => [encEA 0x0E f]
  | .nmax f => [encEA 0x0F f]
  | .iabs f => [encEA 0x10 f]
  | .eAnd f => [encEA 0x11 f]
  | .eOr f => [encEA 0x12 f]
  | .eXor f => [encEA 0x13 f]
  | .eAndn f => [encEA 0x14 f]
  | .eShl f => [encEA 0x15 f]
  | .eShr f => [encEA 0x16 f]
  | .eSha f => [encEA 0x17 f]
  | .sel f => [encEA 0x18 f]
  | .ePopc f => [encEA 0x1D f]
  | .eClz f => [encEA 0x1E f]
  | .idot4 f => [encEA 0x1F f]
  | .fadd f => [encEA 0x20 f]
  | .fsub f => [encEA 0x21 f]
  | .fmul f => [encEA 0x22 f]
  | .ffma f => [encEA 0x23 f]
  | .fmin f => [encEA 0x24 f]
  | .fmax f => [encEA 0x25 f]
  | .fabs f => [encEA 0x26 f]
  | .fneg f => [encEA 0x27 f]
  | .bfadd2 f => [encEA 0x28 f]
  | .bfmul2 f => [encEA 0x29 f]
  | .bffma2 f => [encEA 0x2A f]
  | .bfdot2 f => [encEA 0x2B f]
  | .hadd2 f => [encEA 0x2C f]
  | .hmul2 f => [encEA 0x2D f]
  | .hfma2 f => [encEA 0x2E f]
  | .fscale f => [encEA 0x2F f]
  | .icmp f => [encEA 0x38 f]
  | .fcmp f => [encEA 0x39 f]
  | .cvtF32I32 f => [encEA 0x40 f]
  | .cvtI32F32 f => [encEA 0x41 f]
  | .cvtBf16F32 f => [encEA 0x42 f]
  | .cvtF32Bf16 f => [encEA 0x43 f]
  | .cvtE4m3F32 f => [encEA 0x44 f]
  | .cvtE5m2F32 f => [encEA 0x45 f]
  | .cvtE2m1F32 f => [encEA 0x46 f]
  | .cvtF32E4m3 f => [encEA 0x47 f]
  | .cvtF32E5m2 f => [encEA 0x48 f]
  | .cvtF32E2m1 f => [encEA 0x49 f]
  | .cvtI8F32 f => [encEA 0x4A f]
  | .cvtF32I8 f => [encEA 0x4B f]
  | .sclx f => [encEA 0x4C f]
  | .cvtF16F32 f => [encEA 0x4D f]
  | .cvtF32F16 f => [encEA 0x4E f]
  | .exp2 f => [encEA 0x50 f]
  | .log2 f => [encEA 0x51 f]
  | .rcp f => [encEA 0x52 f]
  | .rsqrt f => [encEA 0x53 f]
  | .sqrt f => [encEA 0x54 f]
  | .rstat f => [encEA 0x58 f]
  | .lred f => [encEA 0x5A f]
  | .lscan f => [encEA 0x5B f]
  | .lperm f => [encEA 0x5C f]
  | .lbcast f => [encEA 0x5D f]
  | .lshift f => [encEA 0x5E f]
  | .pset pd v => [encP 0x3A pd 0 0 (bit v)]
  | .pand pd pa pb na nb => [encP 0x3B pd pa pb (2 * bit na + bit nb)]
  | .por pd pa pb na nb => [encP 0x3C pd pa pb (2 * bit na + bit nb)]
  | .pxor pd pa pb na nb => [encP 0x3D pd pa pb (2 * bit na + bit nb)]
  | .pnot pd pa => [encP 0x3E pd pa 0 0]
  | .pmov pd pa m => [encP 0x3F pd pa 0 (match m with | .each => 0 | .any => 1 | .all => 2)]
  | .rmerge d a pd pm => [0x59 * 2 ^ 25 + d.toNat * 2 ^ 20 + a.toNat * 2 ^ 15 + pd.toNat * 2 ^ 7 + pm.code * 2 ^ 5]
  | .sld d site a sz sx => [encEM 0x60 d.code a.code site 0 (sz.code * 4 + bit sx)]
  | .sst site a b sz => [encEM 0x62 19 a.code site b.code (sz.code * 4)]
  | .satm o d site a b => [encEM 0x63 d.code a.code site b.code o.code]
  | .spf site a b => [encEM 0x64 19 a.code site b.code 0]
  | .scln site a b => [encEM 0x65 19 a.code site b.code 0]
  | .sinv site a b => [encEM 0x66 19 a.code site b.code 0]
  | .xld d a sz sx => [encEM 0x67 d.code a.code 0 0 (sz.code * 4 + bit sx)]
  | .xst a b sz => [encEM 0x68 19 a.code 0 b.code (sz.code * 4)]
  | .feld take d a sz => [encEM 0x69 d.code a.code 0 0 (sz.code * 4 + bit take)]
  | .fest a b sz => [encEM 0x6A 19 a.code 0 b.code (sz.code * 4)]
  | .feclr a b => [encEC 0x6B 0 a.code b.code 0 0 0]
  | .eenq t f b tg => [encEC 0x6C 0 0 b.code f.toNat tg.toNat (bit t)]
  | .edeq t f tg => [encEC 0x6D 0 0 0 f.toNat tg.toNat (bit t)]
  | .ebar na f tg => [encEC 0x6E 0 0 0 f.toNat tg.toNat (bit na)]
  | .mrld none => [encEC 0x6F 0 0 0 0 0 0]
  | .mrld (some a) => [encEC 0x6F 0 a.code 0 0 0 1]
  | .emit kt d a tg => [encEC 0x70 d.code a.code 0 0 tg.toNat (bit kt)]
  | .hdr d a b tg => [encEC 0x71 d.code a.code b.code 0 tg.toNat 0]
  | .drop page a b => [encEC 0x72 0 a.code b.code 0 0 (bit page)]
  | .lgen lane d pr tg => [encEC 0x73 d.code 0 0 (loopPredCode pr) tg.toNat (bit lane)]
  | .lgb a pr => [encEC 0x74 0 a.code 0 (loopPredCode pr) 0 0]
  | .wsplit h d a tg => [encEC 0x75 d.code a.code 0 0 tg.toNat (bit h)]
  | .wjoin h d a k => [encEC 0x76 d.code a.code 0 k.toNat 0 (bit h)]
  | .ordt skip d site tg => [0x77 * 2 ^ 25 + d.code * 2 ^ 20 + site.toNat * 2 ^ 9 + tg.toNat * 2 ^ 2 + bit skip]
  | .ptake a => [encEC 0x78 0 a.code 0 0 0 0]
  | .pgive d tg => [encEC 0x79 d.code 0 0 0 tg.toNat 0]
  | .eGcall f => [encEC 0x7A 0 0 0 f.toNat 0 0]
  | .eGret => [encEC 0x7B 0 0 0 0 0 0]
  | .etrap go a code => [0x7C * 2 ^ 25 + a.code * 2 ^ 15 + code.toNat * 2 ^ 5 + bit go]
  | .ehalt load => [encEC 0x7D 0 0 0 0 0 (bit load)]
  | .queueOpCancel _ => []
  | .firingComplete _ _ => []
  | .siteFillArrival _ _ => []
  | .chainTurn _ _ => []
  | .directoryForward _ => []
  | .spreadUpdateApply _ => []
  | .routerForward _ => []
  | .rowPacketDelivery _ _ => []
  | .elementClockGate _ => []
  | .elementPowerGate _ => []
  | .elementWake _ => []
  | .weightLatch _ => []
  | .rowAssembly _ => []
  | .mrowFire _ => []
  | .mrowOutput _ => []
  | .configWordWrite _ => []
  | .configEnd _ => []
  | .bindCheck _ => []
  | .placerServe _ => []
  | .loadEnd _ => []
  | .streamTokenTransfer _ => []
  | .copySector _ => []
  | .bankSector _ => []
  | .rowTransfer _ => []
  | .writebackAccept _ _ => []
  | .orderReadPerform _ _ => []
  | .orderWritePerform _ _ => []
  | .orderApplyPending _ _ => []
  | .loadComplete _ _ => []
  | .lateEccTrap _ => []
  | .walkComplete _ _ => []
  | .shootdownAck _ => []
  | .handleComplete _ => []
  | .asyncEventTake _ => []
  | .idleWake _ => []
  | .yieldTimeout _ => []
  | .faultRecordPost _ => []
  | .contextRetire _ => []
  | .freezeWave _ => []
  | .freezePoint _ => []
  | .calleeBind _ => []
  | .gridReturn _ => []
  | .pleatSpill _ => []
  | .pleatRefill _ => []
  | .launchAdmit _ => []
  | .pinBreak _ => []
  | .taskReady _ => []
  | .agingTick _ => []
  | .taskBind _ => []
  | .groupBind _ => []
  | .preemptTimeout _ => []
  | .taskFaultEnd _ => []
  | .retireComplete _ => []
  | .eenqStatusDelivery _ => []
  | .edeqDelivery _ => []
  | .barReleaseToken _ => []
  | .hostTailWrite _ _ => []
  | .hostHeadWrite _ _ => []
  | .hostMemRead _ _ => []
  | .hostMemWrite _ _ _ => []
  | .biSnoopResponse _ _ => []
  | .pageSend _ _ => []
  | .partialArrival _ _ => []
  | .catchupFetch _ _ => []
  | .endHeaderSend _ => []
  | .flitReceive _ _ _ _ => []
  | .linkTrained _ _ => []
  | .linkTrainingFailure _ => []
  | .linkLaneLoss _ => []
  | .linkFence _ => []
  | .linkRetrain _ => []
  | .ctxtab _ => []
  | .registerWrite _ _ => []
  | .packetArrival _ => []
  | .probeSend _ _ _ => []
  | .probeReturn _ => []
  | .softError _ _ _ => []
  | .wringTest _ => []
  | .wringTestResult _ _ => []
  | .moduleStart _ => []
  | .startRunning => []
  | .startWatchdog => []
  | .firmwareUpdate _ => []
  | .getMeasurements => []
  | .keyLoad _ => []
  | .keyErase _ => []
  | .eventLogRead => []
  | .flitAcknowledgement _ _ _ => []
  | .creditReturn _ => []
  | .spdmSessionRequest _ => []

end Sys2Proof
end

