-- ==== Sys2Proof/Machine/Float.lean ====
section
/-! DEFINITION. Number formats and floating-point arithmetic (02_numbers.md R22 to R40): exact dyadic values,
rounded once to nearest, ties to even. -/

namespace Sys2Proof.Machine

/-- A floating-point value: NaN, an infinity, or (−1)^neg × m × 2^e exactly (R24, R25). -/
inductive Fp where
  | nan
  | inf (neg : Bool)
  | fin (neg : Bool) (m : Nat) (e : Int)
  deriving DecidableEq, Repr

/-- A format of R24: exponent and fraction widths and bias, and whether it has infinities (R25). -/
structure Fmt where
  ebits : Nat
  mbits : Nat
  bias  : Nat
  infs  : Bool
  nans  : Bool
  deriving DecidableEq, Repr

/-- FP32 (R24). -/
def fmtF32 : Fmt := ⟨8, 23, 127, true, true⟩
/-- BF16 (R24). -/
def fmtBf16 : Fmt := ⟨8, 7, 127, true, true⟩
/-- FP16 (R24). -/
def fmtF16 : Fmt := ⟨5, 10, 15, true, true⟩
/-- E4M3 (R24, R25): no infinity, one NaN magnitude. -/
def fmtE4m3 : Fmt := ⟨4, 3, 7, false, true⟩
/-- E5M2 (R24). -/
def fmtE5m2 : Fmt := ⟨5, 2, 15, true, true⟩
/-- E2M1 (R24, R25): neither infinity nor NaN. -/
def fmtE2m1 : Fmt := ⟨2, 1, 1, false, false⟩

/-- The significand with its hidden bit, of precision mbits + 1. -/
def Fmt.width (f : Fmt) : Nat := f.ebits + f.mbits + 1

/-- The exponent of the least subnormal's unit: 1 − bias − mbits (R24). -/
def Fmt.emin (f : Fmt) : Int := 1 - (f.bias : Int) - f.mbits

/-- The largest finite magnitude's code (R24). -/
def Fmt.maxCode (f : Fmt) : Nat :=
  if f.infs then ((2 ^ f.ebits - 1) <<< f.mbits) - 1
  else if f.nans then ((2 ^ f.ebits - 1) <<< f.mbits) + 2 ^ f.mbits - 2
  else 2 ^ (f.ebits + f.mbits) - 1

/-- The infinity's code, sign clear (R25). -/
def Fmt.infCode (f : Fmt) : Nat := (2 ^ f.ebits - 1) <<< f.mbits

/-- The canonical NaN (R25). -/
def Fmt.nanCode (f : Fmt) : Nat :=
  if f.infs then f.infCode + 2 ^ (f.mbits - 1) else f.maxCode + 1

/-- The sign bit of a code. -/
def Fmt.signBit (f : Fmt) (neg : Bool) : Nat := if neg then 2 ^ (f.ebits + f.mbits) else 0

/-- The value of a code (R24, R25). -/
def Fmt.value (f : Fmt) (w : Nat) : Fp :=
  let neg := w.testBit (f.ebits + f.mbits)
  let e := (w >>> f.mbits) % 2 ^ f.ebits
  let m := w % 2 ^ f.mbits
  if f.infs && e == 2 ^ f.ebits - 1 then (if m == 0 then .inf neg else .nan)
  else if !f.infs && f.nans && e == 2 ^ f.ebits - 1 && m == 2 ^ f.mbits - 1 then .nan
  else if e == 0 then .fin neg m f.emin
  else .fin neg (2 ^ f.mbits + m) (f.emin + ((e : Int) - 1))

/-- Number of significant bits of a magnitude. -/
def bitLen (m : Nat) : Nat := if m == 0 then 0 else Nat.log2 m + 1

/-- m × 2^e as a multiple of 2^q, rounded to nearest, ties to even. -/
def roundTo (m : Nat) (e q : Int) : Nat :=
  if q ≤ e then m <<< (e - q).toNat
  else
    let sh := (q - e).toNat
    if sh > bitLen m + 1 then 0
    else
      let d := m >>> sh
      let r := m % 2 ^ sh
      let half := 2 ^ (sh - 1)
      if r > half || (r == half && d % 2 == 1) then d + 1 else d

/-- The code of the magnitude m × 2^e rounded in the format with its exponent range left unbounded above (R37). -/
def Fmt.magCode (f : Fmt) (m : Nat) (e : Int) : Nat :=
  if m == 0 then 0
  else
    let top := e + bitLen m
    let q := max (top - (f.mbits + 1)) f.emin
    let r := roundTo m e q
    -- r < 2^(mbits+1) + 1; the code grows by carry into the exponent
    (((q - f.emin).toNat) <<< f.mbits) + r

/-- Rounded to the format with overflow to an infinity of the value's sign (R33, R34). -/
def Fmt.rne (f : Fmt) : Fp → Nat
  | .nan => f.nanCode
  | .inf neg => f.signBit neg + f.infCode
  | .fin neg m e =>
    let c := f.magCode m e
    f.signBit neg + (if c > f.maxCode then f.infCode else c)

/-- The narrowing conversion of R37 and R38: an overflow or an infinity gives the largest finite value or, with
`.inf`, the infinity (the NaN of E4M3); `nanOut` is the code a NaN converts to. -/
def Fmt.narrow (f : Fmt) (useInf : Bool) : Fp → Nat
  | .nan => if f.nans then f.nanCode else 0
  | .inf neg =>
    if useInf then (if f.infs then f.signBit neg + f.infCode else f.nanCode) else f.signBit neg + f.maxCode
  | .fin neg m e =>
    let c := f.magCode m e
    if c > f.maxCode then
      (if useInf then (if f.infs then f.signBit neg + f.infCode else f.nanCode) else f.signBit neg + f.maxCode)
    else f.signBit neg + c

/-! ### Exact operations -/

/-- Signed value of a finite number at a common exponent. -/
def Fp.at (q : Int) (neg : Bool) (m : Nat) (e : Int) : Int :=
  let v : Int := ((m <<< (e - q).toNat : Nat) : Int)
  if neg then -v else v

/-- A finite value from a signed integer at an exponent; zero is +0. -/
def Fp.ofInt (v : Int) (e : Int) : Fp := .fin (decide (v < 0)) v.natAbs e

/-- The opposite sign; NaN stays NaN. -/
def Fp.neg : Fp → Fp
  | .nan => .nan
  | .inf s => .inf (!s)
  | .fin s m e => .fin (!s) m e

/-- The exact sum (R33, R130): opposite infinities give NaN; a zero sum is +0 unless both terms are −0. -/
def Fp.add : Fp → Fp → Fp
  | .nan, _ => .nan
  | _, .nan => .nan
  | .inf s, .inf t => if s == t then .inf s else .nan
  | .inf s, .fin _ _ _ => .inf s
  | .fin _ _ _, .inf t => .inf t
  | .fin s m e, .fin t n f =>
    if m == 0 && n == 0 then .fin (s && t) 0 0
    else if m == 0 then .fin t n f
    else if n == 0 then .fin s m e
    else
      let q := min e f
      .ofInt (Fp.at q s m e + Fp.at q t n f) q

/-- The exact product (R130): infinity times zero is NaN. -/
def Fp.mul : Fp → Fp → Fp
  | .nan, _ => .nan
  | _, .nan => .nan
  | .inf s, .inf t => .inf (s != t)
  | .inf s, .fin t n _ => if n == 0 then .nan else .inf (s != t)
  | .fin s m _, .inf t => if m == 0 then .nan else .inf (s != t)
  | .fin s m e, .fin t n f => .fin (s != t) (m * n) (e + f)

/-- Times a power of two, exactly. -/
def Fp.scale (k : Int) : Fp → Fp
  | .fin s m e => .fin s m (e + k)
  | x => x

/-- Whether a value is a zero. -/
def Fp.isZero : Fp → Bool
  | .fin _ m _ => m == 0
  | _ => false

/-- Sign of a value. -/
def Fp.sign : Fp → Bool
  | .nan => false
  | .inf s => s
  | .fin s _ _ => s

/-- Order of two numbers by value (R133): negative, zero or positive; none when one is NaN. −0 equals +0. -/
def Fp.cmp : Fp → Fp → Option Ordering
  | .nan, _ => none
  | _, .nan => none
  | .inf s, .inf t => some (if s == t then .eq else if s then .lt else .gt)
  | .inf s, .fin _ _ _ => some (if s then .lt else .gt)
  | .fin _ _ _, .inf t => some (if t then .gt else .lt)
  | .fin s m e, .fin t n f =>
    -- compare by sign and magnitude first, so that no shift is long
    if m == 0 && n == 0 then some .eq
    else if m == 0 then some (if t then .gt else .lt)
    else if n == 0 then some (if s then .lt else .gt)
    else if s != t then some (if s then .lt else .gt)
    else
      let q := min e f
      some (compare (Fp.at q s m e) (Fp.at q t n f))

/-- FP32 value of a word. -/
def f32 (w : Word) : Fp := fmtF32.value w.toNat

/-- rne_f32 as a word (R7). -/
def rneF32 (x : Fp) : Word := BitVec.ofNat 32 (fmtF32.rne x)

/-- The canonical FP32 NaN (R25). -/
def nanF32 : Word := 0x7FC00000

/-- FP32 sum, rounded once (R33). -/
def addF32 (a b : Word) : Word := rneF32 ((f32 a).add (f32 b))
/-- FP32 difference, rounded once (R33). -/
def subF32 (a b : Word) : Word := rneF32 ((f32 a).add (f32 b).neg)
/-- FP32 product, rounded once (R33). -/
def mulF32 (a b : Word) : Word := rneF32 ((f32 a).mul (f32 b))
/-- FP32 fused multiply-add, rounded once (R33). -/
def fmaF32 (a b c : Word) : Word := rneF32 (((f32 a).mul (f32 b)).add (f32 c))

/-- Whether an FP32 word is NaN. -/
def isNanF32 (w : Word) : Bool := f32 w == .nan

/-- An order key of a format's codes in which −0 stands before +0 (R35). -/
def orderKey (f : Fmt) (w : Nat) : Int :=
  let m := w % 2 ^ (f.ebits + f.mbits)
  if w.testBit (f.ebits + f.mbits) then -((m : Int)) - 1 else m

/-- `fmax` and `fmin` of R35 in a format: one NaN gives the other operand, two the canonical NaN. -/
def fminmax (f : Fmt) (isMax : Bool) (a b : Nat) : Nat :=
  match f.value a == .nan, f.value b == .nan with
  | true, true => f.nanCode
  | true, false => b
  | false, true => a
  | false, false =>
    if isMax then (if orderKey f a < orderKey f b then b else a)
    else (if orderKey f b < orderKey f a then b else a)

/-- `fmax` in FP32 (R35). -/
def fmaxF32 (a b : Word) : Word := BitVec.ofNat 32 (fminmax fmtF32 true a.toNat b.toNat)
/-- `fmin` in FP32 (R35). -/
def fminF32 (a b : Word) : Word := BitVec.ofNat 32 (fminmax fmtF32 false a.toNat b.toNat)

/-- Half j of a packed lane (R26). -/
def half (w : Word) (j : Nat) : Nat := (w.toNat >>> (16 * j)) % 65536

/-- A packed operation, element by element (R131). -/
def packed2 (f : Nat → Nat → Nat → Nat) (a b d : Word) : Word :=
  BitVec.ofNat 32 (f (half a 0) (half b 0) (half d 0) + 65536 * f (half a 1) (half b 1) (half d 1))

/-- The packed sum in a 16-bit format (R34). -/
def packedAdd (f : Fmt) : Word → Word → Word → Word :=
  packed2 fun a b _ => f.rne ((f.value a).add (f.value b))
/-- The packed product in a 16-bit format (R34). -/
def packedMul (f : Fmt) : Word → Word → Word → Word :=
  packed2 fun a b _ => f.rne ((f.value a).mul (f.value b))
/-- The packed fused multiply-add in a 16-bit format (R34). -/
def packedFma (f : Fmt) : Word → Word → Word → Word :=
  packed2 fun a b d => f.rne (((f.value a).mul (f.value b)).add (f.value d))

/-- `bfdot2` (R34): a0·b0 + a1·b1 + c exactly, rounded once; a zero sum is −0 only when every term is −0. -/
def bfdot2F32 (a b c : Word) : Word :=
  let p j := (fmtBf16.value (half a j)).mul (fmtBf16.value (half b j))
  rneF32 (((p 0).add (p 1)).add (f32 c))

/-! ### Conversions -/

/-- The nearest integer, ties to even, clamped to the signed n-bit range (R39). -/
def toIntSat (n : Nat) : Fp → Int
  | .nan => 0
  | .inf neg => if neg then -(2 ^ (n - 1)) else 2 ^ (n - 1) - 1
  | .fin neg m e =>
    let r : Int := if e > 64 then (if m == 0 then 0 else 2 ^ 64) else roundTo m e 0
    let v := if neg then -r else r
    max (-(2 ^ (n - 1))) (min (2 ^ (n - 1) - 1) v)

/-- `sclx` (R40): the E8M0 byte of an FP32 magnitude. -/
def sclxByte (w : Word) : Nat :=
  let e := (w.toNat >>> 23) % 256
  if e == 255 then 255 else min e 254

/-! ### Special functions (R36) -/

/-- Integer square root by bits, highest first, on fuel. -/
def isqrtLoop : Nat → Nat → Nat → Nat
  | 0, _, r => r
  | k + 1, n, r =>
    let c := r + 2 ^ k
    isqrtLoop k n (if c * c ≤ n then c else r)

/-- The integer square root. -/
def isqrt (n : Nat) : Nat := isqrtLoop (bitLen n / 2 + 1) n 0

/-- A magnitude m × 2^e with a sticky bit below it. -/
def sticky (m : Nat) (e : Int) (inexact : Bool) (neg : Bool) : Fp :=
  .fin neg (2 * m + (if inexact then 1 else 0)) (e - 1)

/-- `rcp` (R36). -/
def rcpF32 (w : Word) : Word :=
  match f32 w with
  | .nan => nanF32
  | .inf s => rneF32 (.fin s 0 0)
  | .fin s m e =>
    if m == 0 then rneF32 (.inf s)
    else
      let k := bitLen m + 64
      let q := 2 ^ k / m
      rneF32 (sticky q (-e - k) (2 ^ k % m != 0) s)

/-- `sqrt` (R36). -/
def sqrtF32 (w : Word) : Word :=
  match f32 w with
  | .nan => nanF32
  | .inf s => if s then nanF32 else w
  | .fin s m e =>
    if m == 0 then w
    else if s then nanF32
    else
      let odd := e % 2 != 0
      let m' := (if odd then 2 * m else m) <<< 80
      let e' := (if odd then e - 1 else e) - 80
      let r := isqrt m'
      rneF32 (sticky r (e' / 2) (r * r != m') false)

/-- `rsqrt` (R36). -/
def rsqrtF32 (w : Word) : Word :=
  match f32 w with
  | .nan => nanF32
  | .inf s => if s then nanF32 else 0
  | .fin s m e =>
    if m == 0 then rneF32 (.inf s)
    else if s then nanF32
    else
      let odd := e % 2 != 0
      let m' := if odd then 2 * m else m
      let e' := if odd then e - 1 else e
      -- 1 / sqrt(m' 2^e') = sqrt(2^160 / m') 2^(-80 - e'/2)
      let r := isqrt (2 ^ 160 / m')
      rneF32 (sticky r (-80 - e' / 2) (r * r * m' != 2 ^ 160) false)

/-- Fraction bits of the fixed-point evaluations of `exp2` and `log2`: no FP32 operand needs more to round
(assumption log 11). -/
def fixBits : Nat := 256

/-- Σ 2^fixBits / (k 2^k) downward from k on fuel: ln 2. -/
def ln2Sum : Nat → Nat → Nat
  | 0, _ => 0
  | n + 1, k => 2 ^ fixBits / (k * 2 ^ k) + ln2Sum n (k + 1)

/-- ln 2 in fixed point. -/
def ln2Fix : Nat := ln2Sum 264 1

/-- Σ y^k / k! in fixed point, on fuel. -/
def expSum : Nat → Nat → Nat → Nat → Nat
  | 0, _, _, _ => 0
  | n + 1, k, y, t => t + expSum n (k + 1) y (t * y / (2 ^ fixBits * k))

/-- 2^(f / 2^fixBits) in fixed point, for f below 2^fixBits. -/
def exp2Fix (f : Nat) : Nat := expSum 70 1 (f * ln2Fix / 2 ^ fixBits) (2 ^ fixBits)

/-- `exp2` (R36). -/
def exp2F32 (w : Word) : Word :=
  match f32 w with
  | .nan => nanF32
  | .inf s => if s then 0 else w
  | .fin s m e =>
    if m == 0 then 0x3F800000
    else if (f32 w).cmp (.fin false 128 0) != some .lt then rneF32 (.inf false)
    else if (f32 w).cmp (.fin true 150 0) != some .gt then 0
    else
      -- x = i + f / 2^fixBits, 0 ≤ f: |x| < 256 and every FP32 fraction fits 149 bits
      let v := Fp.at (-(fixBits : Int)) s m e
      let i := v / 2 ^ fixBits
      let f := (v % 2 ^ fixBits).toNat
      if f == 0 then rneF32 (.fin false 1 i)
      else rneF32 (sticky (exp2Fix f) (i - fixBits) true false)

/-- The bits of log2 of a fixed-point number in [1, 2), one per squaring, on fuel. -/
def log2Bits : Nat → Nat → Nat → Nat
  | 0, _, acc => acc
  | n + 1, y, acc =>
    let z := y * y / 2 ^ fixBits
    if z ≥ 2 ^ (fixBits + 1) then log2Bits n (z / 2) (2 * acc + 1) else log2Bits n z (2 * acc)

/-- `log2` (R36). -/
def log2F32 (w : Word) : Word :=
  match f32 w with
  | .nan => nanF32
  | .inf s => if s then nanF32 else w
  | .fin s m e =>
    if m == 0 then rneF32 (.inf true)
    else if s then nanF32
    else
      let k := bitLen m - 1
      let i : Int := e + k
      if m == 2 ^ k then rneF32 (Fp.ofInt i 0)
      else
        let n := 160
        let f := log2Bits n (m <<< (fixBits - k)) 0
        -- i + (f + a fraction) / 2^n, never an exact tie
        let v := i * 2 ^ n + f
        rneF32 (Fp.ofInt (2 * v + 1) (-(n : Int) - 1))

/-! ### The Mangle merge (R50) -/

/-- m, l, e1 and e2 of R50; with m = −∞ every one but m is +0. -/
def mergeML (m1 l1 m2 l2 : Word) : Word × Word × Word × Word :=
  let m := fmaxF32 m1 m2
  if m == 0xFF800000 then (m, 0, 0, 0)
  else
    let e1 := exp2F32 (subF32 m1 m)
    let e2 := exp2F32 (subF32 m2 m)
    (m, fmaF32 l1 e1 (mulF32 l2 e2), e1, e2)

/-- An output element of R50. -/
def mergeO (e1 e2 o1 o2 : Word) : Word := fmaF32 o1 e1 (mulF32 o2 e2)

end Sys2Proof.Machine
end

