-- ==== Sys2Proof/Config.lean ====
section
/-! DEFINITION. What an implementation of the BVK-N840 fixes: the counts and sizes of R11 to R19, and the
values the spec leaves open, as constants without a body (each with its entry of the assumption log). -/

namespace Sys2Proof

/-- Compute dies of the module (R11). -/
def Config.dies : Nat := 8
/-- Strands of the module: 8 dies of 16 cores of 4 strands (R17). -/
def Config.strands : Nat := 512
/-- Element rows of a die (R12). -/
def Config.rows : Nat := 64
/-- Element columns of a die (R12). -/
def Config.cols : Nat := 80
/-- Bytes of a scratch array (R155). -/
def Config.scratchBytes : Nat := 131072
/-- Bytes of a site array (R144). -/
def Config.siteBytes : Nat := 393216
/-- Offsets of a die's interleaved view that are populated lie below this (R234). -/
def Config.dieBytes : Nat := 191743918080
/-- Cycles of the 2.1 GHz clock in a 10 ns tick of TIME (R1, R195). -/
def Config.tickCycles : Nat := 21

/-- Free value: how many cycles after it is issued the numbered event first may take its step. The spec leaves
the time of every memory event, engine event and delivery open (R75, R188); no proof can see it (log 2). -/
opaque Config.latency : Nat → Nat
/-- Free value: the set of a slice that a line of the die lies in (R250 to R254 name none; log 5). -/
opaque Config.sliceSet : Nat → Nat
/-- Free value: the set of a gateway cache that a line lies in (R251; log 5). -/
opaque Config.gatewaySet : Nat → Nat
/-- Free value: the ways of a gateway cache (R251; log 5). -/
opaque Config.gatewayWays : Nat
/-- 256-byte lines of a gateway cache of 8 MiB (R11). -/
def Config.gatewayLines : Nat := 32768
/-- A pending write never falls this many writes behind: well below the 2^31 of R81, so that no step passes it. -/
def Config.lagLimit : Nat := 1073741824
/-- Free value: a DRAM sector that was encrypted under one key slot and key, read under another (R243 gives the cipher and no
key; log 80). -/
opaque Config.underKey : Nat × Nat → Nat × Nat → BitVec 512 → BitVec 512
/-- Free value: how many cycles of the first tick of TIME have passed on a die when the module starts; the dies agree to within one
tick (R195; log 3). -/
opaque Config.timePhase : Nat → Nat
/-- Free value: a byte of a plane or of a sweep's state in a hamper frame, whose layout is not architectural
(R288, R365): frame number, then byte number (log 6). -/
opaque Config.frameByte : Nat → Nat → Byte
/-- Free value: the credits that a stitch link's receiver has at its start, by link (R376 gives no number; log 18). -/
opaque Config.linkCredits : Nat → Nat
/-- Free value: a word of the measurements that the steward returns (R399 names their subjects and no layout; log 7). -/
opaque Config.measurement : Nat → Word
/-- Free value: the five bits STRAND of a handle of a strand numbered 32 to 63 in its die, a number that they cannot hold
(R190; log 21). -/
opaque Config.handleStrand : Nat → BitVec 5

end Sys2Proof
end

