-- ==== Sys2Proof/Machine/State.lean ====
section
/-! DEFINITION. The state of the machine: everything the spec gives it, as plain data. Collections that the
hardware holds in great number (strands, elements, lines) are lists of the entries that differ from their
reset value, or of the entries in use. -/

namespace Sys2Proof.Machine

/-! ### Reasons to stop -/

/-- The faults that stop the machine. -/
inductive Fault where
  /-- A memory-side unit or a cache reaches a physical address of no populated window (R234, R238 keep translated
  accesses out of them; a table base written by the host can name one). Raised by the step. Safe: the machine
  stops where the spec says no memory exists. -/
  | unpopulated (pa : Nat)
  deriving DecidableEq, Repr

/-- The refusals of the machine. -/
inductive Refusal where
  /-- The instruction has no meaning in this model yet. Raised by `exec`. Safe: nothing runs. -/
  | notModelled (mnemonic : String)
  deriving DecidableEq, Repr

/-! ### Memory -/

/-- Memory: rising addresses, no entry equal to what an unlisted address reads as (zero: assumption log 8). -/
abbrev Memory := List Host.Cell

/-- A clock (R76): the writes of each die that a die has applied, in eight 32-bit entries. Entry e is die e's. -/
abbrev Clock := Vector (BitVec 32) 8

/-- How an access marks a line (R253): its schedule and stream id, `nt` for class 0 with REL = 0; with `ms` for a page whose
lines no gateway cache holds (R251), and the key slot of its page with the number of the key in it (R243), none for an access
without a page. -/
structure Mark where
  sched  : Nat
  stream : Nat
  nt     : Bool
  ms     : Bool
  key    : Option (Nat × Nat)
  deriving DecidableEq, Repr

/-- A write event in the ordering machine (R79, R80). `on` lists the dies whose image holds or has passed it; `bytes` keeps
the bytes that a memory-side unit or cache maintenance has not discarded (R260, R407, R213). -/
structure WriteEv where
  id     : Nat
  src    : Nat
  home   : Nat
  pa     : Nat
  bytes  : List (Option Byte)
  stamp  : Clock
  forced : Bool
  mark   : Mark
  on     : List Nat
  deriving DecidableEq, Repr

/-- The image of a die (R76): every byte, the write that last set each byte, and the die's clock. -/
structure Image where
  mem   : Memory
  tags  : List (Nat × Nat)
  clock : Clock
  deriving DecidableEq, Repr

/-- A sector of a slice (R250): V, and WMASK; D is WMASK not zero. -/
structure SliceSector where
  v     : Bool
  wmask : BitVec 16
  deriving DecidableEq, Repr

/-- A 256-byte line of a slice or a gateway cache, with what R253 records at its last access and the key of the last page it
was accessed through (R243). `unit` is the slice number, or 64 + port for a gateway cache; `way` its way. Sectors of a gateway
line keep a byte mask (R251). -/
structure CacheLine where
  die    : Nat
  unit   : Nat
  way    : Nat
  line   : Nat
  valid  : BitVec 4
  wmask  : BitVec 64
  bmask  : BitVec 256
  sched  : Nat
  cls    : BitVec 2
  rel    : Bool
  rphase : BitVec 8
  key    : Option (Nat × Nat)
  deriving DecidableEq, Repr

/-- A write-back on its way to a memory-side unit (R252). -/
structure WriteBack where
  die  : Nat
  pa   : Nat
  mask : BitVec 64
  data : Data512
  key  : Option (Nat × Nat)
  deriving DecidableEq, Repr

/-- An eviction schedule's table and phase counter on a die (R253). -/
structure EvictSched where
  die   : Nat
  no    : Nat
  table : List Word
  phase : BitVec 8
  deriving DecidableEq, Repr

/-- A write-back of a site buffer through a SYSATOM page that waits for the host to give up the line (R241): the element, where
and what it writes. -/
structure HeldWrite where
  e     : ElemId
  pa    : Nat
  bytes : List (Option Byte)
  mark  : Mark
  task  : Option Nat
  deriving DecidableEq, Repr

/-- The memory of the module and of the host. `hostHas` lists the lines that the host holds, `snoops` the lines for which
a home slice has sent the host a back-invalidate snoop that it has not answered (R241), `held` the write-backs that wait for
such an answer. `sealed` gives the key slot and key
under which each DRAM sector that a page's key has written is encrypted; `shown` the key under which the images show a sector
that was fetched under another one (R243). `poison` lists the four-byte words that an uncorrected error has spoilt, each with the unit that holds it: by address, or by
scratch offset for an element (R392). -/
structure Mem where
  images  : Vector Image 8
  pending : List WriteEv
  home    : List (Nat × List Nat)
  dram    : Memory
  host    : Memory
  lines   : List CacheLine
  wbs     : List WriteBack
  evict   : List EvictSched
  hostHas : List Nat
  snoops  : List Nat
  held    : List HeldWrite
  rowKeys : List (Nat × Nat)
  sealed  : List (Nat × Nat × Nat)
  shown   : List (Nat × Nat × Nat)
  poison  : List (ErrUnit × Nat)
  deriving DecidableEq, Repr

/-! ### Translation -/

/-- A region-table entry in force (R223). -/
structure RegionEntry where
  index : Nat
  base  : Nat
  bytes : Nat
  state : BitVec 2
  task  : BitVec 24
  deriving DecidableEq, Repr

/-- A translation that a unit holds (R244): the page, its leaf, and the region-table entries alongside. -/
structure TlbEntry where
  asid    : BitVec 16
  va      : Nat
  size    : Nat
  leaf    : DWord
  keyLo   : Nat
  keyHi   : Nat
  regions : List RegionEntry
  deriving DecidableEq, Repr

/-- A unit that holds translations (R244). -/
inductive TlbUnit where
  | hem (die : Nat) (side : Side) (tile : Nat)
  | core (die core : Nat)
  | engine (die : Nat)
  deriving DecidableEq, Repr

/-- Who waits for a walk (R244): a strand at issue, an operation of a strand, a `pref` with its page's part of the range (R213),
a trigger context, an engine command, a region's loader, a record or a completion on its way to a queue of a context, or the
packets of a die. -/
inductive Waiter where
  | strand (n : Nat)
  | op (n ev : Nat)
  | pref (n : Nat) (user : Bool) (task : Option Nat) (va len : Nat)
  | elem (e : ElemId) (ctx : Nat)
  | cmd (id : Nat)
  | region (id : Nat)
  | queue (ctx : Nat)
  | task (no : Nat)
  | packets (die : Nat)
  deriving DecidableEq, Repr

/-- A translation that a walk returned to an access that waited for it (R244); with no entry, why: 0 absent, 1 malformed, 2 an
uncorrected error. -/
structure WalkResult where
  asid  : BitVec 16
  va    : Nat
  entry : Option TlbEntry
  why   : Nat
  deriving DecidableEq, Repr

/-- A walk in flight in a die's walk merger, or one that waits there, and those that wait for it, each with its unit (R244). -/
structure Walk where
  die     : Nat
  ctx     : Nat
  asid    : BitVec 16
  va      : Nat
  waiters : List (Waiter × TlbUnit)
  due     : Nat
  deriving DecidableEq, Repr

/-! ### Strands -/

/-- Strand states (R229). -/
inductive RunState where
  | running | idle | halted | frozen
  deriving DecidableEq, Repr

/-- A loop-stack entry (R206). -/
structure LoopEntry where
  count : BitVec 32
  start : DWord
  last  : DWord
  deriving DecidableEq, Repr

/-- Classes of outstanding operations (R189). -/
inductive OpClass where
  | ld | st | cp | tl | bk
  deriving DecidableEq, Repr

/-- States of a handle's command (R191). -/
inductive HandleState where
  | busy | done | fault
  deriving DecidableEq, Repr

/-- What an engine command does (R88). -/
inductive CmdKind where
  | copy (dst src len : Nat)
  | fill (dst len : Nat) (pat : DWord)
  | bankop (sub dst s1 s2 len : Nat)
  | rowcp (dst src len : Nat)
  | rowzero (dst len : Nat)
  | strm (wait : Bool) (block : Nat) (target : DWord)
  | cfgld (image : Nat) (load : DWord) (args : Nat)
  | gcall (entry : DWord) (args : Nat)
  | sweep (table : Nat) (port : DWord)
  | launch (rec : Nat) (prio : Nat)
  deriving DecidableEq, Repr

/-- A handle slot of a strand (R190, R347): its generation, the command and what it does, its class, state, fault code
and count. -/
structure Handle where
  slot  : Nat
  gen   : BitVec 16
  cmd   : Nat
  kind  : CmdKind
  cls   : OpClass
  st    : HandleState
  code  : Nat
  count : Nat
  deriving DecidableEq, Repr

/-- The attributes of a page that bear on an access (R240, R241, R243). -/
structure PageAttr where
  ms      : Bool
  sysatom : Bool
  key     : Nat
  deriving DecidableEq, Repr

/-- What an issued operation of a strand does when it performs (R83, R97). -/
inductive OpKind where
  | load (pa n : Nat) (sx nt : Bool) (page : PageAttr)
  | store (pa n : Nat) (v : DWord) (nt : Bool) (page : PageAttr)
  | atomic (aop : AOp) (pa n : Nat) (operand expect : DWord) (page : PageAttr)
  | value (v : DWord)
  | stop (cmd : Nat)
  | taskWord (cmd : Option Nat)
  | place (image : Nat) (request : DWord)
  | cmo (sub : Nat) (user : Bool) (va bytes : Nat)
  | phase (no : Nat)
  | evsch (no pa : Nat) (page : PageAttr)
  deriving DecidableEq, Repr

/-- An operation in a strand's issue list (R76): its event number, the register it writes, the events that have an
arc into it (R83), its scope, what it needs of the clocks (R91, R94), its time, and the value once it has performed.
`before` is the clock of the strand's die when the operation reached the head of the list, `stamp` the clock entry
that the die must reach before the operation's later events (R94). -/
structure Op where
  id     : Nat
  kind   : OpKind
  dst    : GReg
  cls    : OpClass
  deps   : List Nat
  scope  : Option Scope
  acq    : Bool
  vals   : Bool
  pc     : DWord
  va     : Nat
  due    : Nat
  before : Option Clock
  stamp  : Option Clock
  result : Option DWord
  deriving DecidableEq, Repr

/-- An asynchronous event pending for a strand (R197, R200). -/
structure AsyncEvent where
  code  : Nat
  info  : DWord
  klass : Option Nat
  deriving DecidableEq, Repr

/-- A range that an operand of an instruction in progress names: its virtual and physical address, its bytes, and its page. -/
structure Span where
  va   : Nat
  pa   : Nat
  n    : Nat
  page : PageAttr
  deriving DecidableEq, Repr

/-- An instruction in progress at issue: the event number from which it runs (R248), the clock of the die at its request (R91,
R94, R328), how far it is, and the ranges that its operands named at issue. -/
structure Progress where
  id    : Nat
  clock : Clock
  stage : Nat
  value : DWord
  spans : List Span
  deriving DecidableEq, Repr

/-- What a home controller's step answers to the party that asked (R325, R340): a value with the element's bytes and
the home clock that the party must cover when the step acquires, or a failure. -/
inductive Delivered where
  | value (v : DWord) (bytes : List Byte) (clock : Option Clock)
  | failed (code detail : Nat)
  deriving DecidableEq, Repr

/-- One sequencer strand (R185, R195): registers, control registers, loop stack, handles and issue state. `woken` says
that an operation of it has completed since it became IDLE (R230). -/
structure Strand where
  g        : Vector DWord 32
  pc       : DWord
  run      : RunState
  status   : DWord
  epc      : DWord
  ecause   : DWord
  eaddr    : DWord
  einfo    : DWord
  tvec     : DWord
  scratch  : DWord
  ctx      : BitVec 10
  asid     : BitVec 16
  prio     : BitVec 2
  faultq   : DWord
  probecyc : BitVec 32
  loops    : List LoopEntry
  writes   : List (GReg × DWord × Nat)
  ops      : List Op
  acqArcs  : List Nat
  handles  : List Handle
  readyAt  : Nat
  yieldTo  : Option (Nat × List Nat)
  progress : Option Progress
  got      : Option Delivered
  walked   : Option WalkResult
  atTvec   : Bool
  late     : Option (Nat × Nat × DWord)
  events   : List AsyncEvent
  arms     : List (Nat × DWord)
  worker   : Bool
  woken    : Bool
  killed   : Bool
  region   : Option Nat
  task     : Option Nat
  deriving DecidableEq, Repr

/-- A line of a core's data L1 cache (R319) or instruction L1 cache (R220), with the bytes it holds. -/
structure L1Line where
  pa   : Nat
  way  : Nat
  data : Data512
  deriving DecidableEq, Repr

/-- A sequencer core: the strand that issued last and its SW, one more than the cycle in which a strand of it last
issued, its L1 caches and replacement pointers. -/
structure Core where
  last   : Nat
  lastSw : Bool
  used   : Nat
  d1     : List L1Line
  i1     : List L1Line
  ptrs   : List (Nat × BitVec 2)
  deriving DecidableEq, Repr

/-- The sequencers, the translation caches, the walks, and the results of walks that those other than strands have waited for, with
the cycle in which each came. -/
structure Seqs where
  strands : List (Nat × Strand)
  cores   : List (Nat × Core)
  tlbs    : List (TlbUnit × TlbEntry)
  walks   : List Walk
  queued  : List Walk
  answers : List (Waiter × WalkResult × Nat)
  deriving DecidableEq, Repr

/-! ### The fabric -/

/-- A token (R99): data, tag and kind bit. -/
structure Token where
  data : Data256
  tag  : BitVec 3
  k    : Bool
  deriving DecidableEq, Repr

/-- A token in a queue and the cycle at the end of which it entered (R103). -/
structure Entry where
  tok : Token
  at_ : Nat
  deriving DecidableEq, Repr

/-- An entry of an output queue: reserved by a firing of a context, or filled (R101, R125). -/
inductive OutEntry where
  | reserved (ctx : Nat)
  | filled (e : Entry)
  deriving DecidableEq, Repr

/-- A token in a hop register, the source it came from (R108), and the command of the stream that put it on the fabric, or 0 (R214). -/
structure HopEntry where
  e    : Entry
  from_ : Nat
  cmd  : Nat
  deriving DecidableEq, Repr

/-- What keeps a fired instruction in flight (R94, R103, R144, R149, R163, R168, R170, R172). -/
inductive Waiting where
  | no
  | turn
  | fill
  | granule
  | port
  | delivery
  | nest
  | performed
  | permit
  | reply
  | stamp
  | latch
  | page
  | pieces (k : Nat)
  deriving DecidableEq, Repr

/-- A fired instruction (R103): its slot, when it completes, what it waits for, the operands it read, the lanes
that execute, the clock of its die at its firing (R94), and what it will write. -/
structure InFlight where
  instr : Instr
  slot  : Nat
  exec_ : BitVec 8
  due   : Nat
  wait  : Waiting
  a     : Data256
  b     : Data256
  regs  : List (XReg × Data256 × BitVec 8)
  preds : List (PReg × BitVec 8 × BitVec 8)
  o0    : Option Token
  o1    : Option Token
  id    : Nat
  clock : Clock
  fails : Option (Nat × Nat × Nat)
  deriving DecidableEq, Repr

/-- A trigger context of a T-element (R99 to R103): registers, predicates (bit l is lane l), the instruction in
flight, whether it can never fire again (R166, R174, R175), and the waiting counts of its queues (R390). -/
structure TCtx where
  x       : Vector Data256 16
  p       : Vector (BitVec 8) 8
  fly     : Option InFlight
  stopped : Bool
  waits   : List (Nat × Nat)
  deriving DecidableEq, Repr

/-- Fill rules of a site (R144). -/
inductive FillRule where
  | demand | stream | pinned | combine | none
  deriving DecidableEq, Repr

/-- Kinds of a site (R143). -/
inductive SiteKind where
  | load | store | loadStore | atomic
  deriving DecidableEq, Repr

/-- Lifetimes of a site buffer (R148). -/
inductive Life where
  | task | load | resident
  deriving DecidableEq, Repr

/-- A site binding (R142, R266). -/
structure Site where
  no     : SiteNo
  kind   : SiteKind
  fill   : FillRule
  life   : Life
  lb     : Nat
  rows   : Nat
  pitch  : Nat
  boff   : Nat
  blines : Nat
  group  : Nat
  chain  : Nat
  seq    : Nat
  pred   : Nat
  base   : Nat
  extent : Nat
  asid   : BitVec 16
  deriving DecidableEq, Repr

/-- A sector of a site buffer (R146, R147): the site whose buffer holds it, its line number and the window base that the
number counts from, the masks (`got` marks bytes that are there of words not yet valid), its bytes, its virtual address, the physical address that its first byte has in the page in
which its dirty bytes were checked (a sector may begin before that page), that page, the window's ASID, and how many frozen levels of the region lay below the level that holds it (R289). -/
structure SiteSector where
  site  : SiteNo
  line  : Nat
  base  : Nat
  valid : BitVec 16
  got   : BitVec 64
  dirty : BitVec 64
  data  : Data512
  va    : Nat
  pa    : Int
  page  : PageAttr
  asid  : BitVec 16
  lvl   : Nat
  deriving DecidableEq, Repr

/-- An update of a spread group on its way (R153): from a holder to the directory (stage 0) or from it to the other
holders (stage 1); with the firing, context and site that sent it and the chain whose turn it holds (0 none). -/
structure SpreadUpdate where
  id     : Nat
  region : Nat
  group  : Nat
  src    : ElemId
  ctx    : Nat
  site   : SiteNo
  chain  : Nat
  va     : Nat
  mask   : BitVec 64
  data   : Data512
  stage  : Nat
  toward : List ElemId
  due    : Nat
  deriving DecidableEq, Repr

/-- A loop generator (R167 to R169): its block and the state of its nest. -/
structure LoopGen where
  words : List Word
  base  : Word
  cnts  : List (BitVec 16)
  idx   : List Nat
  armed : Bool
  deriving DecidableEq, Repr

/-- What an M-element latched at its last reload (R32, R41, R111): the weight format and scale mode, and the bytes
of the weight block. -/
structure Weights where
  nw0   : Word
  block : List Byte
  deriving DecidableEq, Repr

/-- A weight reload in progress: the scratch offset it reads at, the bytes it has read, and, once they are all read, the
cycle in which it latches them (R111). -/
structure Reload where
  off   : Nat
  got   : List Byte
  ends  : Option Nat
  deriving DecidableEq, Repr

/-- The scale header an M-element has latched (R29): block length code and the four scale bytes. -/
structure Scales where
  blen : BitVec 4
  s    : List Byte
  deriving DecidableEq, Repr

/-- A row that fired: its 32 results and when they arrive at the seam or the sink (R116). -/
structure FiredRow where
  vals : List Int
  due  : Nat
  deriving DecidableEq, Repr

/-- The state of an M-element beside its node words (R111 to R116, R350). -/
structure MElem where
  weights : Option Weights
  reload  : Option Reload
  scales  : Option Scales
  part    : List Token
  rowq    : List (List Token × Option Scales)
  onI1    : Bool
  seam    : List FiredRow
  fired   : List FiredRow
  ringAt  : Nat
  cAt     : Nat
  lastRow : Nat
  rowsNow : Nat
  stopped : Bool
  deriving DecidableEq, Repr

/-- Element states (R119). -/
inductive ElemState where
  | unconfigured | configuring | blocked | running | frozen | fenced
  deriving DecidableEq, Repr

/-- Clock and power gating of an element's compute part (R118). -/
inductive Gate where
  | awake | clock | power | waking (until_ : Nat)
  deriving DecidableEq, Repr

/-- The part of an element's state that a plane holds (R288), but for the queues of the M-element. `freed` is one more
than the cycle in which the router last took the head of each output queue: its entry is free from the next cycle. -/
structure Plane4K where
  slots : List (Nat × Word × Word)
  sw    : Vector (BitVec 16) 2
  nw    : List (Nat × Word)
  ctxs  : Vector TCtx 4
  ins   : Vector (List Entry) 4
  land  : Vector (List Entry) 4
  outs  : Vector (List OutEntry) 2
  freed : Vector Nat 2
  hops  : Vector (Option HopEntry) 2
  turn  : Vector Nat 2
  arb   : Nat
  lgen  : Option LoopGen
  shape : List (Nat × BitVec 16)
  sites : List Site
  turns : List (Nat × SiteNo)
  mel   : MElem
  deriving DecidableEq, Repr

/-- A port operation that its context does not wait for (R163, R164): `eenq.t`, `edeq.t`, `ebar` or `ebar.na`. -/
inductive PostKind where
  | enq | deq | bar | barNa
  deriving DecidableEq, Repr

/-- A posted port operation on its way to its home slice, with the clock of its request (R94) and its element. -/
structure Posted where
  ctx   : Nat
  kind  : PostKind
  va    : Nat
  pa    : Nat
  page  : PageAttr
  data  : List Byte
  size  : Nat
  tag   : BitVec 3
  clock : Clock
  due   : Nat
  lvl   : Nat
  deriving DecidableEq, Repr

/-- An element (R12, R119): its state, region, active plane, site array, scratch array with its full bits, gating, the posted
operations of its ports, and the words of its scratch that an uncorrected error has spoilt (R392). -/
structure Elem where
  st      : ElemState
  region  : Option Nat
  pl      : Plane4K
  sectors : List SiteSector
  scr     : Memory
  full    : List Nat
  gate    : Gate
  idleFor : Nat
  posted  : List Posted
  spoilt  : List Nat
  deriving DecidableEq, Repr

/-- What a row-network packet delivers (R110). -/
inductive RowLoad where
  | queue (ch : Nat) (t : Token)
  | scratch (off : Nat) (t : Token)
  | site (no : SiteNo) (va : Nat) (bytes : List (Option Byte))
  | partial_ (owner : Nat) (toks : List Token)
  deriving DecidableEq, Repr

/-- A packet in the row network: its number, where it goes, its class (control or data), its source, what it carries, the event
that delivers it, the context it frees, the clock the die must cover first (R95, R384), and how many frozen levels lay
below the level it is for. -/
structure RowPacket where
  id      : Nat
  dst     : ElemId
  control : Bool
  src     : Nat
  load    : RowLoad
  due     : Nat
  by_     : Nat
  frees   : Option Nat
  clock   : Option Clock
  lvl     : Nat
  deriving DecidableEq, Repr

/-! ### Regions -/

/-- Region states (R274). -/
inductive RegionState where
  | free | reserved | checking | configuring | running | frozen | ended | held
  deriving DecidableEq, Repr

/-- One item that the configuration tree still has to write, with its place in the writing order of its element, or an element
to judge once all are written; then with the places of its words, by kind and index, and of its sites (R270). -/
inductive CfgItem where
  | word (e : ElemId) (pos kind index : Nat) (words : List Word)
  | site (e : ElemId) (pos : Nat) (s : Site)
  | judge (e : ElemId) (places : List (Nat × Nat × Nat))
  deriving DecidableEq, Repr

/-- A declared stream (R264). -/
structure StreamDecl where
  row   : Nat
  col   : Nat
  kind  : Nat
  ch    : Nat
  shape : BitVec 16
  deriving DecidableEq, Repr

/-- Why a level of a region is frozen (R286, R293). -/
inductive LevelKind where
  | call (f : Nat) (by_ : Option ElemId) (cmd : Option Nat)
  | preempt (task : Nat)
  | freeze
  deriving DecidableEq, Repr

/-- Where a frozen level lies (R290): pleat 1 or 2, or a frame in the hamper. -/
inductive LevelPlace where
  | pleat (n : Nat)
  | hamper (addr : Nat)
  deriving DecidableEq, Repr

/-- An element's saved plane, scratch and full bits (R288, R289), with the state it froze in. -/
structure Saved where
  e    : ElemId
  st   : ElemState
  pl   : Plane4K
  scr  : Memory
  full : List Nat
  deriving DecidableEq, Repr

/-- What a region runs: the image, the load, the argument block and what the image and its bind gave. -/
structure LoadInfo where
  image  : Nat
  load   : Nat
  args   : Nat
  argv   : List DWord
  trows  : Nat
  tcols  : Nat
  scrhw  : Nat
  retain : Bool
  calls  : List DWord
  decls  : List StreamDecl
  qports : List (Option Nat)
  bports : List (Option Nat)
  deriving DecidableEq, Repr

/-- A frozen level of a region (R288 to R291), with what its configuration still had to write. `failed` is a fault that ends
its task when it thaws (R389); `more` holds causes of its freeze that are met after its thaw (R292); `voids` the outputs that
have reported ROUTE_VOID in its load (R109); `saveBytes` and `frameLen` the scratch bytes S and the size of the frame it was spilt
into (R290, R291). -/
structure Level where
  kind   : LevelKind
  place  : LevelPlace
  info   : LoadInfo
  next   : Option LoadInfo
  items  : List CfgItem
  bad    : List (ElemId × Nat × Nat)
  more   : List LevelKind
  depth  : Nat
  cmd    : Option Nat
  saved  : List Saved
  ctx    : BitVec 10
  was    : RegionState
  failed : Option Nat
  voids  : List (ElemId × Plane × Nat)
  saveBytes : Nat
  frameLen : Nat
  deriving DecidableEq, Repr

/-- A freeze spreading over a region (R286): its causes and the cycle it was raised in. -/
structure Wave where
  causes : List LevelKind
  since  : Nat
  deriving DecidableEq, Repr

/-- A region (R271, R274). `bad` holds the illegal words: the element, the place in its writing order, and 4096 × kind + index
(R68). `ending` says that its load ends and no slot fires again (R175); `dropBy` that a `cfgdrop`
of a strand waits for it (R278); `failed` the first fault that ends its task (R389). -/
structure Region where
  id     : Nat
  die    : Nat
  trow   : Nat
  tcol   : Nat
  trows  : Nat
  tcols  : Nat
  st     : RegionState
  strand : Option Nat
  task   : Option Nat
  ctx    : BitVec 10
  asid   : BitVec 16
  byDisp : Bool
  info   : Option LoadInfo
  next   : Option LoadInfo
  cfgCmd : Option Nat
  items  : List CfgItem
  bad    : List (ElemId × Nat × Nat)
  probe  : Nat
  depth  : Nat
  levels : List Level
  wave   : Option Wave
  call   : Option (ElemId × Nat)
  seqCall : Option (Nat × Nat × Nat)
  ret    : Option (Option ElemId)
  ending : Bool
  dropBy : Option Nat
  failed : Option Nat
  voids  : List (ElemId × Plane × Nat)
  deriving DecidableEq, Repr

/-! ### Engines -/

/-- A stream parameter block taken up by a slot (R178), with its elements moved and in all, the gate tokens it holds, and
whether it runs in its slot. -/
structure StreamSt where
  slot   : HemSlot
  block  : List Word
  region : Nat
  level  : Nat
  at_    : Nat
  total  : Nat
  gates  : List Data256
  started : Bool
  paused : Bool
  deriving DecidableEq, Repr

/-- An engine command in flight (R88, R190): its strand and slot, whom it acts for, the events with an arc into its
issue, its progress in bytes, its translations at acceptance, the writes that must reach the strand's image (R89),
its end, and the unit that performs it: die × 64, plus the number of a memory-side unit. -/
structure Cmd where
  id     : Nat
  kind   : CmdKind
  strand : Nat
  slot   : Option Nat
  die    : Nat
  ctx    : BitVec 10
  asid   : BitVec 16
  user   : Bool
  task   : Option Nat
  deps   : List Nat
  due    : Nat
  at_    : Nat
  began  : Bool
  pages  : List TlbEntry
  writes : List Nat
  strm   : Option StreamSt
  ended  : Option Nat
  paused : Bool
  unit   : Nat
  count  : Nat
  deriving DecidableEq, Repr

/-- A page a sweep sends (R355, R357): its entry's fields and address, its snapshot once that is read (R360), whether its main page
has been sent, the queries it has been sent to, and its late subscribers (R362). -/
structure SweepPage where
  kaddr  : Nat
  vaddr  : Nat
  pindex : Nat
  ntok   : Nat
  subs   : Nat
  entry  : Nat
  snap   : Option (BitVec 160)
  sent   : Bool
  toward : List Nat
  late   : List Nat
  deriving DecidableEq, Repr

/-- A query of a sweep (R356, R361): its element, output, accumulator, the partials merged in ascending order and those that
wait for their turn (page index, m, l, o), the pages for which it holds a seam entry, the tokens of a partial that is
arriving from its element, and whether its output is written. -/
structure SweepQuery where
  q      : Nat
  e      : ElemId
  ctx    : Nat
  out    : Nat
  owner  : Nat
  m      : Word
  l      : Word
  o      : List Word
  merged : List (Nat × Word × Word × List Word)
  held   : List (Nat × Word × Word × List Word)
  granted : List Nat
  part   : List Token
  written : Bool
  deriving DecidableEq, Repr

/-- A sweep (R354 to R366): its command, die, region level, injecting port (hem tile and side), tokens per key, pages in
ascending PINDEX, queries, the tokens that wait at the port, whether the end header has been sent, whether it has ended,
how many outputs it has written, and whether it has the sweep units of its die (R365). -/
structure Sweep where
  cmd     : Nat
  die     : Nat
  region  : Nat
  level   : Nat
  port    : Nat × Side
  hdt     : Nat
  pages   : List SweepPage
  queries : List SweepQuery
  queue   : List Entry
  endSent : Bool
  ended   : Bool
  written : Nat
  on      : Bool
  deriving DecidableEq, Repr

/-- Tokens that stand in a hem stream slot (R105), and those that leave the fabric toward it. -/
structure SlotQueue where
  slot : HemSlot
  toks : List Entry
  deriving DecidableEq, Repr

/-- The engines and what the hem tiles hold. -/
structure Engs where
  cmds   : List Cmd
  slots  : List SlotQueue
  sweeps : List Sweep
  rotor  : List (Nat × Nat)
  deriving DecidableEq, Repr

/-! ### Queues and barriers -/

/-- A party parked at a home controller (R325, R340): the object, its side (producer, consumer or barrier), the size
and bytes of its element, the phase it waits past, the tag and the delivery it asked for, for a trigger context how
many frozen levels lay below its own, and the mark of its accesses (R253). -/
inductive ParkSide where
  | producer | consumer | barrier
  deriving DecidableEq, Repr

/-- An entry of a waiter list. -/
structure Parked where
  party : Party
  pa    : Nat
  side  : ParkSide
  size  : Nat
  data  : List Byte
  phase : Word
  tag   : BitVec 3
  value : DWord
  lvl   : Nat
  mark  : Mark
  deriving DecidableEq, Repr

/-- Who has arrived in the current phase of a barrier, each for the task it acted for, and what the phase is bound to (R338,
R339). -/
structure Phase where
  pa     : Nat
  kind   : Nat
  bound  : Option Nat
  who    : List (Party × Option Nat)
  deriving DecidableEq, Repr

/-- What the controller of a queue keeps of its block beside the counts of parties (R322): PRING, ENQS and DEQS. -/
structure QKept where
  pa    : Nat
  pring : Nat
  enqs  : Nat
  deqs  : Nat
  deriving DecidableEq, Repr

/-- The controllers of queues and barriers. -/
structure Ports where
  parked : List Parked
  kept   : List QKept
  phases : List Phase
  hostq  : List Nat
  msix   : List (BitVec 11)
  deriving DecidableEq, Repr

/-! ### Tasks -/

/-- Task states (R309, R314). -/
inductive TaskState where
  | waiting | ready | running | preempted | retiring | retired | failed
  deriving DecidableEq, Repr

/-- A task (R296 to R314): what its launch record gives, its ranges with writes marked, the tasks with an arc into it, the
task of its stream that it follows, its state with the cycle it entered it, whether it is in the ready pool and how often
it has aged there, since when it has waited for a region, its status, its launch, its strand, region and memory-side
command, the cycle of its binding, the region that it pre-empts, the receive slot of the packet that launched it, the handle that its
launch was given (R228), where its worker starts (R305); while it is bound and has not begun, its place in the pool with the stream
that its dispatcher had served before (R313); and the operations and commands that its end waits for (R302). -/
structure Task where
  no      : Nat
  die     : Nat
  kind    : Nat
  ctx     : BitVec 10
  asid    : BitVec 16
  image   : Nat
  args    : Nat
  src2    : Nat
  bop     : Nat
  count   : Nat
  prio    : Nat
  lq      : Nat
  overlap : Bool
  cq      : Nat
  handle  : DWord
  group   : Nat
  ranges  : List (Nat × Nat × Bool)
  arcs    : List Nat
  follows : Option Nat
  st      : TaskState
  since   : Nat
  pooled  : Bool
  aged    : Nat
  waitAt  : Option Nat
  status  : Nat
  launch  : Option Nat
  user    : Bool
  strand  : Option Nat
  region  : Option Nat
  bank    : Option Nat
  bound   : Nat
  above   : Option Nat
  packet  : Option (Nat × Nat)
  item    : DWord
  pc      : Nat
  place   : Option (Nat × Option Nat × BitVec 10 × Nat)
  opsDue  : List Nat
  cmdsDue : List Nat
  deriving DecidableEq, Repr

/-- Group states (R306). -/
inductive GroupState where
  | forming | pending | running | preempted
  deriving DecidableEq, Repr

/-- A group of tasks (R306). -/
structure Group where
  id      : Nat
  members : Nat
  ctx     : BitVec 10
  tasks   : List Nat
  st      : GroupState
  since   : Nat
  deriving DecidableEq, Repr

/-- The dispatcher of a die (R296, R304): its task counter, and the launch stream that it served last, with its context. -/
structure Dispatcher where
  die     : Nat
  counter : Nat
  last    : BitVec 10 × Nat
  deriving DecidableEq, Repr

/-- A pin break that is due (R303): the region, the level, the element and site, and the task it holds back. -/
structure PinBreakDue where
  region : Nat
  lvl    : Nat
  e      : ElemId
  site   : SiteNo
  task   : Nat
  deriving DecidableEq, Repr

/-- Tasks, groups, dispatchers, regions and the pin breaks that are due. -/
structure Tasks where
  tasks   : List Task
  groups  : List Group
  disps   : List Dispatcher
  regions : List Region
  breaks  : List PinBreakDue
  deriving DecidableEq, Repr

/-! ### Contexts, faults and packets -/

/-- A fault record (R228) on its way to a queue: the context, the die that sends it, its words, the clock of its die
(R93), and the command that it ends, or 0. -/
structure FaultRec where
  ctx   : BitVec 10
  die   : Nat
  asid  : BitVec 16
  words : List Word
  clock : Clock
  cmd   : Nat
  deriving DecidableEq, Repr

/-- A completion entry of a task that waits for its queue (R310). -/
structure Completion where
  task  : Nat
  cq    : Nat
  user  : Bool
  ctx   : BitVec 10
  asid  : BitVec 16
  die   : Nat
  bytes : List Byte
  clock : Clock
  deriving DecidableEq, Repr

/-- A master that `freeze` or a violation froze (R225, R226, R231): kind, die and WHO, or the command. -/
structure Frozen where
  ctx   : BitVec 10
  mkind : Nat
  die   : Nat
  who   : Nat
  deriving DecidableEq, Repr

/-- The contexts' part of the state: the rest of a context lies in memory (R221). -/
structure Ctxs where
  records  : List FaultRec
  posts    : List Completion
  frozen   : List Frozen
  frozenCtx : List Nat
  dying    : List Nat
  live     : List Nat
  keys     : List (Nat × Nat)
  deriving DecidableEq, Repr

/-- A route-class packet (R381 to R385): its class, the die it stands at and where it came from, the hops it has taken, its
source (die, kind, strand, context), its payload and the clock of its source. -/
structure Packet where
  klass   : Nat
  die     : Nat
  via     : Nat
  link    : Nat
  hops    : Nat
  srcDie  : Nat
  srcKind : Nat
  srcWho  : Nat
  ctx     : BitVec 10
  payload : List Byte
  clock   : Clock
  due     : Nat
  deriving DecidableEq, Repr

/-- A receive slot in use (R382): its number and address, the packet, whether its handler has started, or its event has been
taken, and the KIND of the handler with the packet that brings an element's token. -/
structure RecvSlot where
  die     : Nat
  klass   : Nat
  slot    : Nat
  addr    : Nat
  packet  : Packet
  started : Bool
  taken   : Bool
  kind    : Nat
  token   : Nat
  deriving DecidableEq, Repr

/-- The route-class routers (R381, R386): the entries that each die's routers hold, the masks, the outbound queues, packets
between dies, packets on stitch links (with their flit's sequence number once it is sent), receive slots, and what has left
the module, by link. -/
structure Routes where
  held   : List (Nat × Nat × DWord × DWord)
  masks  : List (Nat × BitVec 16)
  out    : List Packet
  moving : List Packet
  sent   : List (Nat × Option Nat × Packet)
  slots  : List RecvSlot
  beyond : List (Nat × Packet)
  deriving DecidableEq, Repr

/-! ### Links, soft errors, probes and the steward -/

/-- Link states (R377), coded as R380 reads them. -/
inductive LinkSt where
  | down | training | up | degraded | retraining | fenced | failed
  deriving DecidableEq, Repr

/-- A link (R375 to R380): state, width, flits replayed, training failures in a row; of its sender the next sequence number, the
flits not yet acknowledged, the flit last replayed with its replays in a row, and the credits; of its receiver the flit it
expects and whether it has asked for a replay. -/
structure Link where
  no      : Nat
  st      : LinkSt
  width   : BitVec 8
  replays : BitVec 32
  fails   : Nat
  nextSeq : Nat
  held    : List Nat
  again   : Nat × Nat
  credits : Nat
  expect  : Nat
  asked   : Bool
  deriving DecidableEq, Repr

/-- A darning probe on its way (R390, R391): its origin, the waiting element and queue it stands at, and the elements it has
passed, each with its queue and the cycle. -/
structure Probe where
  e      : ElemId
  ctx    : Nat
  queue  : Nat
  at_    : ElemId × Nat
  path   : List (ElemId × Nat × Nat)
  due    : Nat
  deriving DecidableEq, Repr

/-- A wring test pending or running (R393): the unit and the addresses of the errors that share it. -/
structure Wring where
  unit    : ErrUnit
  addrs   : List Nat
  running : Bool
  deriving DecidableEq, Repr

/-- MODE of START (R398). -/
inductive Mode where
  | starting | running | minimal
  deriving DecidableEq, Repr

/-- The steward, the host's registers and the host's side (R380, R395 to R400). -/
structure Mgmt where
  mode     : Mode
  reason   : BitVec 8
  diesUp   : BitVec 8
  fails    : Nat
  floor    : Nat
  ctxtab   : DWord
  rcbase   : DWord
  fencedT  : List ElemId
  fencedB  : List (Nat × Nat × Nat)
  dead     : List ErrUnit
  log      : List (List Word)
  lost     : Nat
  logRead  : List (List Word)
  session  : Bool
  replies  : List (List Word)
  hostRd   : List (Nat × DWord)
  deriving DecidableEq, Repr

/-- Links, probes, wring tests and the steward. -/
structure Outer where
  links  : List Link
  probes : List Probe
  wrings : List Wring
  mgmt   : Mgmt
  deriving DecidableEq, Repr

/-! ### The machine -/

/-- Who acts for the instruction that `exec` runs: a strand and its word, or an element, context and slot. -/
structure Focus where
  strand : Nat
  word   : Word
  elem   : ElemId
  ctx    : Nat
  slot   : Nat
  lanes  : BitVec 8
  deriving DecidableEq, Repr

/-- A turn (log 1): a strand may issue if its core has not issued in this cycle, an element's arbiter picks, or an
internal event of the table takes its step. The events have the operands of their rows in `Instr`. -/
inductive Turn where
  | strand (n : Nat)
  | element (e : ElemId)
  | queueOpCancel (p : Party)
  | firingComplete (e : ElemId) (ctx : Nat)
  | siteFillArrival (e : ElemId) (ctx : Nat)
  | chainTurn (e : ElemId) (ctx : Nat)
  | directoryForward (region : Nat)
  | spreadUpdateApply (region : Nat)
  | routerForward (buf : BufId)
  | rowPacketDelivery (die idx : Nat)
  | elementClockGate (e : ElemId)
  | elementPowerGate (e : ElemId)
  | elementWake (e : ElemId)
  | weightLatch (e : ElemId)
  | rowAssembly (e : ElemId)
  | mrowFire (e : ElemId)
  | mrowOutput (e : ElemId)
  | configWordWrite (region : Nat)
  | configEnd (region : Nat)
  | bindCheck (region : Nat)
  | placerServe (die : Nat)
  | loadEnd (region : Nat)
  | streamTokenTransfer (cmd : Nat)
  | copySector (cmd : Nat)
  | bankSector (cmd : Nat)
  | rowTransfer (cmd : Nat)
  | writebackAccept (die pa : Nat)
  | orderReadPerform (strand ev : Nat)
  | orderWritePerform (strand ev : Nat)
  | orderApplyPending (die src : Nat)
  | loadComplete (strand ev : Nat)
  | walkComplete (die idx : Nat)
  | shootdownAck (strand : Nat)
  | handleComplete (cmd : Nat)
  | idleWake (strand : Nat)
  | yieldTimeout (strand : Nat)
  | faultRecordPost (ctx : Nat)
  | contextRetire (ctx : Nat)
  | freezeWave (region : Nat)
  | freezePoint (region : Nat)
  | calleeBind (region : Nat)
  | gridReturn (region : Nat)
  | pleatSpill (region : Nat)
  | pleatRefill (region : Nat)
  | launchAdmit (die : Nat)
  | pinBreak (region : Nat)
  | taskReady (task : Nat)
  | agingTick (task : Nat)
  | taskBind (die : Nat)
  | groupBind (group : Nat)
  | preemptTimeout (task : Nat)
  | taskFaultEnd (region : Nat)
  | retireComplete (task : Nat)
  | eenqStatusDelivery (e : ElemId)
  | edeqDelivery (e : ElemId)
  | barReleaseToken (e : ElemId)
  | pageSend (die unit : Nat)
  | partialArrival (die idx : Nat)
  | catchupFetch (die unit : Nat)
  | endHeaderSend (die : Nat)
  | packetArrival (die : Nat)
  | probeSend (e : ElemId) (ctx queue : Nat)
  | probeReturn (idx : Nat)
  | wringTest (idx : Nat)
  | startRunning
  deriving DecidableEq, Repr

/-- The fabric of the dies. `holders` is what the directories of spread groups record (R153): a level of a region
(`Region.key`), the group, the sector's virtual address, and its holders. -/
structure Fabric where
  elems   : List (ElemId × Elem)
  packets : List RowPacket
  updates : List SpreadUpdate
  holders : List (Nat × Nat × Nat × List ElemId)
  deriving DecidableEq, Repr

/-- The state of the machine. `serial` numbers events (log 2); `agenda` holds the turns left in the cycle and `inputs` the
events from outside that are to come (log 1). -/
structure State where
  cycle  : Nat
  serial : Nat
  agenda : List Turn
  inputs : List Instr
  focus  : Focus
  mem    : Mem
  seqs   : Seqs
  fab    : Fabric
  engs   : Engs
  ports  : Ports
  tasks  : Tasks
  ctxs   : Ctxs
  routes : Routes
  outer  : Outer
  deriving DecidableEq, Repr

/-! ### Reset -/

/-- A clock of zeros. -/
def Clock.zero : Clock := Vector.replicate 8 0

/-- An image at reset: nothing listed, nothing written. -/
def Image.reset : Image := { mem := [], tags := [], clock := Clock.zero }

/-- A strand at reset (R194, R195, R347). CTX, ASID and PC have no reset value in the spec (log 9); no rule starts a
strand, so none runs (log 10). -/
def Strand.reset : Strand :=
  { g := Vector.replicate 32 0, pc := 0, run := .halted, status := 0x80, epc := 0, ecause := 0, eaddr := 0,
    einfo := 0, tvec := 0, scratch := 0, ctx := 0, asid := 0, prio := 0, faultq := 0, probecyc := 65536,
    loops := [], writes := [], ops := [], acqArcs := [], handles := [], readyAt := 0, yieldTo := none,
    progress := none, got := none, walked := none, atTvec := false, late := none, events := [], arms := [],
    worker := false, woken := false, killed := false, region := none, task := none }

/-- A core at reset (R319). -/
def Core.reset : Core := { last := 3, lastSw := true, used := 0, d1 := [], i1 := [], ptrs := [] }

/-- A trigger context at reset: registers and predicates zero (R119). -/
def TCtx.reset : TCtx :=
  { x := Vector.replicate 16 0, p := Vector.replicate 8 0, fly := none, stopped := false, waits := [] }

/-- An M-element's stream state at reset (R111, R275). -/
def MElem.reset : MElem :=
  { weights := none, reload := none, scales := none, part := [], rowq := [], onI1 := false, seam := [], fired := [],
    ringAt := 0, cAt := 0, lastRow := 0, rowsNow := 0, stopped := false }

/-- A plane that nothing has configured: all-zero slots, switch words and node words (R120). -/
def Plane4K.reset : Plane4K :=
  { slots := [], sw := Vector.replicate 2 0, nw := [], ctxs := Vector.replicate 4 TCtx.reset,
    ins := Vector.replicate 4 [], land := Vector.replicate 4 [], outs := Vector.replicate 2 [], freed := Vector.replicate 2 0,
    hops := Vector.replicate 2 none, turn := Vector.replicate 2 0, arb := 0, lgen := none, shape := [], sites := [],
    turns := [], mel := MElem.reset }

/-- An element at reset: UNCONFIGURED and power-gated (R118, R119); scratch and full bits zero (log 8). -/
def Elem.reset : Elem :=
  { st := .unconfigured, region := none, pl := Plane4K.reset, sectors := [], scr := [], full := [], gate := .power,
    idleFor := 0, posted := [], spoilt := [] }

/-- A link at reset (R380): DOWN; WIDTH has no reset value in the spec (log 9). -/
def Link.reset (n : Nat) : Link :=
  { no := n, st := .down, width := 0, replays := 0, fails := 0, nextSeq := 0, held := [], again := (0, 0), credits := 0,
    expect := 0, asked := false }

/-- The dispatcher of a die at reset. -/
def Dispatcher.reset (d : Nat) : Dispatcher := { die := d, counter := 0, last := (0, 0) }

/-- The steward at reset (R398): starting; FAILS has no reset value in the spec (log 9). -/
def Mgmt.reset : Mgmt :=
  { mode := .starting, reason := 0, diesUp := 0, fails := 0, floor := 0, ctxtab := 0, rcbase := 0, fencedT := [],
    fencedB := [], dead := [], log := [], lost := 0, logRead := [], session := false, replies := [],
    hostRd := [] }

/-- The focus before anything has run. -/
def Focus.reset : Focus := { strand := 0, word := 0, elem := ⟨0, 0, 0⟩, ctx := 0, slot := 0, lanes := 0 }

/-- The machine right after reset: MODE starting, every link DOWN, nothing mapped, nothing runs (R395, R398). -/
def State.reset : State :=
  { cycle := 0, serial := 1, agenda := [], inputs := [], focus := Focus.reset,
    mem := { images := Vector.replicate 8 Image.reset, pending := [], home := [], dram := [], host := [], lines := [],
             wbs := [], evict := [], hostHas := [], snoops := [], held := [], rowKeys := [], sealed := [], shown := [], poison := [] },
    seqs := { strands := [], cores := [], tlbs := [], walks := [], queued := [], answers := [] },
    fab := { elems := [], packets := [], updates := [], holders := [] },
    engs := { cmds := [], slots := [], sweeps := [], rotor := [] },
    ports := { parked := [], kept := [], phases := [], hostq := [], msix := [] },
    tasks := { tasks := [], groups := [], disps := [], regions := [], breaks := [] },
    ctxs := { records := [], posts := [], frozen := [], frozenCtx := [], dying := [], live := [], keys := [] },
    routes := { held := [], masks := [], out := [], moving := [], sent := [], slots := [], beyond := [] },
    outer := { links := [], probes := [], wrings := [], mgmt := Mgmt.reset } }

end Sys2Proof.Machine
end

