-- ==== Sys2Proof/Machine/Flags.lean ====
section
/-! DEFINITION. The predicate updates of element instructions (03_encodings.md R63, 06_element_compute.md R123) and
their carries (R128, R133); lanes of tokens (R4). Sequencer instructions have no flags (R202). -/

namespace Sys2Proof.Machine

/-- Lane l of a token's data (R4). -/
def laneOf (v : Data256) (l : Nat) : Word := v.extractLsb' (32 * l) 32

/-- The data whose lane l is f l (R4). -/
def lanes (f : Nat → Word) : Data256 := f 7 ++ f 6 ++ f 5 ++ f 4 ++ f 3 ++ f 2 ++ f 1 ++ f 0

/-- Eight lane bits from a predicate. -/
def laneBits (f : Nat → Bool) : BitVec 8 :=
  BitVec.ofBoolListLE [f 0, f 1, f 2, f 3, f 4, f 5, f 6, f 7]

/-- The data of a lane in the lanes of a mask, the old data elsewhere. -/
def mergeLanes (mask : BitVec 8) (new old : Data256) : Data256 :=
  lanes fun l => if mask.getLsbD l then laneOf new l else laneOf old l

/-- The data of a token: zero in lanes that do not execute (R103). -/
def maskLanes (mask : BitVec 8) (v : Data256) : Data256 :=
  lanes fun l => if mask.getLsbD l then laneOf v l else 0

/-- The value that PM writes into the predicate of each lane (R123); `none` for PM = 0. -/
def predValue (pm : PUpd) (r : Data256) (c : BitVec 8) : Option (BitVec 8) :=
  match pm with
  | .none => none
  | .nz => some (laneBits fun l => laneOf r l != 0)
  | .neg => some (laneBits fun l => (laneOf r l).getLsbD 31)
  | .cu => some c

/-- The predicate writes of a firing: predicate, value, lanes. -/
def predWrites (pd : PReg) (pm : PUpd) (r : Data256) (c exec_ : BitVec 8) : List (PReg × BitVec 8 × BitVec 8) :=
  match predValue pm r c with
  | none => []
  | some v => [(pd, v, exec_)]

/-- Carry of `iadd`: za + zb ≥ 2^32 (R128). -/
def carryAdd (a b : Word) : Bool := decide (2 ^ 32 ≤ a.toNat + b.toNat)
/-- Borrow of `isub`: za < zb (R128). -/
def borrowSub (a b : Word) : Bool := decide (a.toNat < b.toNat)
/-- Whether an exact value was clamped by sat_s (R128). -/
def clamped (v : Int) : Bool := decide (v < -(2 ^ 31)) || decide (2 ^ 31 ≤ v)
/-- sat_s(v, 32) (R7). -/
def satS32 (v : Int) : Word := BitVec.ofInt 32 (max (-(2 ^ 31)) (min (2 ^ 31 - 1) v))
/-- The unordered flag of `fcmp` (R133). -/
def unordered (a b : Word) : Bool := isNanF32 a || isNanF32 b

end Sys2Proof.Machine
end

