-- ==== Sys2Proof/Machine/Memory.lean ====
section
/-! DEFINITION. Memory as cells in canonical form, the physical map (10_pages.md R234), the images and the steps of
the ordering machine (04_ordering.md R76 to R82, R407), and the caches between the images and DRAM (R250 to R254). -/

namespace Sys2Proof.Machine

/-! ### Cells -/

/-- What an unlisted address reads as (log 8). -/
def blank : Byte := 0

/-- One byte of memory. -/
def memRead : Memory → Nat → Byte
  | [], _ => blank
  | (k, v) :: t, a => if a < k then blank else if a = k then v else memRead t a

/-- Memory with one byte written, in canonical form. -/
def memWrite : Memory → Nat → Byte → Memory
  | [], a, v => if v = blank then [] else [(a, v)]
  | (k, w) :: t, a, v =>
    if a < k then (if v = blank then (k, w) :: t else (a, v) :: (k, w) :: t)
    else if a = k then (if v = blank then t else (a, v) :: t)
    else (k, w) :: memWrite t a v

/-- The canonical form from a least address on: rising addresses, no blank entry. -/
def memWfFrom : Nat → Memory → Bool
  | _, [] => true
  | lo, (k, v) :: t => decide (lo ≤ k) && decide (v ≠ blank) && memWfFrom (k + 1) t

/-- The canonical form. -/
def Memory.wf (m : Memory) : Bool := memWfFrom 0 m

/-- n bytes from an address. -/
def readN (m : Memory) (a : Nat) : Nat → List Byte
  | 0 => []
  | n + 1 => memRead m a :: readN m (a + 1) n

/-- Bytes written from an address on; `none` leaves its byte (a byte mask, R97). -/
def writeOpt (m : Memory) (a : Nat) : List (Option Byte) → Memory
  | [] => m
  | none :: t => writeOpt m (a + 1) t
  | some b :: t => writeOpt (memWrite m a b) (a + 1) t

/-- Bytes written from an address on. -/
def writeN (m : Memory) (a : Nat) (bs : List Byte) : Memory := writeOpt m a (bs.map some)

/-- The little-endian value of bytes (R4). -/
def leNat : List Byte → Nat
  | [] => 0
  | b :: t => b.toNat + 256 * leNat t

/-- The n little-endian bytes of a value (R4). -/
def toBytes : Nat → Nat → List Byte
  | 0, _ => []
  | n + 1, v => BitVec.ofNat 8 v :: toBytes n (v / 256)

/-- The value of n bytes at an address. -/
def readVal (m : Memory) (a n : Nat) : Nat := leNat (readN m a n)

/-- A sorted table from addresses to numbers, for the write that last set a byte. Unlisted: 0. -/
def tagRead : List (Nat × Nat) → Nat → Nat
  | [], _ => 0
  | (k, v) :: t, a => if a < k then 0 else if a = k then v else tagRead t a

/-- The table with one entry set. -/
def tagWrite : List (Nat × Nat) → Nat → Nat → List (Nat × Nat)
  | [], a, v => [(a, v)]
  | (k, w) :: t, a, v =>
    if a < k then (a, v) :: (k, w) :: t else if a = k then (a, v) :: t else (k, w) :: tagWrite t a v

/-- Tags of written bytes. -/
def tagOpt (m : List (Nat × Nat)) (a id : Nat) : List (Option Byte) → List (Nat × Nat)
  | [] => m
  | none :: t => tagOpt m (a + 1) id t
  | some _ :: t => tagOpt (tagWrite m a id) (a + 1) id t

/-! ### The physical map (R234) -/

/-- Where a device address lies: its home die, its die offset, and whether the view is channel-linear. -/
structure PaInfo where
  die    : Nat
  off    : Nat
  linear : Bool
  deriving DecidableEq, Repr

/-- The window of a physical address below bit 51 and its populated bytes (R234); `none` elsewhere. -/
def paInfo (pa : Nat) : Option PaInfo :=
  if pa < 2 ^ 42 then
    let d := pa >>> 39
    let o := pa % 2 ^ 39
    if o < 2 ^ 38 then (if o < Config.dieBytes then some ⟨d, o, false⟩ else none)
    else
      let b := o % 2 ^ 32
      if b >>> 21 < 1430 && (b >>> 11) % 1024 != 0 then some ⟨d, o, true⟩ else none
  else if pa < 2 ^ 43 then
    let o := pa % 2 ^ 42
    let g := o >>> 12
    let off := ((g / 8) <<< 12) + o % 4096
    if off < Config.dieBytes then some ⟨g % 8, off, false⟩ else none
  else none

/-- Whether an address is host memory (R234). -/
def isHostPa (pa : Nat) : Bool := decide (2 ^ 51 ≤ pa)

/-- The home die of a byte of device memory (R76); 0 for an address that no die homes. -/
def homeDie (pa : Nat) : Nat := ((paInfo pa).map PaInfo.die).getD 0

/-- The home slice of a byte on its home die (R234). -/
def homeSlice (pa : Nat) : Nat :=
  match paInfo pa with
  | some i => ((i.off >>> 8) % 64) ^^^ ((i.off >>> 14) % 64)
  | none => 0

/-- The DRAM byte under a device address: (die × 64 + channel) × 2^32 + channel byte, reserved rows counted (R234). -/
def dramKey (pa : Nat) : Option Nat :=
  (paInfo pa).map fun i =>
    if i.linear then (i.die * 64 + (i.off >>> 32) % 64) * 2 ^ 32 + i.off % 2 ^ 32
    else
      let l := i.off >>> 8
      let b := ((l / 64) <<< 8) + i.off % 256
      let r := b >>> 11
      (i.die * 64 + l % 64) * 2 ^ 32 + (r / 1023) * 2 ^ 21 + (r % 1023 + 1) * 2 ^ 11 + b % 2048

/-- The device addresses of a DRAM byte: channel-linear, interleaved and package views (R234). -/
def viewsOf (key : Nat) : List Nat :=
  let u := key >>> 32
  let d := u / 64
  let ch := u % 64
  let b := key % 2 ^ 32
  let r := (b >>> 21) * 1023 + ((b >>> 11) % 1024 - 1)
  let lin := r * 2048 + b % 2048
  let off := ((lin >>> 8) * 64 + ch) * 256 + lin % 256
  [d * 2 ^ 39 + 2 ^ 38 + ch * 2 ^ 32 + b, d * 2 ^ 39 + off,
   2 ^ 42 + ((off >>> 12) * 8 + d) * 4096 + off % 4096]

/-- The memory-side unit of a device address: die × 64 + unit (R19). -/
def msuOf (pa : Nat) : Nat := ((dramKey pa).map (· >>> 32)).getD 0

/-! ### Images -/

/-- The image of a die. -/
def State.image (s : State) (d : Nat) : Image := s.mem.images[d % 8]'(Nat.mod_lt _ (by decide))

/-- The state with a die's image replaced. -/
def State.setImage (s : State) (d : Nat) (im : Image) : State :=
  { s with mem := { s.mem with images := s.mem.images.set (d % 8) im (Nat.mod_lt _ (by decide)) } }

/-- An entry of a clock. -/
def Clock.at (k : Clock) (d : Nat) : BitVec 32 := k[d % 8]'(Nat.mod_lt _ (by decide))

/-- A clock with an entry set. -/
def Clock.put (c : Clock) (d : Nat) (n : BitVec 32) : Clock := c.set (d % 8) n (Nat.mod_lt _ (by decide))

/-- Whether a clock entry is at least another: entries wrap modulo 2^32 and are compared within a window of 2^31 (R81). -/
def reaches (a b : BitVec 32) : Bool := decide ((a - b).toNat < 2 ^ 31)

/-- Whether every entry of the first clock is at least that of the second. -/
def Clock.covers (c b : Clock) : Bool := (List.range 8).all fun e => reaches (c.at e) (b.at e)

/-- The clock of a die. -/
def State.clock (s : State) (d : Nat) : Clock := (s.image d).clock

/-- One byte as a die sees it: host memory is one image (R96). -/
def State.byteAt (s : State) (d pa : Nat) : Byte :=
  if isHostPa pa then memRead s.mem.host pa else memRead (s.image d).mem pa

/-- n bytes as a die sees them. -/
def State.bytesAt (s : State) (d pa n : Nat) : List Byte :=
  if isHostPa pa then readN s.mem.host pa n else readN (s.image d).mem pa n

/-- The value of n bytes as a die sees them. -/
def State.valAt (s : State) (d pa n : Nat) : Nat := leNat (s.bytesAt d pa n)

/-- The state with its memory changed. -/
def State.modMem (s : State) (f : Mem → Mem) : State := { s with mem := f s.mem }

/-! ### Sequencer L1 caches (R220, R319) -/

/-- The bytes of the 64-byte line that holds a byte, as a die sees them. -/
def State.lineData (s : State) (d pa : Nat) : Data512 := BitVec.ofNat 512 (s.valAt d (pa / 64 * 64) 64)

/-- A list in order with one more element: before the first that may not stand before it. -/
def placeBy {α : Type} (le : α → α → Bool) (x : α) : List α → List α
  | [] => [x]
  | y :: t => if le x y then x :: y :: t else y :: placeBy le x t

/-- A list in an order; elements that the order holds equal keep their places. -/
def sortBy {α : Type} (le : α → α → Bool) : List α → List α
  | [] => []
  | x :: t => placeBy le x (sortBy le t)

/-- A table of a core, by number die × 16 + core; a core not listed is as reset. -/
def lookupD {α : Type} (l : List (Nat × α)) (k : Nat) (d : α) : α :=
  match l with
  | [] => d
  | (j, v) :: t => if j = k then v else lookupD t k d

/-- The table with an entry set. -/
def insertD {α : Type} (l : List (Nat × α)) (k : Nat) (v : α) : List (Nat × α) :=
  match l with
  | [] => [(k, v)]
  | (j, w) :: t => if j = k then (k, v) :: t else if k < j then (k, v) :: (j, w) :: t else (j, w) :: insertD t k v

/-- A core (die × 16 + number). -/
def State.core (s : State) (c : Nat) : Core := lookupD s.seqs.cores c Core.reset

/-- The state with a core replaced. -/
def State.setCore (s : State) (c : Nat) (k : Core) : State :=
  { s with seqs := { s.seqs with cores := insertD s.seqs.cores c k } }

/-- Whether two byte ranges share a byte. -/
def overlaps (a n b m : Nat) : Bool := decide (a < b + m) && decide (b < a + n) && n != 0 && m != 0

/-- Lines of one die's data L1 caches dropped under a predicate on their addresses (R319); with `code`, of its
instruction L1 caches too (R220). -/
def State.dropL1 (s : State) (d : Nat) (p : Nat → Bool) (code : Bool) : State :=
  { s with seqs := { s.seqs with cores := s.seqs.cores.map fun (c, k) =>
      if c / 16 = d then (c, { k with d1 := k.d1.filter (fun l => !p l.pa),
                                      i1 := if code then k.i1.filter (fun l => !p l.pa) else k.i1 })
      else (c, k) } }

/-- Set number of a data L1 line (R319). -/
def l1Set (pa : Nat) : Nat := (pa >>> 6) % 256

/-- A line allocated in a core's data L1 cache: the lowest invalid way, else the way of the replacement pointer, which
then advances (R319). -/
def Core.allocD1 (k : Core) (pa : Nat) (data : Data512) : Core :=
  let set := l1Set pa
  let used := k.d1.filter fun l => l1Set l.pa = set
  match (List.range 4).find? (fun w => !(used.any fun l => l.way = w)) with
  | some w => { k with d1 := k.d1 ++ [⟨pa / 64 * 64, w, data⟩] }
  | none =>
    let p := lookupD k.ptrs set 0
    { k with d1 := (k.d1.filter fun l => !(l1Set l.pa = set && l.way = p.toNat)) ++ [⟨pa / 64 * 64, p.toNat, data⟩],
             ptrs := insertD k.ptrs set (p + 1) }

/-- A 64-byte line with n bytes at offset o replaced by those of a value. -/
def putInLine (l : Data512) (o n v : Nat) : Data512 :=
  let mask : Data512 := BitVec.ofNat 512 ((2 ^ (8 * n) - 1) <<< (8 * o))
  (l &&& ~~~mask) ||| (BitVec.ofNat 512 (v <<< (8 * o)) &&& mask)

/-- A core's data L1 lines after one of its strands' stores has performed: a line that is present is updated (R319). -/
def Core.storeD1 (k : Core) (pa n v : Nat) : Core :=
  { k with d1 := k.d1.map fun l => if l.pa = pa / 64 * 64 then { l with data := putInLine l.data (pa % 64) n v } else l }

/-! ### Slices and gateway caches (R250 to R254) -/

/-- The schedule of a die. -/
def State.evict (s : State) (d n : Nat) : EvictSched :=
  (s.mem.evict.find? fun e => e.die = d && e.no = n).getD ⟨d, n, [], 0⟩

/-- The key slot of a page with the number of the key loaded in it (R243). -/
def State.keyIn (s : State) (slot : Nat) : Option (Nat × Nat) := s.ctxs.keys.find? fun k => k.1 = slot

/-- The mark of an access of a context with a stream id through a page; `nt` records class 0 (R253, R209). -/
def State.mark (s : State) (ctx : BitVec 10) (stream : Nat) (nt : Bool) (page : PageAttr) : Mark :=
  ⟨ctx.toNat % 64, stream, nt, page.ms, s.keyIn page.key⟩

/-- The mark of an access that no context makes: class 0 with REL = 0 (log 81). -/
def Mark.plain : Mark := ⟨0, 63, true, false, none⟩

/-- CLASS, REL and RPHASE that an access records on a die: those of its schedule's word there (R253). -/
def State.classOf (s : State) (d : Nat) (m : Mark) : BitVec 2 × Bool × BitVec 8 :=
  let w := (s.evict d m.sched).table[m.stream]?.getD 0
  if m.nt then (0, false, 0) else (w.extractLsb' 0 2, w.getLsbD 2, w.extractLsb' 8 8)

/-- Effective class of a line (R254). -/
def State.effClass (s : State) (l : CacheLine) : Nat :=
  if l.rel && decide (((s.evict l.die l.sched).phase - l.rphase).toNat < 128) then 0 else l.cls.toNat

/-- The write-backs of a slice line: its WMASK words, with the bytes of the home image (R250). -/
def State.writeBacksOf (s : State) (l : CacheLine) : List WriteBack :=
  if l.unit ≥ 64 then []
  else (List.range 4).filterMap fun k =>
    let w := l.wmask.extractLsb' (16 * k) 16
    if w = 0 then none
    else
      let mask := BitVec.ofNat 64 ((List.range 16).foldl (fun a j => if w.getLsbD j then a + 0xF * 16 ^ j else a) 0)
      some ⟨l.die, l.line + 64 * k, mask, s.lineData l.die (l.line + 64 * k), l.key⟩

/-- The caches of a die that may hold a line: its slice at home, else the gateway cache of its port (R15, R16). -/
def cacheUnit (d pa : Nat) : Nat :=
  if homeDie pa = d then homeSlice pa else 64 + (homeDie pa + 8 - d - 1) % 8

/-- The line of a unit, if held. -/
def State.findLine (s : State) (d pa : Nat) : Option CacheLine :=
  s.mem.lines.find? fun l => l.die = d && l.line = pa / 256 * 256 && l.unit = cacheUnit d pa

/-- Whether a slice bank (4 of 16 ways) of a slice is withdrawn (R394). -/
def State.wayOut (s : State) (d unit way : Nat) : Bool :=
  decide (unit < 64) && (s.outer.mgmt.fencedB.any (fun b => b = (d, unit, way / 4)) ||
    s.outer.wrings.any fun w => w.running && w.unit = .sliceBank d unit (way / 4))

/-- The ways of a set of a gateway cache: at least one, at most all its lines. -/
def gatewayWays : Nat := max 1 (min Config.gatewayLines Config.gatewayWays)

/-- The ways of a unit's set. -/
def waysOf (unit : Nat) : Nat := if unit < 64 then 16 else gatewayWays

/-- The set of a line in a unit: 1,024 sets of a slice (R15); of a gateway cache as many as its 8 MiB hold (R11). -/
def setOf (unit line : Nat) : Nat :=
  if unit < 64 then Config.sliceSet line % 1024 else Config.gatewaySet line % (Config.gatewayLines / gatewayWays)

/-- Whether a unit takes no lines: a gateway cache that its wring test bypasses, or that a test has fenced (R393, R394). -/
def State.bypassed (s : State) (d unit : Nat) : Bool :=
  decide (64 ≤ unit) && ((s.outer.wrings.any fun w => w.running && w.unit = .gateway d (unit - 64)) ||
    s.outer.mgmt.dead.contains (.gateway d (unit - 64)))

/-- The way that a new line takes, with the line that leaves it: an invalid way if there is one, else the lowest-numbered way of
lowest effective class (R254). A bank that is tested or fenced takes no line (R393, R394). -/
def State.victim (s : State) (d unit line : Nat) : Option (Nat × Option CacheLine) :=
  let same := s.mem.lines.filter fun l => l.die = d && l.unit = unit && setOf unit l.line = setOf unit line && !s.wayOut d unit l.way
  let ways := (List.range (waysOf unit)).filter fun w => !s.wayOut d unit w
  match ways.find? (fun w => !(same.any fun l => l.way = w)) with
  | some w => some (w, none)
  | none =>
    (same.foldl (fun (a : Option CacheLine) l =>
      match a with
      | none => some l
      | some b =>
        if s.effClass l < s.effClass b || (s.effClass l = s.effClass b && l.way < b.way) then some l else some b) none).map
      fun l => (l.way, some l)

/-- A line allocated in a unit; the dirty words of the line it replaces go to DRAM. With no way for it the line stays
uncached. -/
def State.allocLine (s : State) (d pa : Nat) (m : Mark) : State :=
  let unit := cacheUnit d pa
  let line := pa / 256 * 256
  let c := s.classOf d m
  let new (w : Nat) : CacheLine := ⟨d, unit, w, line, 0, 0, 0, m.sched, c.1, c.2.1, c.2.2, m.key⟩
  if s.bypassed d unit then s
  else match s.victim d unit line with
    | some (w, none) => s.modMem fun t => { t with lines := t.lines ++ [new w] }
    | some (w, some v) => s.modMem fun t => { t with lines := t.lines.filter (· ≠ v) ++ [new w], wbs := t.wbs ++ s.writeBacksOf v }
    | none => s

/-- A change to the line of a unit, allocated first if absent, with the mark of the access (R253). -/
def State.touch (s : State) (d pa : Nat) (m : Mark) (f : CacheLine → CacheLine) : State :=
  if isHostPa pa || (paInfo pa).isNone then s
  else
    let s1 := if (s.findLine d pa).isSome then s else s.allocLine d pa m
    let c := s.classOf d m
    let g (l : CacheLine) : CacheLine :=
      if l.die = d && l.line = pa / 256 * 256 && l.unit = cacheUnit d pa then
        f { l with sched := m.sched, cls := c.1, rel := c.2.1, rphase := c.2.2, key := m.key.orElse fun _ => l.key } else l
    s1.modMem fun t => { t with lines := t.lines.map g }

/-- The sector bits of the bytes pa to pa + n − 1 within a line. -/
def sectorBits (pa n : Nat) : BitVec 4 :=
  BitVec.ofNat 4 ((List.range 4).foldl (fun a k => if overlaps (pa / 256 * 256 + 64 * k) 64 pa n then a + 2 ^ k else a) 0)

/-- The word bits of the bytes pa to pa + n − 1 within a line. -/
def wordBits (pa n : Nat) : BitVec 64 :=
  BitVec.ofNat 64 (((2 ^ ((pa % 256 + n + 3) / 4 - pa % 256 / 4) - 1)) <<< (pa % 256 / 4))

/-- The byte bits of the bytes pa to pa + n − 1 within a line. -/
def byteBits (pa n : Nat) : BitVec 256 := BitVec.ofNat 256 ((2 ^ n - 1) <<< (pa % 256))

/-- The byte bits of the bytes that a masked write sets within its line. -/
def optBits (pa : Nat) (bs : List (Option Byte)) : BitVec 256 :=
  BitVec.ofNat 256 ((List.range bs.length).foldl (fun a i => if (bs[i]?.join).isSome then a ||| 2 ^ (pa % 256 + i) else a) 0)

/-- The words of a line in which byte bits are set: all of them, and those of which only a part is. -/
def wordsOf (b : BitVec 256) : BitVec 64 × BitVec 64 :=
  let at_ (j : Nat) : BitVec 4 := b.extractLsb' (4 * j) 4
  (BitVec.ofNat 64 ((List.range 64).foldl (fun a j => if at_ j = 0 then a else a + 2 ^ j) 0),
   BitVec.ofNat 64 ((List.range 64).foldl (fun a j => if at_ j = 0 || at_ j = 0xF then a else a + 2 ^ j) 0))

/-- Whether a masked write sets a byte of a 64-byte line. -/
def setsIn (pa : Nat) (bs : List (Option Byte)) (line : Nat) : Bool :=
  (List.range bs.length).any fun i => (bs[i]?.join).isSome && (pa + i) / 64 * 64 = line

/-- Whether a slice or gateway cache of the module holds a byte's sector with its bytes or dirty. -/
def State.sectorHeld (s : State) (pa : Nat) : Bool :=
  s.mem.lines.any fun l => l.line = pa / 256 * 256 &&
    ((l.valid &&& sectorBits pa 1) != 0 || (l.wmask &&& wordBits (pa / 64 * 64) 64) != 0 ||
      (l.bmask &&& byteBits (pa / 64 * 64) 64) != 0)

/-! ### DRAM -/

/-- A byte of DRAM changed. The other views of the byte that no cache holds show it in every image (R234). -/
def State.dramPut (s : State) (pa : Nat) (b : Byte) : State :=
  match dramKey pa with
  | none => s
  | some key =>
    let s1 := s.modMem fun t => { t with dram := memWrite t.dram key b }
    (viewsOf key).foldl (fun s q =>
      if q = pa || s.sectorHeld q then s
      else (List.range 8).foldl (fun s d =>
        s.setImage d { s.image d with mem := memWrite (s.image d).mem q b }) s) s1

/-- Bytes of DRAM changed. -/
def State.dramPutN (s : State) (pa : Nat) : List (Option Byte) → State
  | [] => s
  | none :: t => State.dramPutN s (pa + 1) t
  | some b :: t => State.dramPutN (s.dramPut pa b) (pa + 1) t

/-- n bytes of DRAM under a device address, each through the map (R90). -/
def State.dramBytes (s : State) (pa : Nat) : Nat → List Byte
  | 0 => []
  | n + 1 => memRead s.mem.dram ((dramKey pa).getD 0) :: State.dramBytes s (pa + 1) n

/-- The bytes of a mask over a sector's data. -/
def maskBytes (mask : BitVec 64) (data : Data512) : List (Option Byte) :=
  (List.range 64).map fun i => if mask.getLsbD i then some (data.extractLsb' (8 * i) 8) else none

/-! ### Encryption of DRAM (R243) -/

/-- The slot and key under which a DRAM sector is encrypted, by its number; none while no key has written it. -/
def State.sealOf (s : State) (sector : Nat) : Option (Nat × Nat) :=
  (s.mem.sealed.find? fun x => x.1 = sector).map Prod.snd

/-- A table of sectors with one entry set, or taken out. -/
def setSeal (l : List (Nat × Nat × Nat)) (k : Nat) (v : Option (Nat × Nat)) : List (Nat × Nat × Nat) :=
  (l.filter fun x => x.1 != k) ++ (match v with | some p => [(k, p)] | none => [])

/-- The number of the DRAM sector under a device address. -/
def sectorKey (pa : Nat) : Nat := (dramKey (pa / 64 * 64)).getD 0 / 64

/-- A sector of DRAM read under a key: as it was written where the key is the one that encrypted it. -/
def State.sectorUnder (s : State) (pa : Nat) (key : Option (Nat × Nat)) : Data512 :=
  let data : Data512 := BitVec.ofNat 512 (leNat (s.dramBytes (pa / 64 * 64) 64))
  match s.sealOf (sectorKey pa), key with
  | some t, some k => if t = k then data else Config.underKey t k data
  | _, _ => data

/-- n bytes of DRAM within one sector read by a memory-side unit under a key (R90, R243). -/
def State.dramUnder (s : State) (pa n : Nat) (key : Option (Nat × Nat)) : List Byte :=
  ((toBytes 64 (s.sectorUnder pa key).toNat).drop (pa % 64)).take n

/-- A sector of DRAM re-encrypted before a key writes a part of it: its other bytes are those that the key reads there. -/
def State.reseal (s : State) (pa : Nat) (key : Option (Nat × Nat)) : State :=
  match key with
  | none => s
  | some k =>
    let sec := pa / 64 * 64
    let s1 := if s.sealOf (sectorKey pa) = some k || (s.sealOf (sectorKey pa)).isNone then s
      else s.dramPutN sec ((toBytes 64 (s.sectorUnder pa key).toNat).map some)
    s1.modMem fun t => { t with sealed := setSeal t.sealed (sectorKey pa) (some k), shown := setSeal t.shown sec none }

/-- Whether a sector's bytes come from a cache, a write-back on its way or a write that waits, and not from DRAM. -/
def State.aboveDram (s : State) (sec : Nat) : Bool :=
  s.sectorHeld sec || (s.mem.wbs.any fun w => w.pa = sec) || s.mem.pending.any fun w => overlaps w.pa w.bytes.length sec 64

/-- A sector fetched from DRAM under a key: the images show it as the key reads it (R243). -/
def State.fetchUnder (s : State) (pa : Nat) (key : Option (Nat × Nat)) : State :=
  let sec := pa / 64 * 64
  let shows := (s.mem.shown.find? fun x => x.1 = sec).map Prod.snd
  match key, s.sealOf (sectorKey pa) with
  | some k, some t =>
    if shows.getD t = k || s.aboveDram sec then s
    else
      let bs := toBytes 64 (s.sectorUnder pa key).toNat
      (List.range 8).foldl (fun s d => s.setImage d { s.image d with mem := writeN (s.image d).mem sec bs })
        (s.modMem fun m => { m with shown := setSeal m.shown sec (if k = t then none else some k) })
  | _, _ => s

/-- The sectors of a range fetched under a key. -/
def State.fetchRange (s : State) (pa n : Nat) (key : Option (Nat × Nat)) : State :=
  if isHostPa pa || (paInfo pa).isNone then s
  else (List.range ((pa + n + 63) / 64 - pa / 64)).foldl (fun s k => s.fetchUnder ((pa / 64 + k) * 64) key) s

/-- A memory-side unit queues a write-back: it is in DRAM for what the unit serves later (R252, R320). -/
def State.acceptWb (s : State) (w : WriteBack) : State :=
  ((s.modMem fun t => { t with wbs := t.wbs.erase w }).reseal w.pa w.key).dramPutN w.pa (maskBytes w.mask w.data)

/-- Every held write-back of a sector range accepted. -/
def State.acceptRange (s : State) (pa n : Nat) : State :=
  (s.mem.wbs.filter fun w => overlaps w.pa 64 pa n).foldl State.acceptWb s

/-- Dirty words of the slices' lines in a range queued for DRAM and marked clean (R250); the dirty bytes of gateway
lines have reached their homes. -/
def State.cleanRange (s : State) (pa n : Nat) : State :=
  let ls := s.mem.lines.filter fun l => overlaps l.line 256 pa n
  let s1 := ls.foldl (fun s l =>
    let part := { l with wmask := l.wmask &&& (List.range 4).foldl (fun a k =>
      if overlaps (l.line + 64 * k) 64 pa n then a ||| wordBits (l.line + 64 * k) 64 else a) 0 }
    let own : BitVec 256 := (List.range 4).foldl (fun a k =>
      if overlaps (l.line + 64 * k) 64 pa n then a ||| byteBits (l.line + 64 * k) 64 else a) 0
    s.modMem fun t => { t with wbs := t.wbs ++ s.writeBacksOf part,
                               lines := t.lines.map fun m => if m = l then
                                 { m with wmask := m.wmask ^^^ part.wmask, bmask := m.bmask &&& ~~~own } else m }) s
  s1.acceptRange pa n

/-- Sectors of a range dropped from every slice and gateway cache, dirty marks with them. -/
def State.dropRange (s : State) (pa n : Nat) : State :=
  let g (l : CacheLine) : CacheLine :=
    (List.range 4).foldl (fun (l : CacheLine) k =>
      if overlaps (l.line + 64 * k) 64 pa n then
        { l with valid := l.valid &&& ~~~(sectorBits (l.line + 64 * k) 64),
                 wmask := l.wmask &&& ~~~(wordBits (l.line + 64 * k) 64),
                 bmask := l.bmask &&& ~~~(byteBits (l.line + 64 * k) 64) } else l) l
  let kept := (s.mem.lines.map fun l => if overlaps l.line 256 pa n then g l else l).filter fun l =>
    !(l.valid = 0 && l.wmask = 0 && l.bmask = 0)
  s.modMem fun t => { t with lines := kept }

/-- Every image shows DRAM's bytes for a range (after its cached copies are dropped), under the key that wrote them. -/
def State.showDram (s : State) (pa n : Nat) : State :=
  (List.range 8).foldl (fun s d =>
    s.setImage d { s.image d with mem := writeN (s.image d).mem pa (s.dramBytes pa n) })
    (s.modMem fun t => { t with shown := t.shown.filter fun x => !overlaps x.1 64 pa n })

/-! ### Reads and writes through the caches (R250, R251) -/

/-- Sectors of a line that bits of a range of words or bytes lie in. -/
def sectorsOf (b : BitVec 64) : BitVec 4 :=
  BitVec.ofNat 4 ((List.range 4).foldl (fun a k => if b.extractLsb' (16 * k) 16 = 0 then a else a + 2 ^ k) 0)

/-- The words of a line that a slice holds: those of valid sectors and those of WMASK. -/
def CacheLine.present (l : CacheLine) : BitVec 64 :=
  l.wmask ||| BitVec.ofNat 64 ((List.range 4).foldl (fun a k => if l.valid.getLsbD k then a + 0xFFFF * 2 ^ (16 * k) else a) 0)

/-- The bytes of a line that a gateway cache holds. -/
def CacheLine.bytesIn (l : CacheLine) : BitVec 256 :=
  l.bmask ||| BitVec.ofNat 256 ((List.range 4).foldl (fun a k => if l.valid.getLsbD k then a + (2 ^ 64 - 1) * 2 ^ (64 * k) else a) 0)

/-- A line with the sectors of words that it lacks fetched. -/
def CacheLine.fetch (l : CacheLine) (words : BitVec 64) : CacheLine :=
  { l with valid := l.valid ||| sectorsOf (words &&& ~~~l.present) }

/-- A line whose sectors with all 16 words written are valid (R250: V = 1 means that all are present). -/
def CacheLine.filled (l : CacheLine) : CacheLine :=
  { l with valid := l.valid ||| BitVec.ofNat 4 ((List.range 4).foldl (fun a k =>
      if l.wmask.extractLsb' (16 * k) 16 = 0xFFFF then a + 2 ^ k else a) 0) }

/-- A read of n bytes of a line at a unit: the sectors of words or bytes that are not present are fetched. -/
def CacheLine.read (l : CacheLine) (pa n : Nat) : CacheLine :=
  if l.unit < 64 then l.fetch (wordBits pa n)
  else if byteBits pa n &&& ~~~l.bytesIn = 0 then l
  else { l with valid := l.valid ||| sectorBits pa n }

/-- A masked write at a unit: in a slice a part of a word that is not present fetches its sector; with `merge`, a write-back from
a gateway cache, so does a whole word. -/
def CacheLine.write (l : CacheLine) (b : BitVec 256) (merge : Bool) : CacheLine :=
  let w := wordsOf b
  if l.unit < 64 then
    let l1 := l.fetch (if merge then w.1 else w.2)
    { l1 with wmask := l1.wmask ||| w.1 }.filled
  else { l with bmask := l.bmask ||| b }

/-- A read within a line through the caches of a die (R250, R251): at home its slice; elsewhere its gateway cache, and the home
slice where that lacks bytes. Lines of MS pages are held in no gateway cache. -/
def State.touchLine (s : State) (d pa n : Nat) (m : Mark) : State :=
  let h := homeDie pa
  let s1 := s.fetchRange pa n m.key
  let at_ (s : State) (e : Nat) : State := s.touch e pa m fun l => l.read pa n
  if h = d || m.ms then at_ s1 h
  else if (s1.findLine d pa).any fun l => byteBits pa n &&& ~~~l.bytesIn = 0 then at_ s1 d
  else at_ (at_ s1 h) d

/-- The parts of a range in its 256-byte lines. -/
def linePieces (pa n : Nat) : List (Nat × Nat) :=
  (List.range ((pa % 256 + n + 255) / 256)).map fun k =>
    let a := max pa ((pa / 256 + k) * 256)
    (a, min (pa + n) ((pa / 256 + k + 1) * 256) - a)

/-- A read through the caches of a die, line by line. -/
def State.touchRead (s : State) (d pa n : Nat) (m : Mark) : State :=
  (linePieces pa n).foldl (fun s p => s.touchLine d p.1 p.2 m) s

/-- A write through the caches of a die (R250, R251); with `merge`, at home, a write that a gateway cache or another die's page
of kind MS sends there. -/
def State.touchWrite (s : State) (d pa : Nat) (bs : List (Option Byte)) (m : Mark) (merge : Bool) : State :=
  if m.ms && homeDie pa != d then s else s.touch d pa m fun l => l.write (optBits pa bs) merge

/-! ### The back-invalidate snoop (R241) -/

/-- Whether the host holds the line of a byte (R241). -/
def State.hostOwns (s : State) (pa : Nat) : Bool := s.mem.hostHas.contains (pa / 64 * 64)

/-- A back-invalidate snoop sent for the line of a byte, once (R241). -/
def State.snoop (s : State) (pa : Nat) : State :=
  let line := pa / 64 * 64
  if s.mem.snoops.contains line then s else s.modMem fun t => { t with snoops := t.snoops ++ [line] }

/-- Whether an access through a page must wait for the host (R241). -/
def State.snoopFirst (s : State) (page : PageAttr) (pa : Nat) : Bool := page.sysatom && s.hostOwns pa

/-- The first line of a range that an access through a page must wait for (R241). -/
def State.ownedIn (s : State) (page : PageAttr) (pa n : Nat) : Option Nat :=
  if !page.sysatom || s.mem.hostHas.isEmpty then none
  else ((List.range ((pa + n + 63) / 64 - pa / 64)).map fun k => (pa / 64 + k) * 64).find? s.hostOwns

/-! ### Steps of the ordering machine -/

/-- The writes appended to the home order of their bytes (R79, R80). -/
def appendHome (h : List (Nat × List Nat)) (a id : Nat) : List (Option Byte) → List (Nat × List Nat)
  | [] => h
  | none :: t => appendHome h (a + 1) id t
  | some _ :: t => appendHome (insertD h a (lookupD h a [] ++ [id])) (a + 1) id t

/-- Whether a unit keeps bytes of memory, and not the SRAM of an element. -/
def keepsMemory : ErrUnit → Bool
  | .elem _ | .plane _ | .pleat _ => false
  | _ => true

/-- Words whose every byte a masked write sets lose the mark of an uncorrected error (R392). -/
def curePoison (l : List (ErrUnit × Nat)) (pa : Nat) (bs : List (Option Byte)) : List (ErrUnit × Nat) :=
  if l.isEmpty then l
  else l.filter fun x => !keepsMemory x.1 || !((List.range 4).all fun i => decide (pa ≤ x.2 + i) && (bs[x.2 + i - pa]?.join).isSome)

/-- Whether an access of a die, by one of its sequencer cores or by another unit of it, goes through a unit that can err (R392). -/
def servedBy (u : ErrUnit) (d : Nat) (core : Option Nat) : Bool :=
  match u with
  | .l1 e c => core = some (e * 16 + c)
  | .gateway e _ => e = d
  | .sliceBank .. | .msu .. | .dram .. => true
  | _ => false

/-- Whether a read of n bytes meets a word that an uncorrected error has spoilt: no master is given that word (R392). -/
def State.spoilt (s : State) (d : Nat) (core : Option Nat) (pa n : Nat) : Bool :=
  s.mem.poison.any fun x => servedBy x.1 d core && overlaps x.2 4 pa n

/-- A write event of an agent of die d (R79): its bytes in the image, the clock, the stamp, the pending sets, and at home the
home order. -/
def State.issueWrite (s : State) (d pa : Nat) (bytes : List (Option Byte)) (m : Mark) (forced : Bool) : State :=
  let im := s.image d
  let clock := im.clock.put d (im.clock.at d + 1)
  let s1 := s.setImage d { mem := writeOpt im.mem pa bytes, tags := tagOpt im.tags pa s.serial bytes, clock := clock }
  let s2 := s1.modMem fun t =>
    { t with pending := t.pending ++ [⟨s.serial, d, homeDie pa, pa, bytes, clock, forced, m, [d]⟩],
             home := if homeDie pa = d then appendHome t.home pa s.serial bytes else t.home,
             poison := curePoison t.poison pa bytes }
  { s2 with serial := s.serial + 1 }

/-- A write that the host accepts into its memory, which is one image (R96): every core drops its copy of the line (R319; log 41). -/
def State.hostPut (s : State) (d pa : Nat) (bytes : List (Option Byte)) (code : Bool) : State :=
  (List.range 8).foldl (fun s e => s.dropL1 e (setsIn pa bytes) (code && e = d))
    (s.modMem fun t => { t with host := writeOpt t.host pa bytes })

/-- A write performed by an agent of die d (R79) through the caches; the words of its sectors that it leaves are those that its
page's key reads (R243). `code` says that a strand of the die stored it (R220). -/
def State.performWrite (s : State) (d pa : Nat) (bytes : List (Option Byte)) (m : Mark) (code : Bool) : State :=
  if isHostPa pa then s.hostPut d pa bytes code
  else (((s.fetchRange pa bytes.length m.key).issueWrite d pa bytes m false).touchWrite d pa bytes m false).dropL1 d
    (setsIn pa bytes) code

/-- A masked write of at most 256 bytes, as one event for each line that it lies in (R76). -/
def State.performSplit (s : State) (d pa : Nat) (bytes : List (Option Byte)) (m : Mark) : State :=
  let first := 256 - pa % 256
  let s1 := s.performWrite d pa (bytes.take first) m false
  if bytes.length ≤ first then s1 else s1.performWrite d (pa + first) (bytes.drop first) m false

/-- A write of a whole value. -/
def State.performVal (s : State) (d pa n v : Nat) (m : Mark) : State :=
  s.performWrite d pa ((toBytes n v).map some) m false

/-- Whether `w` stands later in a byte's home order than the write the image holds for the byte (R80). -/
def laterAtHome (order : List Nat) (w held : Nat) : Bool :=
  held = 0 || (order.dropWhile (· ≠ held)).contains w

/-- The bytes of a write that a die that is not its home sets: where it stands later in a byte's home order than the write the
image holds (R80). A memory-side unit's write is set over any but a later one, since a write that its home had not applied is
discarded (R407). -/
def State.fresher (s : State) (e : Nat) (w : WriteEv) (a : Nat) : List (Option Byte) → List (Option Byte)
  | [] => []
  | none :: t => none :: State.fresher s e w (a + 1) t
  | some b :: t =>
    let order := lookupD s.mem.home a []
    let held := tagRead (s.image e).tags a
    (if (if w.forced then !laterAtHome order held w.id else laterAtHome order w.id held) then some b else none)
      :: State.fresher s e w (a + 1) t

/-- Whether die e may apply a pending write (R80). -/
def State.mayApply (s : State) (e : Nat) (w : WriteEv) : Bool :=
  !(w.on.contains e) &&
  decide ((s.clock e).at w.src + 1 = w.stamp.at w.src) &&
  ((List.range 8).all fun k => k = w.src || reaches ((s.clock e).at k) (w.stamp.at k)) &&
  (e = w.home || w.on.contains w.home) &&
  !(s.mem.pending.any fun v => v.src = e && !(v.on.contains v.home) && overlaps v.pa v.bytes.length w.pa w.bytes.length)

/-- Die e applies a pending write (R80): at home its bytes and the home order; elsewhere the bytes it sets later. -/
def State.applyWrite (s : State) (e : Nat) (w : WriteEv) : State :=
  let im := s.image e
  let clock := im.clock.put w.src (im.clock.at w.src + 1)
  let bytes := if e = w.home then w.bytes else s.fresher e w w.pa w.bytes
  let s1 := s.setImage e { mem := writeOpt im.mem w.pa bytes, tags := tagOpt im.tags w.pa w.id bytes, clock := clock }
  let s2 := s1.modMem fun t =>
    { t with home := if e = w.home then appendHome t.home w.pa w.id w.bytes else t.home,
             pending := (t.pending.map fun v => if v.id = w.id then { v with on := v.on ++ [e] } else v).filter
               fun v => !(decide (8 ≤ v.on.length)) }
  let s3 := if e = w.home && !w.forced && w.bytes.any Option.isSome then s2.touchWrite e w.pa w.bytes w.mark true else s2
  if w.forced then s3 else s3.dropL1 e (setsIn w.pa w.bytes) false

/-- Whether the named write has been applied to a die's image. -/
def State.appliedOn (s : State) (d id : Nat) : Bool := !(s.mem.pending.any fun w => w.id = id && !(w.on.contains d))

/-- Whether a die has a write of its own that another die is so far behind with that none may be added (R81). -/
def State.lags (s : State) (d : Nat) : Bool :=
  s.mem.pending.any fun w => w.src = d && decide (Config.lagLimit ≤ ((s.clock d).at d - w.stamp.at d).toNat)

/-- The bytes of a masked write outside a range. -/
def maskOut (pa n : Nat) (a : Nat) : List (Option Byte) → List (Option Byte)
  | [] => []
  | b :: t => (if pa ≤ a && a < pa + n then none else b) :: maskOut pa n (a + 1) t

/-- Bytes of a range discarded in the writes that wait (R213, R260, R407): in all of them, or in those that their home has not
applied. -/
def State.discardPending (s : State) (pa n : Nat) (all : Bool) : State :=
  let cut (w : WriteEv) : WriteEv :=
    if overlaps w.pa w.bytes.length pa n && (all || !w.on.contains w.home) then { w with bytes := maskOut pa n w.pa w.bytes } else w
  s.modMem fun t => { t with pending := t.pending.map cut }

/-- A memory-side unit's write under its page's key (R407): on DRAM and in the image of the die that owns its stack in one step;
the copies of its sectors in slices and gateway caches are dropped, and dirty bytes discarded, among them those of writes that
have not reached their home (R260). -/
def State.msuWrite (s : State) (pa : Nat) (bytes : List (Option Byte)) (key : Option (Nat × Nat)) : State :=
  let n := bytes.length
  let s1 := (s.dropRange pa n).discardPending pa n false
  let s2 := s1.modMem fun t => { t with wbs := t.wbs.filter fun w => !(overlaps w.pa 64 pa n) }
  ((s2.reseal pa key).dramPutN pa bytes).issueWrite (homeDie pa) pa bytes { Mark.plain with key := key } true

/-- The write of an atomic that a memory-side unit performs in DRAM as a step of the home die (R240): ordered as any atomic's. -/
def State.atomicInDram (s : State) (pa : Nat) (bytes : List (Option Byte)) (m : Mark) : State :=
  let s1 := ((s.reseal pa m.key).dramPutN pa bytes).issueWrite (homeDie pa) pa bytes m false
  s1.dropL1 (homeDie pa) (setsIn pa bytes) false

end Sys2Proof.Machine
end

