-- ==== Sys2Proof/Machine/Links.lean ====
section
/-! DEFINITION. Which dies and which memory the links let a die reach (01_device.md R16, R20; 23_links.md R375 to R378). -/

namespace Sys2Proof.Machine

/-- The number of the die-to-die pair of two dies: that of the port of the lower-numbered die (R375, R380). -/
def pairLink (d e : Nat) : Nat :=
  let lo := min d e
  24 + 7 * lo + (max d e - lo - 1)

/-- The number by which the state keeps a link: both ports of a pair have one state (R375). -/
def linkKey (k : Nat) : Nat :=
  if k < 24 then k
  else
    let d := (k - 24) / 7
    pairLink d ((d + (k - 24) % 7 + 1) % 8)

/-- Whether a number names a link (R380). -/
def isLink (k : Nat) : Bool := decide (k ≤ 18) || (decide (24 ≤ k) && decide (k < 80))

/-- The die that holds a link (R20, R375): 2d + 4 and 2d + 5 for dies 5 and 6, and for die 7 the two stitch links that are left,
since R375 gives the numbers that the formula has for it to the host port and to no link (log 61). -/
def linkDie (k : Nat) : Nat :=
  if k < 3 then 0
  else if k < 9 then (k - 1) / 2
  else if k < 12 then 4
  else if k < 14 then 7
  else if k < 18 then (k - 4) / 2
  else if k < 24 then 0
  else (k - 24) / 7

/-- WHO of a link in a record (R375). -/
def linkWho (k : Nat) : Nat := if k < 24 then k else 24 + (k - 24) % 7

/-- A link. -/
def State.link (s : State) (k : Nat) : Link := (s.outer.links.find? fun l => l.no = linkKey k).getD (Link.reset (linkKey k))

/-- The sender and the receiver at a link; each port of a pair of dies keeps its own (R376). -/
def State.sender (s : State) (k : Nat) : Link := (s.outer.links.find? fun l => l.no = k).getD (Link.reset k)

/-- The senders of a link: of a pair, those of both its ports. -/
def portsOf (k : Nat) : List Nat :=
  if k < 24 then [k]
  else
    let lo := linkKey k
    let d := (lo - 24) / 7
    let p := (lo - 24) % 7
    [lo, 24 + 7 * (d + p + 1) + (6 - p)]

/-- The state with a link replaced. -/
def State.setLink (s : State) (l : Link) : State :=
  { s with outer := { s.outer with links := (s.outer.links.filter fun x => x.no != l.no) ++ [l] } }

/-- Whether traffic flows on a link (R377). -/
def Link.flows (l : Link) : Bool := l.st = .up || l.st = .degraded

/-- Whether a link has left service (R378). -/
def Link.out (l : Link) : Bool := l.st = .fenced || l.st = .failed

/-- What a path is: open, waiting for a link, or lost. -/
inductive Reach where
  | open_ | waits | lost
  deriving DecidableEq, Repr

/-- The relay die of a pair that has left service: the lowest whose ports to both dies carry traffic (R378). -/
def State.relay (s : State) (d e : Nat) : Option Nat :=
  (List.range 8).find? fun f => f != d && f != e && (s.link (pairLink d f)).flows && (s.link (pairLink f e)).flows

/-- The path between two dies: their pair, or, once it has left service, a relay die (R378). -/
def State.reach (s : State) (d e : Nat) : Reach :=
  if d = e then .open_
  else
    let l := s.link (pairLink d e)
    if l.flows then .open_
    else if !l.out then .waits
    else if (s.relay d e).isSome then .open_
    else .lost

/-- The path from a die to a link that another die holds (R20): stitch link or host port. -/
def State.reachLink (s : State) (d k : Nat) : Reach :=
  match s.reach d (linkDie k) with
  | .open_ => if (s.link k).flows then .open_ else if (s.link k).out then .lost else .waits
  | r => r

/-- The path from a die to the memory of a physical address: its home, or the host over its port. -/
def State.reachPa (s : State) (d pa : Nat) : Reach := if isHostPa pa then s.reachLink d 18 else s.reach d (homeDie pa)

end Sys2Proof.Machine
end

