-- ==== Sys2Proof/Machine/Translate.lean ====
section
/-! DEFINITION. Contexts in memory (09_contexts.md R221 to R225) and translation (10_pages.md R235 to R248): the walk,
malformed entries, the checks of an access, and the translation caches. -/

namespace Sys2Proof.Machine

/-- Accesses as the checks of R239 see them. -/
inductive Access where
  | fetch | read | write | atomic
  deriving DecidableEq, Repr

/-- Bits h to l of a doubleword, as a number (R3). -/
def field (w : DWord) (h l : Nat) : Nat := (w.toNat >>> l) % 2 ^ (h - l + 1)

/-- A context descriptor as the device reads it (R221). -/
structure Desc where
  v      : Bool
  state  : Nat
  root   : Nat
  rcount : Nat
  prio   : Nat
  keyHi  : Nat
  keyLo  : Nat
  asid   : BitVec 16
  rtab   : Nat
  faultq : DWord
  hamper : DWord
  deriving DecidableEq, Repr

/-- The doubleword at a physical address as a die sees it. -/
def State.dwordAt (s : State) (d pa : Nat) : DWord := BitVec.ofNat 64 (s.valAt d pa 8)

/-- The physical address of a context's descriptor (R221). -/
def State.descPa (s : State) (ctx : Nat) : Nat := s.outer.mgmt.ctxtab.toNat + 64 * ctx

/-- The descriptor of a context from the image of a die (R221); one that breaks its rules reads V = 0. -/
def State.desc (s : State) (d ctx : Nat) : Desc :=
  let a := s.descPa ctx
  let w0 := s.dwordAt d a
  let w1 := s.dwordAt d (a + 8)
  let w2 := s.dwordAt d (a + 16)
  let bad := field w0 63 52 != 0 || field w0 11 0 != 0 || field w1 63 48 != 0 || field w2 63 52 != 0 ||
    field w2 5 0 != 0 || s.valAt d (a + 0x28) 24 != 0 || decide (field w1 44 38 > 64) ||
    decide (field w1 25 16 > field w1 35 26)
  { v := field w1 45 45 = 1 && !bad, state := field w1 47 46, root := field w0 51 12 * 4096,
    rcount := field w1 44 38, prio := field w1 37 36, keyHi := field w1 35 26, keyLo := field w1 25 16,
    asid := w1.extractLsb' 0 16, rtab := field w2 51 6 * 64, faultq := s.dwordAt d (a + 0x18),
    hamper := s.dwordAt d (a + 0x20) }

/-- The entries of a region table that are in use (R223). -/
def State.regionTable (s : State) (d : Nat) (c : Desc) : List RegionEntry :=
  (List.range c.rcount).filterMap fun i =>
    let w0 := s.dwordAt d (c.rtab + 16 * i)
    let w1 := s.dwordAt d (c.rtab + 16 * i + 8)
    if field w0 63 57 != 0 || field w0 7 0 != 0 || field w1 39 34 != 0 || field w1 33 32 = 0 || field w1 31 0 = 0 then none
    else some ⟨i, field w0 56 8 * 256, field w1 31 0 * 256, w1.extractLsb' 32 2, w1.extractLsb' 40 24⟩

/-- PLACE of a leaf (R237). -/
def leafPlace (l : DWord) : Nat := field l 63 62
/-- MS of a leaf. -/
def leafMs (l : DWord) : Bool := l.getLsbD 58
/-- SYSATOM of a leaf. -/
def leafSysatom (l : DWord) : Bool := l.getLsbD 57
/-- CL of a leaf. -/
def leafCl (l : DWord) : Bool := l.getLsbD 56
/-- FRAME of a leaf as an address. -/
def leafFrame (l : DWord) : Nat := field l 51 16 * 65536
/-- KEY of a leaf. -/
def leafKey (l : DWord) : Nat := field l 15 6

/-- Whether every byte of a frame is populated (R238). -/
def populated (pa size : Nat) : Bool :=
  if isHostPa pa then decide (pa + size ≤ 2 ^ 52) else (paInfo pa).isSome && (paInfo (pa + size - 1)).isSome

/-- Whether a leaf is malformed for a page of a size (R238). -/
def leafMalformed (l : DWord) (size : Nat) : Bool :=
  let f := leafFrame l
  let place := leafPlace l
  let linear := ((paInfo f).map PaInfo.linear).getD false
  field l 61 59 != 0 || field l 55 52 != 0 || f % size != 0 ||
  (match place with
   | 0 => decide (2 ^ 42 ≤ f)
   | 1 => decide (f < 2 ^ 42) || decide (2 ^ 43 ≤ f)
   | 2 => decide (2 ^ 42 ≤ f)
   | _ => !isHostPa f) ||
  !populated f size ||
  (leafCl l && !(size = 65536 && linear)) || (!leafCl l && linear) ||
  (place = 2 && (l.getLsbD 3 || leafMs l)) ||
  (place = 3 && (leafMs l || leafSysatom l || leafCl l))

/-- The levels of the walk below the root: low bit of the index, entries, and whether a leaf may stand there (R235). -/
def walkLevels : List (Nat × Nat × Bool) :=
  [(48, 512, false), (39, 512, false), (30, 512, true), (21, 512, true), (16, 32, true)]

/-- The walk over the remaining levels: the leaf and its page size, or why it failed: the failing entry was absent (0) or
malformed (1), or an uncorrected error spoilt an entry (2; R392) (R235 to R238). -/
def State.walkFrom (s : State) (d va : Nat) : Nat → List (Nat × Nat × Bool) → (DWord × Nat) ⊕ Nat
  | _, [] => .inr 1
  | table, (lo, n, leafOk) :: rest =>
    let at_ := table + 8 * ((va >>> lo) % n)
    let e := s.dwordAt d at_
    if s.spoilt d none at_ 8 then .inr 2
    else if !e.getLsbD 0 then .inr 0
    else if e.getLsbD 1 then
      (if !leafOk || leafMalformed e (2 ^ lo) then .inr 1 else .inl (e, 2 ^ lo))
    else
      let toL0b := match rest with | [(16, _, _)] => true | _ => false
      if field e 63 52 != 0 || field e 7 2 != 0 || (!toL0b && field e 11 8 != 0) then .inr 1
      else State.walkFrom s d va (field e 51 8 * 256) rest

/-- A whole walk on a die for a context (R235): the translation, or why it failed. -/
def State.walk (s : State) (d : Nat) (ctx : BitVec 10) (asid : BitVec 16) (va : Nat) : TlbEntry ⊕ Nat :=
  let c := s.desc d ctx.toNat
  if s.spoilt d none (s.descPa ctx.toNat) 64 then .inr 2
  else if !c.v then .inr 0
  else match s.walkFrom d va c.root walkLevels with
    | .inr m => .inr m
    | .inl (leaf, size) => .inl ⟨asid, va / size * size, size, leaf, c.keyLo, c.keyHi, s.regionTable d c⟩

/-- The fault of an absent page (R239). -/
def absentCode : Access → Nat
  | .fetch => 0x04
  | .read => 0x06
  | .write | .atomic => 0x07

/-- The deciding region-table entry of a byte (R224). -/
def decidingEntry (rs : List RegionEntry) (va : Nat) : Option RegionEntry :=
  rs.find? fun r => decide (r.base ≤ va) && decide (va < r.base + r.bytes)

/-- The first entry that an access of n bytes violates, byte by byte (R224). -/
def violationFrom (rs : List RegionEntry) (acc : Access) (task : Option Nat) (va : Nat) : Nat → Option RegionEntry
  | 0 => none
  | n + 1 =>
    match decidingEntry rs va with
    | some r =>
      if r.state = 1 && (acc = .write || acc = .atomic) then some r
      else if r.state = 2 && task != some r.task.toNat then some r
      else violationFrom rs acc task (va + 1) n
    | none => violationFrom rs acc task (va + 1) n

/-- The first entry that an access of n bytes violates, if one does (R224). -/
def violation (rs : List RegionEntry) (acc : Access) (task : Option Nat) (va n : Nat) : Option RegionEntry :=
  if rs.isEmpty then none else violationFrom rs acc task va n

/-- A translation: an address and its entry, a miss, or a fault code with its DETAIL. -/
inductive Tr where
  | ok (pa : Nat) (e : TlbEntry)
  | miss
  | bad (code detail : Nat)
  deriving DecidableEq, Repr

/-- The checks of R239 on an access through an entry; `task` is the task the master acts for (R224). -/
def State.check (s : State) (e : TlbEntry) (acc : Access) (user : Bool) (task : Option Nat) (va n : Nat) : Tr :=
  let l := e.leaf
  let key := leafKey l
  if decide (key < e.keyLo) || decide (e.keyHi < key) || (s.keyIn key).isNone then .bad 0x1A 0
  else if user && !l.getLsbD 5 then .bad 0x08 0
  else if acc = .fetch && !l.getLsbD 4 then .bad 0x05 0
  else if (acc = .read || acc = .atomic) && !l.getLsbD 2 then .bad 0x08 0
  else if (acc = .write || acc = .atomic) && !l.getLsbD 3 then .bad 0x08 0
  else match violation e.regions acc task va n with
    | some r => .bad 0x09 (r.index + (if acc = .write || acc = .atomic then 256 else 0))
    | none => .ok (leafFrame l + (va - e.va)) e

/-- A translation as a die can use it: memory behind links that have left service with no relay answers LINK_DOWN (R378). -/
def State.linked (s : State) (d : Nat) (r : Tr) : Tr :=
  match r with
  | .ok pa _ => if s.reachPa d pa = .lost then .bad 0x17 0 else r
  | _ => r

/-- The cached entry of a unit for an address (R244). -/
def State.tlbFind (s : State) (u : TlbUnit) (asid : BitVec 16) (va : Nat) : Option TlbEntry :=
  (s.seqs.tlbs.find? fun (v, e) => v = u && e.asid = asid && decide (e.va ≤ va) && decide (va < e.va + e.size)).map
    Prod.snd

/-- Entries a unit holds (R244). -/
def tlbCapacity : TlbUnit → Nat
  | .hem _ _ _ => 1024
  | .core _ _ => 256
  | .engine _ => 256

/-- An entry cached in a unit; a full unit gives up its oldest (log 12). -/
def State.tlbFill (s : State) (u : TlbUnit) (e : TlbEntry) : State :=
  let mine := s.seqs.tlbs.filter fun x => x.1 = u
  let rest := if mine.length < tlbCapacity u then s.seqs.tlbs
    else match mine with
      | [] => s.seqs.tlbs
      | old :: _ => s.seqs.tlbs.erase old
  { s with seqs := { s.seqs with tlbs := rest ++ [(u, e)] } }

/-- The die of a unit. -/
def tlbDie : TlbUnit → Nat
  | .hem d _ _ => d
  | .core d _ => d
  | .engine d => d

/-- An access looked up in a unit and checked (R239); bits 63:57 of the address must be zero (R235). -/
def State.lookup (s : State) (u : TlbUnit) (asid : BitVec 16) (acc : Access) (user : Bool) (task : Option Nat)
    (va n : Nat) : Tr :=
  if 2 ^ 57 ≤ va then .bad (absentCode acc) 0
  else match s.tlbFind u asid va with
    | some e => s.linked (tlbDie u) (s.check e acc user task va n)
    | none => .miss

/-- A walk requested in a die's merger (R244): joined to one of the same ASID and virtual address bits 56:16, begun, or queued
while 256 are in flight. -/
def State.requestWalk (s : State) (who : Waiter) (u : TlbUnit) (ctx : BitVec 10) (asid : BitVec 16) (va : Nat) : State :=
  let d := tlbDie u
  let same (w : Walk) : Bool := w.die = d && w.asid = asid && w.va / 65536 = va / 65536
  let join (w : Walk) : Walk :=
    if same w && !(w.waiters.contains (who, u)) then { w with waiters := w.waiters ++ [(who, u)] } else w
  if s.seqs.walks.any same then { s with seqs := { s.seqs with walks := s.seqs.walks.map join } }
  else if s.seqs.queued.any same then { s with seqs := { s.seqs with queued := s.seqs.queued.map join } }
  else
    let w : Walk := ⟨d, ctx.toNat, asid, va, [(who, u)], s.cycle + 1 + Config.latency s.serial⟩
    let s1 := { s with serial := s.serial + 1 }
    if (s.seqs.walks.filter fun w => w.die = d).length < 256 then
      { s1 with seqs := { s1.seqs with walks := s1.seqs.walks ++ [w] } }
    else { s1 with seqs := { s1.seqs with queued := s1.seqs.queued ++ [w] } }

/-- Whether someone waits for a walk. -/
def State.awaitsWalk (s : State) (who : Waiter) : Bool :=
  (s.seqs.walks ++ s.seqs.queued).any fun w => w.waiters.any fun x => x.1 = who

/-- The result of a walk for a page that someone other than a strand has waited for. -/
def State.answer? (s : State) (who : Waiter) (asid : BitVec 16) (va : Nat) : Option WalkResult :=
  (s.seqs.answers.find? fun x => x.1 = who && x.2.1.asid = asid && x.2.1.va = va / 65536).map fun x => x.2.1

/-- A step that waits for a walk or for the host: the state before it, with the walk requested or the snoop sent. -/
def State.retry (s : State) (later : State) : State :=
  { s with seqs := later.seqs, serial := later.serial, mem := { s.mem with snoops := later.mem.snoops } }

/-- An access with the result of a walk. -/
def State.withWalk (s : State) (u : TlbUnit) (w : WalkResult) (acc : Access) (user : Bool) (task : Option Nat) (va n : Nat) : Tr :=
  match w.entry with
  | some e => s.linked (tlbDie u) (s.check e acc user task va n)
  | none => if w.why = 2 then .bad 0x16 0 else .bad (absentCode acc) w.why

/-- The entry that held for an address when its engine accepted a command (R248): until a shootdown that covers the page is
acknowledged, each access may use the old entry or the new one (R245). -/
def State.accepted (s : State) (who : Waiter) (va : Nat) : Option TlbEntry :=
  let id : Option Nat := match who with
    | .cmd id => some id
    | .region id => (s.tasks.regions.find? fun g => g.id = id).bind Region.cfgCmd
    | _ => none
  (id.bind fun id => s.engs.cmds.find? fun c => c.id = id).bind fun c =>
    c.pages.find? fun e => decide (e.va ≤ va) && decide (va < e.va + e.size)

/-- A translation for one that is not a strand at issue (R244): the unit's cache, else the result of the walk that it has waited
for, else a walk is requested, and the step is taken again later. A command keeps to the entries with which it was accepted. -/
def State.translate (s : State) (who : Waiter) (u : TlbUnit) (ctx : BitVec 10) (asid : BitVec 16) (acc : Access) (user : Bool)
    (task : Option Nat) (va n : Nat) : Tr × State :=
  let held (r : Tr) : Tr := match s.accepted who va with
    | some e => s.linked (tlbDie u) (s.check e acc user task va n)
    | none => r
  match s.lookup u asid acc user task va n with
  | .miss =>
    match s.answer? who asid va with
    | some w => (held (s.withWalk u w acc user task va n), s)
    | none => (.miss, s.requestWalk who u ctx asid va)
  | r => (held r, s)

/-- A translation whose walk, where it needs one, ends at once: for what the end of a sweep writes (R366) and for a look that
changes nothing (log 83). -/
def State.translateNow (s : State) (u : TlbUnit) (ctx : BitVec 10) (asid : BitVec 16) (acc : Access) (user : Bool) (task : Option Nat)
    (va n : Nat) : Tr × State :=
  match s.lookup u asid acc user task va n with
  | .miss =>
    let r := s.walk (tlbDie u) ctx asid va
    let w : WalkResult := match r with | .inl e => ⟨asid, va / 65536, some e, 0⟩ | .inr m => ⟨asid, va / 65536, none, m⟩
    let s1 := match r with | .inl e => s.tlbFill u e | .inr _ => s
    (s1.withWalk u w acc user task va n, s1)
  | r => (r, s)

/-- The attributes of a translated page. -/
def pageAttr (e : TlbEntry) : PageAttr := ⟨leafMs e.leaf, leafSysatom e.leaf, leafKey e.leaf⟩

/-- Pages of 64 KiB that a range touches. -/
def pagesOf (va n : Nat) : List Nat :=
  if n = 0 then [] else (List.range ((va + n - 1) / 65536 - va / 65536 + 1)).map fun k =>
    if k = 0 then va else (va / 65536 + k) * 65536

/-- Bytes of a range in the 64 KiB page of one of its addresses. -/
def inPage (va endd p : Nat) : Nat := min endd ((p / 65536 + 1) * 65536) - max va p

/-- The fault code of a step that waits for a walk, and is taken again. -/
def noFault : Nat := 0

/-- Bytes of virtual memory read by a unit, page by page (R267, R277), as accesses of stream id 63 (R253): the bytes, or the
first fault with its DETAIL and address. -/
def State.readVa (s : State) (who : Waiter) (u : TlbUnit) (ctx : BitVec 10) (asid : BitVec 16) (user : Bool) (task : Option Nat)
    (va n : Nat) : (List Byte ⊕ (Nat × Nat × Nat)) × State :=
  (pagesOf va n).foldl (fun (r : (List Byte ⊕ (Nat × Nat × Nat)) × State) p =>
    match r with
    | (.inr f, s) => (.inr f, s)
    | (.inl bs, s) =>
      let k := inPage va (va + n) p
      match s.translate who u ctx asid .read user task p k with
      | (.ok pa e, s1) =>
        match s1.ownedIn (pageAttr e) pa k with
        | some a => (.inr (noFault, 0, p), s1.snoop a)
        | none =>
          let s2 := s1.touchRead (tlbDie u) pa k (s1.mark ctx 63 false (pageAttr e))
          if s2.spoilt (tlbDie u) none pa k then (.inr (0x16, 0, p), s2) else (.inl (bs ++ s2.bytesAt (tlbDie u) pa k), s2)
      | (.bad c det, s1) => (.inr (c, det, p), s1)
      | (.miss, s1) => (.inr (noFault, 0, p), s1)) (.inl [], s)

end Sys2Proof.Machine
end

