-- ==== Sys2Proof/Machine/Ops.lean ====
section
/-! DEFINITION. The named operations over strands: registers, status fields, taking a trap and returning from one
(R199, R200, R408), fault records (R227, R228), completing an instruction at issue (R185, R206, R207), outstanding
operations and their arcs (R83, R189), handles and commands (R190, R191). -/

namespace Sys2Proof.Machine

/-! ### Strands and registers -/

/-- A strand by its package number (R17); a strand not listed is as reset. -/
def State.strand (s : State) (n : Nat) : Strand := lookupD s.seqs.strands n Strand.reset

/-- The state with a strand replaced. -/
def State.setStrand (s : State) (n : Nat) (t : Strand) : State :=
  { s with seqs := { s.seqs with strands := insertD s.seqs.strands n t } }

/-- The strand that acts. -/
def State.cur (s : State) : Strand := s.strand s.focus.strand

/-- The state with the acting strand replaced. -/
def State.setCur (s : State) (t : Strand) : State := s.setStrand s.focus.strand t

/-- The die of the acting strand. -/
def State.curDie (s : State) : Nat := s.focus.strand / 64

/-- The die of a strand. -/
def dieOf (n : Nat) : Nat := n / 64

/-- The core of a strand: die × 16 + sequencer. -/
def coreOf (n : Nat) : Nat := n / 4

/-- The TLB of a strand's core (R244). -/
def tlbOf (n : Nat) : TlbUnit := .core (n / 64) (n / 4 % 16)

/-- A register read: g0 reads zero (R54, R194). -/
def Strand.reg (t : Strand) (r : GReg) : DWord := if r = 0 then 0 else t.g[r.toNat]'r.isLt

/-- A register written at once: a write to g0 is discarded (R54, R194). -/
def Strand.setReg (t : Strand) (r : GReg) (v : DWord) : Strand :=
  if r = 0 then t else { t with g := t.g.set r.toNat v r.isLt }

/-- A result of a fixed latency L, issued in a cycle (R187): written at the end of cycle + L − 1. With L = 1 it is in
the register for the next instruction, and it prevails over an earlier result that completes by then. -/
def Strand.result (t : Strand) (cycle L : Nat) (r : GReg) (v : DWord) : Strand :=
  if L ≤ 1 then { t with writes := t.writes.filter fun w => !(w.1 = r && decide (w.2.2 ≤ cycle)) }.setReg r v
  else { t with writes := t.writes ++ [(r, v, cycle + L - 1)] }

/-- The results of a list written in order. -/
def Strand.commitList (t : Strand) : List (GReg × DWord × Nat) → Strand
  | [] => t
  | (r, v, _) :: ws => (t.setReg r v).commitList ws

/-- The results due by the end of a cycle written (R187). -/
def Strand.commit (t : Strand) (cycle : Nat) : Strand :=
  { t with writes := t.writes.filter fun w => !decide (w.2.2 ≤ cycle) }.commitList
    (t.writes.filter fun w => decide (w.2.2 ≤ cycle))

/-- Every fixed-latency result written, in the order in which they complete. -/
def Strand.drain (t : Strand) : Strand :=
  { t with writes := [] }.commitList (sortBy (fun a b => decide (a.2.2 ≤ b.2.2)) t.writes)

/-- The cycle after which no fixed-latency result is outstanding. -/
def Strand.drainedAt (t : Strand) (cycle : Nat) : Nat := t.writes.foldl (fun a w => max a w.2.2) cycle

/-! ### STATUS (R196) -/

/-- PRV: true in supervisor mode. -/
def Strand.sup (t : Strand) : Bool := t.status.getLsbD 7
/-- AE. -/
def Strand.ae (t : Strand) : Bool := t.status.getLsbD 6
/-- LBASE. -/
def Strand.lbase (t : Strand) : Nat := field t.status 12 10
/-- PLBASE. -/
def Strand.plbase (t : Strand) : Nat := field t.status 15 13
/-- LDEPTH. -/
def Strand.ldepth (t : Strand) : Nat := t.loops.length

/-- STATUS from its fields (R196). -/
def statusOf (plbase lbase : Nat) (pprv prv ae pae : Bool) : DWord :=
  BitVec.ofNat 64 (plbase % 8 * 8192 + lbase % 8 * 1024 + pprv.toNat * 256 + prv.toNat * 128 + ae.toNat * 64 + pae.toNat * 32)

/-- STATUS after a trap entry (R199). -/
def Strand.statusTrap (t : Strand) : DWord := statusOf t.lbase t.ldepth t.sup true false t.ae

/-- STATUS after `eret` (R200): PRV and AE return, LBASE takes PLBASE; the saved fields stay. -/
def Strand.statusEret (t : Strand) : DWord :=
  statusOf t.plbase t.plbase (t.status.getLsbD 8) (t.status.getLsbD 8) (t.status.getLsbD 5) (t.status.getLsbD 5)

/-! ### Fault records (R228) -/

/-- WHO of a strand (R228). -/
def whoStrand (n : Nat) : Nat := n % 64
/-- WHO of an element (R228). -/
def whoElem (e : ElemId) : Nat := e.row * 128 + e.col

/-- A fault record of 32 bytes in eight words (R228). -/
def recordWords (code flags mkind die who : Nat) (asid : BitVec 16) (tctx : Nat) (ctx : BitVec 10) (detail : Nat)
    (addr item : DWord) : List Word :=
  [BitVec.ofNat 32 (die % 8 * 2 ^ 20 + mkind % 16 * 2 ^ 16 + flags % 256 * 256 + code % 256), BitVec.ofNat 32 who,
   BitVec.ofNat 32 (asid.toNat * 65536 + tctx % 4 * 4096 + ctx.toNat), BitVec.ofNat 32 detail,
   addr.extractLsb' 0 32, addr.extractLsb' 32 32, item.extractLsb' 0 32, item.extractLsb' 32 32]

/-- FLAGS bit 9 as `recordWords` takes it: PARTIAL. -/
def flagPartial : Nat := 2
/-- FLAGS bit 10: TRANSIENT. -/
def flagTransient : Nat := 4
/-- FLAGS bit 11: LASTING. -/
def flagLasting : Nat := 8
/-- FLAGS bit 12: KILLED. -/
def flagKilled : Nat := 16

/-- A record handed to its context's fault queue (R227), for the command that it ends, or 0; it is enqueued by the event
FAULT_RECORD_POST. -/
def State.postFor (s : State) (cmd : Nat) (ctx : BitVec 10) (die : Nat) (asid : BitVec 16) (words : List Word) : State :=
  { s with ctxs := { s.ctxs with records := s.ctxs.records ++ [⟨ctx, die, asid, words, s.clock die, cmd⟩] } }

/-- The master of a record: MKIND, DIE and WHO (R228). -/
def FaultRec.master (r : FaultRec) : Nat × Nat × Nat :=
  let w := ((r.words[0]?).getD 0).toNat
  (w / 2 ^ 16 % 16, w / 2 ^ 20 % 8, ((r.words[1]?).getD 0).toNat)

/-- Whether a record of a master waits to be queued: the master stays paused (R227). -/
def State.recordWaits (s : State) (m : Nat × Nat × Nat) : Bool := s.ctxs.records.any fun r => r.master = m

/-- A record that ends no command. -/
def State.post (s : State) (ctx : BitVec 10) (die : Nat) (asid : BitVec 16) (words : List Word) : State :=
  s.postFor 0 ctx die asid words

/-- A record sent to the host mailbox: the event log keeps 4,095 records, then counts (R400). -/
def State.postHost (s : State) (words : List Word) : State :=
  { s with outer := { s.outer with mgmt :=
      let m := s.outer.mgmt
      if m.log.length < 4095 then { m with log := m.log ++ [words] } else { m with lost := m.lost + 1 } } }

/-- A record of a strand (MKIND 0). -/
def State.postStrand (s : State) (n code flags detail : Nat) (addr item : DWord) : State :=
  let t := s.strand n
  s.post t.ctx (dieOf n) t.asid
    (recordWords code flags 0 (dieOf n) (whoStrand n) t.asid 0 t.ctx detail addr item)

/-! ### Taking a trap and returning (R199, R200, R408) -/

/-- The trap state written and the handler entered: fixed-latency results first, then EPC, ECAUSE, EADDR, EINFO and
STATUS as R199 gives; the PC takes TVEC. -/
def Strand.enter (t : Strand) (cycle : Nat) (epc cause addr info : DWord) : Strand :=
  let t' := t.drain
  { t' with epc := epc, ecause := cause, eaddr := addr, einfo := info, status := t.statusTrap, pc := t.tvec,
            readyAt := t.drainedAt cycle + 1, atTvec := true, progress := none, got := none, walked := none,
            yieldTo := none }

/-- Whether a cause comes with a faulting address: all but ILLEGAL, PRIV, LOOPDEPTH and TRAP (R199). -/
def causeHasAddr (cause : DWord) : Bool := !([0x01, 0x02, 0x0D, 0x18].contains (field cause 7 0))

/-- FLAGS bit 8 as `recordWords` takes it: STRADDLE. -/
def flagStraddle : Nat := 1

/-- A trap of a strand in place of an instruction (R199). If the instruction is the first from TVEC after a trap entry,
the strand writes the trap state with EPC = TVEC, halts with its resume point at TVEC, and one record goes to the
context's fault queue (R408). -/
def State.trapAt (s : State) (n : Nat) (epc cause addr info : DWord) : State :=
  let t := s.strand n
  if t.atTvec then
    (s.setStrand n { t.enter s.cycle t.tvec cause addr info with run := .halted, atTvec := false }).postStrand n
      (field cause 7 0) (if cause.getLsbD 14 then flagStraddle else 0) 0 (if causeHasAddr cause then addr else t.tvec) t.tvec
  else s.setStrand n (t.enter s.cycle epc cause addr info)

/-- A trap of the acting strand with EPC at its instruction (R199). -/
def State.trap (s : State) (cause addr info : DWord) : State := s.trapAt s.focus.strand s.cur.pc cause addr info

/-- ILLEGAL with EINFO the word (R58). -/
def State.trapIllegal (s : State) : State := s.trap 0x01 0 (s.focus.word.setWidth 64)
/-- PRIV with EINFO the word (R199). -/
def State.trapPriv (s : State) : State := s.trap 0x02 0 (s.focus.word.setWidth 64)

/-- EINFO of a memory fault: access size code and write bit (R199). -/
def memInfo (size : Nat) (write : Bool) : DWord := BitVec.ofNat 64 (size % 4 + (if write then 4 else 0))

/-- A strand halted by a region violation, to issue again on thaw; the record goes to its context (R225). -/
def State.violateStrand (s : State) (n flags detail : Nat) (addr : DWord) : State :=
  let t := s.strand n
  let s1 := s.postStrand n 0x09 flags detail addr t.pc
  let s2 := s1.setStrand n { t with run := .halted, progress := none, got := none, walked := none }
  { s2 with ctxs := { s2.ctxs with frozen := s2.ctxs.frozen ++ [⟨t.ctx, 0, dieOf n, whoStrand n⟩] } }

/-- The outcome of a failing translation of the acting strand: REGION_VIOLATION halts it, any other fault traps
(R199, R225). -/
def State.memFault (s : State) (code detail : Nat) (addr : DWord) (size : Nat) (write : Bool) : State :=
  if code = 0x09 then s.violateStrand s.focus.strand 0 detail addr
  else s.trap (BitVec.ofNat 64 code) addr (memInfo size write)

/-- `eret` (R200): PC, PRV and AE return, loops that the handler began are discarded. -/
def Strand.leave (t : Strand) : Strand :=
  { t with pc := t.epc, status := t.statusEret, loops := t.loops.take t.lbase }

/-! ### Completing an instruction (R185, R186, R206, R207) -/

/-- The loop test of R207 at the end of an instruction at `pc`: the next PC and the stack. Entries below `base` are
not tested. The list is the stack, top first. -/
def loopBack (pc : DWord) (base : Nat) : List LoopEntry → Option DWord × List LoopEntry
  | [] => (none, [])
  | e :: rest =>
    if rest.length < base then (none, e :: rest)
    else if e.last = pc then
      (if 1 < e.count.toNat then (some e.start, { e with count := e.count - 1 } :: rest) else loopBack pc base rest)
    else (none, e :: rest)

/-- The entries popped by a taken branch or a jump that leaves them (R207). The list is the stack, top first. -/
def loopLeave (pc target : DWord) (base : Nat) : List LoopEntry → List LoopEntry
  | [] => []
  | e :: rest =>
    if rest.length < base then e :: rest
    else
      let inside (x : DWord) : Bool := decide (e.start.toNat ≤ x.toNat) && decide (x.toNat ≤ e.last.toNat)
      if inside pc && !inside target then loopLeave pc target base rest else e :: rest

/-- The strand after an instruction of `len` bytes completes without a taken branch (R185, R207). -/
def Strand.advance (t : Strand) (cycle : Nat) (q : Issue) (len : Nat) : Strand :=
  let r := loopBack t.pc t.lbase t.loops.reverse
  { t with pc := r.1.getD (t.pc + BitVec.ofNat 64 len), loops := r.2.reverse, readyAt := cycle + 1 + q.gap.toNat,
           atTvec := false, progress := none, got := none, walked := none }

/-- The strand after a taken branch or jump (R185, R207); `leave` for those that pop loops. -/
def Strand.jump (t : Strand) (cycle : Nat) (q : Issue) (target : DWord) (leave : Bool) : Strand :=
  { t with pc := target, loops := if leave then (loopLeave t.pc target t.lbase t.loops.reverse).reverse else t.loops,
           readyAt := max (cycle + 1 + q.gap.toNat) (cycle + 3), atTvec := false, progress := none, got := none,
           walked := none }

/-- The core records which strand issued, with its SW, and in which cycle (R186). -/
def State.issued (s : State) (q : Issue) : State :=
  let c := coreOf s.focus.strand
  let k := s.core c
  let s1 := s.setCore c { k with last := s.focus.strand % 4, lastSw := q.sw, used := s.cycle + 1 }
  -- a strand that yielded has seen this one issue (R230)
  let seen (p : Nat × Strand) : Nat × Strand :=
    if coreOf p.1 = c && p.1 != s.focus.strand then
      (p.1, { p.2 with yieldTo := p.2.yieldTo.map fun y => (y.1, y.2.filter (· != s.focus.strand)) })
    else p
  { s1 with seqs := { s1.seqs with strands := s1.seqs.strands.map seen } }

/-- The acting strand, changed by its instruction, completes it and goes on (R185, R207). -/
def State.done (s : State) (q : Issue) (len : Nat) (f : Strand → Strand) : State :=
  (s.setCur ((f s.cur).advance s.cycle q len)).issued q

/-- The acting strand, changed by its instruction, goes to a target (R205). -/
def State.goto (s : State) (q : Issue) (target : DWord) (leave : Bool) (f : Strand → Strand) : State :=
  (s.setCur ((f s.cur).jump s.cycle q target leave)).issued q

/-! ### Outstanding operations (R83, R188, R189) -/

/-- Whether an operation has performed for its successors: its step is taken, and its die covers its stamp (R94). -/
def State.opDone (s : State) (d : Nat) (o : Op) : Bool :=
  o.result.isSome && (match o.stamp with | some c => (s.clock d).covers c | none => true)

/-- The operations of a strand that have not performed. -/
def State.unperformed (s : State) (n : Nat) : List Op := (s.strand n).ops.filter fun o => !s.opDone (dieOf n) o

/-- Whether an event with these arcs into it may perform. -/
def State.depsMet (s : State) (n : Nat) (deps : List Nat) : Bool :=
  !((s.unperformed n).any fun o => deps.contains o.id)

/-- The bytes of memory an operation touches; `evsch` reads a table of 256 bytes (R253). -/
def OpKind.range : OpKind → Nat × Nat
  | .load pa n _ _ _ => (pa, n)
  | .store pa n _ _ _ => (pa, n)
  | .atomic _ pa n _ _ _ => (pa, n)
  | .evsch _ pa _ => (pa, 256)
  | _ => (0, 0)

/-- Whether an operation is a read or an atomic (R83, KIND 1): among them the reads of an image by `place` and of a schedule's
table by `evsch`. -/
def OpKind.isRead : OpKind → Bool
  | .load .. => true
  | .atomic .. => true
  | .place .. => true
  | .evsch .. => true
  | _ => false

/-- The virtual bytes of an operation: cache maintenance names its range, and `place` its image header, by virtual
address (R213, R276). -/
def OpKind.vrange (va : Nat) : OpKind → Nat × Nat
  | .cmo _ _ a n => (a, n)
  | .place image _ => (image, 2 ^ 32)
  | k => (va, k.range.2)

/-- Whether two operations touch a byte in common (R83): by physical address, or by virtual address where one of them
names its bytes so. -/
def sameBytes (k : OpKind) (va : Nat) (o : Op) : Bool :=
  match k, o.kind with
  | .cmo _ _ _ _, _ | _, .cmo _ _ _ _ | .place _ _, _ | _, .place _ _ =>
    let a := k.vrange va
    let b := o.kind.vrange o.va
    overlaps a.1 a.2 b.1 b.2
  | _, _ => overlaps k.range.1 k.range.2 o.kind.range.1 o.kind.range.2

/-- The arcs into a new event of a strand (R83): same location, earlier acquiring reads, acquire fences, and every
earlier event for a releasing one. -/
def State.arcsInto (s : State) (n : Nat) (k : OpKind) (va : Nat) (release : Bool) : List Nat :=
  (s.strand n).acqArcs ++ ((s.unperformed n).filter fun o => release || o.acq || sameBytes k va o).map Op.id

/-- Number of outstanding operations or commands of a class (R189). -/
def Strand.outstanding (t : Strand) (c : OpClass) : Nat :=
  (t.ops.filter fun o => o.cls = c).length + (t.handles.filter fun h => h.cls = c && h.st = .busy).length

/-- An operation issued by the acting strand (R83, R188). -/
def State.addOp (s : State) (kind : OpKind) (dst : GReg) (cls : OpClass) (scope : Option Scope) (acq rel vals : Bool)
    (va : Nat) : State :=
  let t := s.cur
  let o : Op := { id := s.serial, kind := kind, dst := dst, cls := cls, deps := s.arcsInto s.focus.strand kind va rel,
                  scope := scope, acq := acq, vals := vals, pc := t.pc, va := va,
                  due := s.cycle + 1 + Config.latency s.serial, before := none, stamp := none, result := none }
  { s.setCur { t with ops := t.ops ++ [o] } with serial := s.serial + 1 }

/-- Whether a register awaits an outstanding asynchronous operation; a memory event that uses it as address or data
waits for it at issue (R83, last row; log 13). -/
def Strand.awaits (t : Strand) (r : GReg) : Bool := r != 0 && t.ops.any fun o => o.vals && o.dst = r

/-! ### Handles and commands (R190, R191, R347) -/

/-- The slot of a strand by number. -/
def Strand.handle (t : Strand) (k : Nat) : Option Handle := t.handles.find? fun h => h.slot = k

/-- The lowest-numbered slot that is unused or has completed (R190, R347). -/
def Strand.freeSlot (t : Strand) : Option Nat :=
  (List.range 64).find? fun k => match t.handle k with | none => true | some h => h.st != .busy

/-- The generation of a slot's next use (R347): 1, rising, 1 again after 65,535. -/
def Strand.nextGen (t : Strand) (k : Nat) : BitVec 16 :=
  match t.handle k with
  | none => 1
  | some h => if h.gen = 0xFFFF then 1 else h.gen + 1

/-- STRAND of a handle (R190): the strand's number in its die where five bits hold it (log 21). -/
def handleStrand (n : Nat) : Nat := if n % 64 < 32 then n % 64 else (Config.handleStrand (n % 64)).toNat

/-- A handle value (R190). -/
def handleValue (n : Nat) (slot : Nat) (gen : BitVec 16) : DWord :=
  BitVec.ofNat 64 (gen.toNat * 65536 + dieOf n * 8192 + handleStrand n * 256 + slot)

/-- The slot that a value names on a strand, or none when it reads expired (R191). -/
def Strand.lookupHandle (t : Strand) (n : Nat) (v : DWord) : Option Handle :=
  (t.handle (field v 5 0)).filter fun h => v = handleValue n h.slot h.gen

/-- A strand with one handle slot replaced. -/
def Strand.setHandle (t : Strand) (h : Handle) : Strand :=
  { t with handles := (t.handles.filter fun k => k.slot != h.slot) ++ [h] }

/-- A command accepted from the acting strand (R88, R190): its issue is a release, so every earlier event has an arc
into it. The handle is written to the destination with latency 1; with no free slot the caller has stalled. -/
def State.addCmd (s : State) (kind : CmdKind) (cls : OpClass) (dst : GReg) (pages : List TlbEntry) : State :=
  let t := s.cur
  let n := s.focus.strand
  let slot := t.freeSlot.getD 0
  let gen := t.nextGen slot
  let c : Cmd := { id := s.serial, kind := kind, strand := n, slot := some slot, die := dieOf n, ctx := t.ctx,
                   asid := t.asid, user := !t.sup, task := t.task, deps := s.arcsInto n (.value 0) 0 true,
                   due := s.cycle + 1 + Config.latency s.serial, at_ := 0, began := false, pages := pages,
                   writes := [], strm := none, ended := none, paused := false, unit := dieOf n * 64, count := 0 }
  let t1 := (t.setHandle ⟨slot, gen, s.serial, kind, cls, .busy, 0, 0⟩).result s.cycle 1 dst (handleValue n slot gen)
  { s.setCur t1 with engs := { s.engs with cmds := s.engs.cmds ++ [c] }, serial := s.serial + 1 }

/-- A command by number. -/
def State.cmd (s : State) (id : Nat) : Option Cmd := s.engs.cmds.find? fun c => c.id = id

/-- The state with a command changed. -/
def State.modCmd (s : State) (id : Nat) (f : Cmd → Cmd) : State :=
  { s with engs := { s.engs with cmds := s.engs.cmds.map fun c => if c.id = id then f c else c } }

/-- The handle value of a command of a strand. -/
def State.slotHandle (s : State) (c : Cmd) : DWord :=
  match c.slot with
  | none => 0
  | some k => match (s.strand c.strand).handle k with
    | some h => if h.cmd = c.id then handleValue c.strand k h.gen else 0
    | none => 0

/-- The handle value of a command, for ITEM of its record (R228): of a bank task, that of its launch. -/
def State.cmdHandle (s : State) (c : Cmd) : DWord :=
  match c.slot with
  | some _ => s.slotHandle c
  | none =>
    match s.tasks.tasks.find? fun t => t.bank = some c.id with
    | some t => t.item
    | none => 0

/-- A command's events have ended, with a fault code or 0; HANDLE_COMPLETE writes its handle once the writes that its die
has performed stand in the image of the strand's die (R89). -/
def State.endCmd (s : State) (id code : Nat) : State := s.modCmd id fun c =>
  if c.ended.isSome then c
  else { c with ended := some code, writes := (s.mem.pending.filter fun w => w.src = c.unit / 64).map WriteEv.id }

/-! ### The translation of a strand's access -/

/-- The translation of an access of the acting strand: the walk result it waited for, else its core's TLB (R201, R244). -/
def State.curTranslate (s : State) (acc : Access) (va n : Nat) : Tr :=
  let t := s.cur
  match t.walked with
  | some w =>
    if w.va = va / 65536 then
      s.withWalk (tlbOf s.focus.strand) w acc (!t.sup) t.task va n
    else s.lookup (tlbOf s.focus.strand) t.asid acc (!t.sup) t.task va n
  | none => s.lookup (tlbOf s.focus.strand) t.asid acc (!t.sup) t.task va n

/-- The acting strand stalls at issue for a walk (R201). -/
def State.curWalk (s : State) (va : Nat) : State :=
  s.requestWalk (.strand s.focus.strand) (tlbOf s.focus.strand) s.cur.ctx s.cur.asid va

/-- A stall at issue: nothing is issued, the instruction is tried again (R185). -/
def State.stall (s : State) : State := s

/-- The clock of the acting strand's die when its instruction first reached issue, kept while it stalls (R91, R94). -/
def State.reqClock (s : State) : Clock :=
  match s.cur.progress with
  | some p => p.clock
  | none => s.clock s.curDie

/-- The event number at which the acting strand's instruction first reached issue, kept while it stalls (R91). -/
def State.reqSerial (s : State) : Nat := (s.cur.progress.map Progress.id).getD s.serial

/-- The acting strand's progress at issue recorded. -/
def State.setProgress (s : State) (stage : Nat) (v : DWord) : State :=
  s.setCur { s.cur with progress := some ⟨s.reqSerial, s.reqClock, stage, v, []⟩ }

/-- How far the acting strand's instruction is at issue. -/
def State.stage (s : State) : Nat := (s.cur.progress.map Progress.stage).getD 0

end Sys2Proof.Machine
end

