-- ==== Sys2Proof/Machine/Operands.lean ====
section
/-! DEFINITION. The operand forms of element instructions (03_encodings.md R63, R64) and a firing (05_fabric.md R99 to
R105, R123): sources, destinations, the reservation of outputs, and completion. -/

namespace Sys2Proof.Machine

/-! ### Elements -/

/-- An element of a table keyed by (die, row, column). -/
def findElem : List (ElemId × Elem) → ElemId → Elem
  | [], _ => Elem.reset
  | (k, v) :: t, e => if k = e then v else findElem t e

/-- The table with an element set. -/
def putElem : List (ElemId × Elem) → ElemId → Elem → List (ElemId × Elem)
  | [], e, v => [(e, v)]
  | (k, w) :: t, e, v => if k = e then (k, v) :: t else (k, w) :: putElem t e v

/-- An element; one not listed is as reset. -/
def State.elem (s : State) (e : ElemId) : Elem := findElem s.fab.elems e

/-- The state with an element replaced. -/
def State.setElem (s : State) (e : ElemId) (v : Elem) : State :=
  { s with fab := { s.fab with elems := putElem s.fab.elems e v } }

/-- The state with an element changed. -/
def State.modElem (s : State) (e : ElemId) (f : Elem → Elem) : State := s.setElem e (f (s.elem e))

/-- The element with its plane changed. -/
def Elem.modPl (v : Elem) (f : Plane4K → Plane4K) : Elem := { v with pl := f v.pl }

/-- A trigger context of a plane. -/
def Plane4K.ctx (p : Plane4K) (c : Nat) : TCtx := p.ctxs[c % 4]'(Nat.mod_lt _ (by decide))

/-- The plane with a trigger context replaced. -/
def Plane4K.setCtx (p : Plane4K) (c : Nat) (t : TCtx) : Plane4K :=
  { p with ctxs := p.ctxs.set (c % 4) t (Nat.mod_lt _ (by decide)) }

/-- An input queue of a plane. -/
def Plane4K.inq (p : Plane4K) (c : Nat) : List Entry := p.ins[c % 4]'(Nat.mod_lt _ (by decide))

/-- The plane with an input queue replaced. -/
def Plane4K.setIn (p : Plane4K) (c : Nat) (q : List Entry) : Plane4K :=
  { p with ins := p.ins.set (c % 4) q (Nat.mod_lt _ (by decide)) }

/-- An output queue of a plane: false o0, true o1. -/
def Plane4K.outq (p : Plane4K) (o : Bool) : List OutEntry := p.outs[o.toNat]'(by cases o <;> decide)

/-- The plane with an output queue replaced. -/
def Plane4K.setOut (p : Plane4K) (o : Bool) (q : List OutEntry) : Plane4K :=
  { p with outs := p.outs.set o.toNat q (by cases o <;> decide) }

/-- The element that fires. -/
def State.curElem (s : State) : Elem := s.elem s.focus.elem

/-- The trigger context that fires. -/
def State.curCtx (s : State) : TCtx := s.curElem.pl.ctx s.focus.ctx

/-- A token's word in lane l, of a token whose other parts are given. -/
def Token.data1 (f : Nat → Word) (tag : BitVec 3) : Token := ⟨lanes f, tag, false⟩

/-! ### Sources (R64) -/

/-- The head of an input queue that READY can see in this cycle (R103). -/
def State.head (s : State) (c : BitVec 2) : Option Token :=
  match s.curElem.pl.inq c.toNat with
  | [] => none
  | e :: _ => if e.at_ < s.cycle then some e.tok else none

/-- The channel that a source names. -/
def chanOf : Src → Option (BitVec 2)
  | .take c => some c
  | .keep c => some c
  | _ => none

/-- The channel whose head a source consumes. -/
def takesOf : Src → Option (BitVec 2)
  | .take c => some c
  | _ => none

/-- `here` in lane l (R18). -/
def hereWord (e : ElemId) (ctx l : Nat) : Word :=
  BitVec.ofNat 32 (e.die % 8 * 2 ^ 29 + e.row % 64 * 2 ^ 23 + e.col % 128 * 2 ^ 16 + ctx % 4 * 2 ^ 14 + l % 8 * 2 ^ 11)

/-- A register of a context. -/
def TCtx.reg (t : TCtx) (n : XReg) : Data256 := t.x[n.toNat]'n.isLt

/-- A context with a register written. -/
def TCtx.setReg (t : TCtx) (n : XReg) (v : Data256) : TCtx := { t with x := t.x.set n.toNat v n.isLt }

/-- A predicate of a context: bit l is lane l. -/
def TCtx.pred (t : TCtx) (n : PReg) : BitVec 8 := t.p[n.toNat]'n.isLt

/-- A context with a predicate written. -/
def TCtx.setPred (t : TCtx) (n : PReg) (v : BitVec 8) : TCtx := { t with p := t.p.set n.toNat v n.isLt }

/-- The value of a source in all lanes (R64); an empty channel reads zero, which a firing never meets (R101). -/
def State.src (s : State) : Src → Data256
  | .reg n => s.curCtx.reg n
  | .take c => ((s.head c).map Token.data).getD 0
  | .keep c => ((s.head c).map Token.data).getD 0
  | .lane => lanes fun l => BitVec.ofNat 32 l
  | .here => lanes fun l => hereWord s.focus.elem s.focus.ctx l
  | .zero => 0

/-- Whether a source can be read: a channel holds a token. -/
def State.srcReady (s : State) (a : Src) : Bool :=
  match chanOf a with
  | none => true
  | some c => (s.head c).isSome

/-! ### Destinations and firing (R101, R103, R123) -/

/-- Whether a destination names o0 (false) or o1 (true). -/
def dstNames (d : Dst) (o : Bool) : Bool :=
  match d with
  | .o0 => !o
  | .o1 => o
  | .both => true
  | _ => false

/-- The register a destination names. -/
def dstReg : Dst → Option XReg
  | .reg n => some n
  | _ => none

/-- Entries of an output queue that count as taken in a cycle: those it holds, and one whose token left in it (R101). -/
def Plane4K.outUsed (p : Plane4K) (o : Bool) (cycle : Nat) : Nat :=
  (p.outq o).length + (if p.freed[o.toNat]'(by cases o <;> decide) = cycle + 1 then 1 else 0)

/-- Whether every output that a destination names has a free entry (R101, R105). -/
def State.dstReady (s : State) (d : Dst) : Bool :=
  (!(dstNames d false) || decide (s.curElem.pl.outUsed false s.cycle < 2)) &&
  (!(dstNames d true) || decide (s.curElem.pl.outUsed true s.cycle < 2))

/-- Whether the context that acts may fire an instruction with these operands: none in flight, a token in every
channel it names, a free entry in every output (R101). -/
def State.mayFire (s : State) (d : Dst) (srcs : List Src) : Bool :=
  s.curCtx.fly.isNone && srcs.all s.srcReady && s.dstReady d

/-- The channels that a list of sources takes, each once (R64). -/
def takenBy (srcs : List Src) : List (BitVec 2) := (srcs.filterMap takesOf).eraseDups

/-- The landing slots of an input queue (R105). -/
def Plane4K.landq (p : Plane4K) (c : Nat) : List Entry := p.land[c % 4]'(Nat.mod_lt _ (by decide))

/-- The plane with the landing slots of an input queue replaced. -/
def Plane4K.setLand (p : Plane4K) (c : Nat) (q : List Entry) : Plane4K :=
  { p with land := p.land.set (c % 4) q (Nat.mod_lt _ (by decide)) }

/-- The head of an input queue dropped; a token of a landing slot stands behind the queue's contents and takes the
entry that frees (R105, R286). -/
def Plane4K.popIn (p : Plane4K) (c : Nat) : Plane4K :=
  match p.landq c with
  | [] => p.setIn c ((p.inq c).drop 1)
  | e :: rest => (p.setIn c ((p.inq c).drop 1 ++ [e])).setLand c rest

/-- The plane with the heads of channels taken (R64). What an ordering token or a permit covers has performed before
the token exists (R150, R172), so the arcs of R151 hold of themselves. -/
def Plane4K.take (p : Plane4K) : List (BitVec 2) → Plane4K
  | [] => p
  | c :: cs => (p.popIn c.toNat).take cs

/-- The plane with an entry reserved in each output that a destination names (R103). -/
def Plane4K.reserve (p : Plane4K) (d : Dst) (ctx : Nat) : Plane4K :=
  let p1 := if dstNames d false then p.setOut false (p.outq false ++ [.reserved ctx]) else p
  if dstNames d true then p1.setOut true (p1.outq true ++ [.reserved ctx]) else p1

/-- A firing of the acting context (R103): heads taken, outputs reserved, the instruction in flight, and the arbiter's
rotation moved past the context (R102). -/
def State.fire (s : State) (d : Dst) (srcs : List Src) (fly : InFlight) : State :=
  s.modElem s.focus.elem fun v =>
    let p := (v.pl.take (takenBy srcs)).reserve d s.focus.ctx
    let t := p.ctx s.focus.ctx
    { v with pl := { p.setCtx s.focus.ctx { t with fly := some fly, waits := [] } with arb := (s.focus.ctx + 1) % 4 },
             idleFor := 0 }

/-- A fired instruction of latency L with its two sources read. -/
def State.flyOf (s : State) (i : Instr) (L : Nat) (a b : Src) : InFlight :=
  { instr := i, slot := s.focus.slot, exec_ := s.focus.lanes, due := s.cycle + L - 1, wait := .no, a := s.src a,
    b := s.src b, regs := [], preds := [], o0 := none, o1 := none, id := 0, clock := s.clock s.focus.elem.die,
    fails := none }

/-- The common action of R123: an instruction of latency L writes r to its destination in the lanes that execute and
updates its predicate; a token carries zero in the other lanes. -/
def State.fireCommon (s : State) (i : Instr) (L : Nat) (d : Dst) (a b : Src) (tg : BitVec 3)
    (preds : List (PReg × BitVec 8 × BitVec 8)) (r : Data256) : State :=
  if s.mayFire d [a, b] then
    let tok : Token := ⟨maskLanes s.focus.lanes r, tg, false⟩
    s.fire d [a, b] { s.flyOf i L a b with
      regs := match dstReg d with | some n => [(n, r, s.focus.lanes)] | none => [],
      preds := preds,
      o0 := if dstNames d false then some tok else none,
      o1 := if dstNames d true then some tok else none }
  else s

/-- The first reserved entry of a context filled with a token (R103, R125). -/
def fillOut (ctx : Nat) (e : Entry) : List OutEntry → List OutEntry
  | [] => []
  | .reserved c :: t => if c = ctx then .filled e :: t else .reserved c :: fillOut ctx e t
  | .filled f :: t => .filled f :: fillOut ctx e t

/-- Register writes of a completing firing. -/
def TCtx.writeRegs (t : TCtx) : List (XReg × Data256 × BitVec 8) → TCtx
  | [] => t
  | (n, v, m) :: ws => (t.setReg n (mergeLanes m v (t.reg n))).writeRegs ws

/-- Predicate writes of a completing firing. -/
def TCtx.writePreds (t : TCtx) : List (PReg × BitVec 8 × BitVec 8) → TCtx
  | [] => t
  | (n, v, m) :: ws => (t.setPred n ((v &&& m) ||| (t.pred n &&& ~~~m))).writePreds ws

/-- A completing firing's output token put into its reserved entry. -/
def Plane4K.emitInto (p : Plane4K) (o : Bool) (ctx cycle : Nat) (t : Option Token) : Plane4K :=
  match t with
  | none => p
  | some tok => p.setOut o (fillOut ctx ⟨tok, cycle⟩ (p.outq o))

/-- The end of cycle t + L − 1 (R103): registers and predicates in the lanes that execute, tokens into their entries. -/
def Plane4K.complete (p : Plane4K) (ctx cycle : Nat) (f : InFlight) : Plane4K :=
  let t := p.ctx ctx
  let p1 := p.setCtx ctx { (t.writeRegs f.regs).writePreds f.preds with fly := none }
  (p1.emitInto false ctx cycle f.o0).emitInto true ctx cycle f.o1

/-- An input queue with a token added at the end of a cycle (R103, R106). -/
def Plane4K.pushIn (p : Plane4K) (c : Nat) (t : Token) (cycle : Nat) : Plane4K := p.setIn c (p.inq c ++ [⟨t, cycle⟩])

/-- The region of an element. -/
def State.regionOf (s : State) (e : ElemId) : Option Region :=
  (s.elem e).region.bind fun r => s.tasks.regions.find? fun g => g.id = r

/-- How many levels of an element's region are frozen below the active one. -/
def State.levelsBelow (s : State) (e : ElemId) : Nat := ((s.regionOf e).map fun g => g.levels.length).getD 0

/-- Whether a fault of an element is reported once its region's task has failed (R388): a queue element is an item of its own. -/
def ownItem (code : Nat) : Bool := code = 0x0A || code = 0x0B

/-- A fault of the acting element's context (R166): one record with the element's coordinates, the context, the offset
and the site or scratch detail, unless an earlier fault has ended the task (R388); nothing is written and the context never
fires again. -/
def State.elemFault (s : State) (e : ElemId) (ctx code : Nat) (detail : Nat) (addr : Nat) : State :=
  match s.regionOf e with
  | none => s.modElem e fun v => v.modPl fun p => p.setCtx ctx { p.ctx ctx with stopped := true, fly := none }
  | some g =>
    let s1 := if g.failed.isSome && !ownItem code then s
      else s.post g.ctx e.die g.asid
        (recordWords code 0 (if e.col % 8 = 3 then 2 else 1) e.die (whoElem e) g.asid ctx g.ctx detail
          (BitVec.ofNat 64 addr) 0)
    let s2 := s1.modElem e fun v => v.modPl fun p =>
      let q := p.setCtx ctx { p.ctx ctx with stopped := true, fly := none }
      -- entries the firing had reserved are given back
      (q.setOut false ((q.outq false).filter (· != .reserved ctx))).setOut true ((q.outq true).filter (· != .reserved ctx))
    { s2 with tasks := { s2.tasks with regions := s2.tasks.regions.map fun h =>
        if h.id = g.id && h.failed.isNone then { h with failed := some code } else h } }

end Sys2Proof.Machine
end

