-- ==== Sys2Proof/Machine/Fetch.lean ====
section
/-! DEFINITION. What a strand does in its turn: readiness (08_sequencer.md R185, R229, R230), fetch through the core's
translations and instruction L1 cache (R199, R201, R220), and decoding (03_encodings.md R58 to R60). -/

namespace Sys2Proof.Machine

/-- Whether a yielding strand is ready again (R230): every strand it waits for has issued, or 4 cycles have passed. -/
def Strand.yielded (t : Strand) (cycle : Nat) : Bool :=
  match t.yieldTo with
  | none => true
  | some (deadline, others) => others.isEmpty || decide (deadline ≤ cycle)

/-- Whether a strand waits for a page-table walk (R201, R244). -/
def State.walking (s : State) (n : Nat) : Bool := s.awaitsWalk (.strand n)

/-- Whether a strand is ready, but for a stall that its instruction finds (R185). A strand whose fault record waits to be queued
is paused (R227). -/
def State.ready (s : State) (n : Nat) : Bool :=
  let t := s.strand n
  t.run = .running && decide (t.readyAt ≤ s.cycle) && t.yielded s.cycle && !s.walking n && !s.recordWaits (0, dieOf n, whoStrand n)

/-- An asynchronous event that a strand can take now: in supervisor mode with AE set (R200), unless an operation of it
is parked, which is cancelled first, or has been committed, which completes first (R326). -/
def State.takable (s : State) (n : Nat) : Bool :=
  let t := s.strand n
  t.sup && t.ae && !t.events.isEmpty && t.got.isNone && !(s.ports.parked.any fun w => w.party = .strand n)

/-- Whether a word of the instruction stream that the acting strand's core does not hold meets an uncorrected error (R392). -/
def State.spoiltCode (s : State) (pa : Nat) : Bool :=
  if (s.core (coreOf s.focus.strand)).i1.any fun l => l.pa = pa / 64 * 64 then
    s.mem.poison.any fun x => x.1 = .l1 s.curDie (coreOf s.focus.strand % 16) && overlaps x.2 4 pa 4
  else s.spoilt s.curDie none pa 4

/-- A word of the instruction stream through the acting strand's core (R220): a line that the instruction L1 cache
does not hold is filled from the die's image, as a read of stream id 63 (R253). -/
def State.codeWord (s : State) (pa : Nat) (m : Mark) : Nat × State :=
  let c := coreOf s.focus.strand
  let at_ (l : Data512) : Nat := (l.toNat >>> (8 * (pa % 64))) % 2 ^ 32
  match (s.core c).i1.find? (fun l => l.pa = pa / 64 * 64) with
  | some l => (at_ l.data, s)
  | none =>
    let s1 := s.touchRead s.curDie (pa / 64 * 64) 64 m
    let data := s1.lineData s1.curDie pa
    let k := s1.core c
    (at_ data, s1.setCore c { k with i1 := k.i1 ++ [⟨pa / 64 * 64, 0, data⟩] })

/-- What a turn comes to: nothing more, an instruction to run, the late trap of a strand (R201), or the asynchronous
event that it takes (R200). -/
inductive Fetched where
  | skip (s : State)
  | run (i : Instr) (s : State)
  | late (n : Nat) (s : State)
  | event (n : Nat) (s : State)

/-- One word fetched at an address (R199): a miss stalls for its walk, a fault is reported with EINFO 0x2, and
`straddle` sets ECAUSE bit 14. -/
def State.fetchWord (s : State) (va : DWord) (straddle : Bool) (k : Nat → State → Fetched) : Fetched :=
  match s.curTranslate .fetch va.toNat 4 with
  | .miss => .skip (s.curWalk va.toNat)
  | .bad code detail =>
    if code = 0x09 then .skip (s.violateStrand s.focus.strand (if straddle then flagStraddle else 0) detail va)
    else .skip (s.trap (BitVec.ofNat 64 (code + if straddle then 0x4000 else 0)) va 2)
  | .ok pa e =>
    match s.ownedIn (pageAttr e) pa 4 with
    | some line => .skip (s.snoop line)
    | none =>
      if s.spoiltCode pa then .skip (s.trap (BitVec.ofNat 64 (0x16 + if straddle then 0x4000 else 0)) va 2)
      else
        let r := s.codeWord pa (s.mark s.cur.ctx 63 false (pageAttr e))
        k r.1 r.2

/-- The instruction at the acting strand's PC (R58 to R60). A PC that is no multiple of 4 traps MISALIGN. -/
def State.fetchAt (s : State) : Fetched :=
  let pc := s.cur.pc
  if pc.extractLsb' 0 2 != 0 then .skip (s.trap 0x03 pc 2)
  else s.fetchWord pc false fun w s1 =>
    let s2 := { s1 with focus := { s1.focus with word := BitVec.ofNat 32 w } }
    match decodeSeq w 0 with
    | .error _ => .skip s2.trapIllegal
    | .ok i =>
      if isLongWord w then
        s2.fetchWord (pc + 4) (decide (pc.toNat / 65536 ≠ (pc + 4).toNat / 65536)) fun w1 s3 =>
          match decodeSeq w w1 with
          | .error _ => .skip s3.trapIllegal
          | .ok j => .run j s3
      else .run i s2

/-- A strand's turn (R185, R186): nothing unless it is ready and its core has not issued in this cycle; a late trap
before its next issue (R201); a pending event it can take (R200); else the instruction at its PC. -/
def State.strandTurn (s : State) (n : Nat) : Fetched :=
  let s1 := { s with focus := { s.focus with strand := n } }
  if !s.ready n || decide ((s.core (coreOf n)).used = s.cycle + 1) then .skip s
  else if (s.strand n).late.isSome then .late n s1
  else if s.takable n then .event n s1
  else s1.fetchAt

end Sys2Proof.Machine
end

