-- ==== Sys2Proof/Machine/Home.lean ====
section
/-! DEFINITION. The controllers of queues and barriers at the home slices (16_queues.md R322 to R328, R336;
17_barriers.md R337 to R340): every operation is one step of the home die on the block or the word. -/

namespace Sys2Proof.Machine

/-! ### The control block (R322, R323) -/

/-- A control block as its home die holds it (R322). -/
structure QBlock where
  head : Nat
  tail : Nat
  free : Nat
  ctl  : Nat
  ring : Nat
  mode : Nat
  chk  : Nat
  pring : Nat
  enqs : Nat
  deqs : Nat
  deriving DecidableEq, Repr

/-- What the controller of a block keeps: of one that no `qinit` has set up, what stands in memory (log 82). -/
def State.qkept (s : State) (d pa : Nat) : QKept :=
  (s.ports.kept.find? fun k => k.pa = pa).getD ⟨pa, s.valAt d (pa + 32) 8, s.valAt d (pa + 48) 8, s.valAt d (pa + 56) 8⟩

/-- The block at an address in a die's image, with what its controller keeps: a write of another to offsets 0x20 to 0x3F is
overwritten at the controller's next step (R322). -/
def State.qblock (s : State) (d pa : Nat) : QBlock :=
  let k := s.qkept d pa
  { head := s.valAt d pa 4, tail := s.valAt d (pa + 4) 4, free := s.valAt d (pa + 8) 4, ctl := s.valAt d (pa + 12) 4,
    ring := s.valAt d (pa + 16) 8, mode := s.valAt d (pa + 24) 4, chk := s.valAt d (pa + 28) 4,
    pring := k.pring, enqs := k.enqs, deqs := k.deqs }

/-- Bits h to l of a number. -/
def bitsOf (v h l : Nat) : Nat := (v >>> l) % 2 ^ (h - l + 1)

/-- ESIZE. -/
def QBlock.esize (b : QBlock) : Nat := bitsOf b.ctl 8 0
/-- Capacity 2^LOGCAP. -/
def QBlock.cap (b : QBlock) : Nat := 2 ^ bitsOf b.ctl 20 16
/-- NOTIFY. -/
def QBlock.notify (b : QBlock) : Bool := bitsOf b.ctl 24 24 = 1
/-- CORRUPT. -/
def QBlock.corrupt (b : QBlock) : Bool := bitsOf b.mode 31 31 = 1
/-- CLOSED. -/
def QBlock.closed (b : QBlock) : Bool := bitsOf b.mode 30 30 = 1
/-- VEC. -/
def QBlock.vec (b : QBlock) : Nat := bitsOf b.mode 26 16
/-- CMODE. -/
def QBlock.cmode (b : QBlock) : Nat := bitsOf b.mode 7 6
/-- PMODE. -/
def QBlock.pmode (b : QBlock) : Nat := bitsOf b.mode 5 4
/-- HOME. -/
def QBlock.home (b : QBlock) : Nat := bitsOf b.mode 2 0
/-- (TAIL − HEAD) mod 2^32. -/
def QBlock.count (b : QBlock) : Nat := (b.tail + 2 ^ 32 - b.head) % 2 ^ 32

/-- CHECK of the static fields (R323). -/
def QBlock.check (b : QBlock) : Nat :=
  0x5A5A ^^^ bitsOf b.ctl 15 0 ^^^ bitsOf b.ctl 31 16 ^^^ bitsOf b.ring 15 0 ^^^ bitsOf b.ring 31 16 ^^^
    bitsOf b.ring 47 32 ^^^ bitsOf b.ring 63 48 ^^^ bitsOf b.mode 15 0 ^^^ (bitsOf b.mode 31 16 &&& 0x3FFF)

/-- The byte offset of the first reserved or illegal static field, CHECK apart (R322, R333). -/
def QBlock.badField (b : QBlock) : Option Nat :=
  if bitsOf b.ctl 31 25 != 0 || bitsOf b.ctl 23 21 != 0 || bitsOf b.ctl 15 9 != 0 || b.esize < 4 || 256 < b.esize ||
      b.esize % 4 != 0 || bitsOf b.ctl 20 16 < 1 || 24 < bitsOf b.ctl 20 16 then some 0x0C
  else if b.ring % 64 != 0 then some 0x10
  else if bitsOf b.mode 29 27 != 0 || bitsOf b.mode 15 8 != 0 || bitsOf b.mode 3 3 != 0 || b.cmode = 3 || b.pmode = 3 then
    some 0x18
  else if bitsOf b.chk 31 16 != 0 then some 0x1C
  else none

/-- The first condition of R323 that a block breaks, numbered as R327 numbers them; 0 for a sound block. -/
def QBlock.unsound (b : QBlock) (pa : Nat) : Nat :=
  if b.badField.isSome then 1
  else if bitsOf b.chk 15 0 != b.check then 2
  else if isHostPa pa || b.home != homeDie pa then 3
  else if b.cap < b.count || b.free + b.count != b.cap then 4
  else 0

/-- The parties parked at a block on a side, oldest first. -/
def State.parkedAt (s : State) (pa : Nat) (side : ParkSide) : List Parked :=
  s.ports.parked.filter fun w => w.pa = pa && w.side = side

/-- Bytes written as events of a die, each performed at once. -/
def State.putBytes (s : State) (d pa : Nat) (bs : List Byte) (m : Mark) : State := s.performSplit d pa (bs.map some) m

/-- A controller's write to its object in a step that counts as an atomic (R95): on an MS page in DRAM, once the home slice has
written back and dropped its copies (R240). -/
def State.putObject (s : State) (d pa : Nat) (bs : List Byte) (m : Mark) : State :=
  if m.ms then ((s.cleanRange pa bs.length).dropRange pa bs.length).atomicInDram pa (bs.map some) m
  else s.performWrite d pa (bs.map some) m false

/-- The block written back by its controller, with the counts of parked parties (R322, R325). -/
def State.putBlock (s : State) (d pa : Nat) (b : QBlock) (m : Mark) : State :=
  let np := min 65535 (s.parkedAt pa .producer).length
  let nc := min 65535 (s.parkedAt pa .consumer).length
  let keep := (toBytes 4 b.ctl ++ toBytes 8 b.ring)
  let s1 := s.putObject d pa (toBytes 4 b.head ++ toBytes 4 b.tail ++ toBytes 4 b.free ++ keep ++ toBytes 4 b.mode ++
    toBytes 4 b.chk ++ toBytes 8 b.pring ++ toBytes 2 nc ++ toBytes 2 np ++ toBytes 4 0 ++ toBytes 8 b.enqs ++
    toBytes 8 b.deqs) m
  { s1 with ports := { s1.ports with kept := (s1.ports.kept.filter fun k => k.pa != pa) ++ [⟨pa, b.pring, b.enqs, b.deqs⟩] } }

/-! ### Answers to parties -/

/-- A token built from bytes (R4). -/
def tokenOf (bs : List Byte) (tag : BitVec 3) : Token := ⟨BitVec.ofNat 256 (leNat (bs.take 32)), tag, false⟩

/-- A packet handed to the row network (R110), which holds as many as there are (log 92): data for i2 or control for i3. `by_` is 0 for an ordinary delivery, 1 for
an enqueue status, 2 for a dequeued element, 3 for a barrier release. -/
def State.sendRow (s : State) (dst : ElemId) (src : Nat) (control : Bool) (load : RowLoad) (by_ : Nat)
    (frees : Option Nat) (clock : Option Clock) (lvl : Nat) : State :=
  { s with fab := { s.fab with packets := s.fab.packets ++
      [⟨s.serial, dst, control, src, load, s.cycle + 1 + Config.latency s.serial, by_, frees, clock, lvl⟩] }, serial := s.serial + 1 }

/-- The task of a level of a region: the one that a pre-emption froze with it or above it, else the region's (R293). -/
def Region.taskAt (g : Region) (lvl : Nat) : Option Nat :=
  ((g.levels.take (g.levels.length - lvl)).reverse.findSome? fun l => match l.kind with
    | .preempt t => some t
    | _ => none).orElse fun _ => g.task

/-- A fault of a trigger context of a level that may be frozen: then the record goes out, and the level's task fails when it
thaws (R389). -/
def State.levelFault (s : State) (e : ElemId) (c lvl code det : Nat) : State :=
  if s.levelsBelow e = lvl then s.elemFault e c code det 0
  else match s.regionOf e with
    | none => s
    | some g =>
      let level := g.levels[g.levels.length - 1 - lvl]?
      let ctx := (level.map Level.ctx).getD g.ctx
      let asid := ((s.tasks.tasks.find? fun t => some t.no = g.taskAt lvl).map Task.asid).getD g.asid
      let s1 := if (level.bind Level.failed).isSome && !ownItem code then s
        else s.post ctx e.die asid (recordWords code 0 1 e.die (whoElem e) asid c ctx det 0 0)
      let mark (l : Level × Nat) : Level := if l.2 = lvl && l.1.failed.isNone then { l.1 with failed := some code } else l.1
      let levels := (g.levels.zip ((List.range g.levels.length).map fun k => g.levels.length - 1 - k)).map mark
      { s1 with tasks := { s1.tasks with regions := s1.tasks.regions.map fun h =>
          if h.id = g.id then { h with levels := levels } else h } }

/-- A context's instruction that waited for a port goes on: it completes two cycles after its wait (R176), once its die covers
the clock that comes with the answer (R94). -/
def State.freeCtx (s : State) (e : ElemId) (ctx : Nat) (clock : Option Clock) : State :=
  s.modElem e fun v => v.modPl fun p =>
    match (p.ctx ctx).fly with
    | some f =>
      let wait : Waiting := if clock.isSome then .stamp else .no
      p.setCtx ctx { p.ctx ctx with fly := some { f with wait := wait, clock := clock.getD f.clock, due := s.cycle + 1 } }
    | none => p

/-- The controller's answer to a parked party (R325, R340): a strand receives it at its next issue; an element's
dequeue brings a token to i2, its enqueue frees the context, its barrier arrival brings a release token to i3; a
failure is the context's fault (R163, R164). -/
def State.answer (s : State) (w : Parked) (r : Delivered) : State :=
  match w.party with
  | .strand n => s.setStrand n { s.strand n with got := some r }
  | .elem e ctx =>
    match r with
    | .failed code det => s.levelFault e ctx w.lvl code det
    | .value v bytes clock =>
      match w.side with
      | .producer => s.freeCtx e ctx clock
      | .consumer => s.sendRow e (w.pa % 64) false (.queue 2 (tokenOf bytes w.tag)) 2 (some ctx) clock w.lvl
      | .barrier => s.sendRow e (w.pa % 64) true (.queue 3 (tokenOf (toBytes 4 v.toNat) w.tag)) 3 none clock w.lvl

/-- A party taken off a waiter list. -/
def State.unpark (s : State) (w : Parked) : State :=
  { s with ports := { s.ports with parked := s.ports.parked.erase w } }

/-- Every party parked at an object released with a failure (R324, R327, R340). -/
def State.releaseAll (s : State) (pa : Nat) (p : Parked → Bool) (code det : Nat) : State :=
  (s.ports.parked.filter fun w => w.pa = pa && p w).foldl (fun s w => (s.unpark w).answer w (.failed code det)) s

/-- A party parked (R325). -/
def State.park (s : State) (w : Parked) : State :=
  { s with ports := { s.ports with parked := s.ports.parked ++ [w] } }

/-! ### Queue steps (R325 to R331) -/

/-- What a queue step answers. -/
inductive QAns where
  | ok (v : DWord) (bytes : List Byte) (clock : Clock)
  | full
  | empty
  | closed
  | parked
  | corrupt (detail : Nat)
  deriving DecidableEq, Repr

/-- The block found unsound is marked CORRUPT and its parked parties are released with QCORRUPT (R327); it is no host work queue any
more (R336). -/
def State.markCorrupt (s : State) (d pa : Nat) (b : QBlock) (det : Nat) (m : Mark) : State :=
  let s1 := s.releaseAll pa (fun w => w.side != .barrier) 0x0A det
  { s1 with ports := { s1.ports with hostq := s1.ports.hostq.filter (· != pa) } }.putBlock d pa { b with mode := b.mode ||| 2 ^ 31 } m

/-- The address of a ring slot (R322, R323). -/
def QBlock.slotPa (b : QBlock) (i : Nat) : Nat := b.pring + (i % b.cap) * b.esize

/-- An element put at TAIL (R330). -/
def QBlock.pushed (b : QBlock) : QBlock :=
  { b with tail := (b.tail + 1) % 2 ^ 32, free := b.free - 1, enqs := (b.enqs + 1) % 2 ^ 64 }

/-- An element taken from HEAD (R331). -/
def QBlock.popped (b : QBlock) : QBlock :=
  { b with head := (b.head + 1) % 2 ^ 32, free := b.free + 1, deqs := (b.deqs + 1) % 2 ^ 64 }

/-- What a dequeue returns in a register: zext of the first min(n, 8) bytes (R331). -/
def elemValue (bs : List Byte) : DWord := BitVec.ofNat 64 (leNat (bs.take 8))

/-- Armed wake-ups of a block delivered once its ring is non-empty (R334), and the host notified (R336). -/
def State.wakeArms (s : State) (pa : Nat) (b : QBlock) (wasEmpty : Bool) : State :=
  if b.count = 0 then s
  else
    let fire (p : Nat × Strand) : Nat × Strand :=
      (p.1, { p.2 with events := p.2.events ++ (p.2.arms.filter fun a => a.1 = pa).map fun a => ⟨3, a.2, none⟩,
                       arms := p.2.arms.filter fun a => a.1 != pa })
    let s1 := { s with seqs := { s.seqs with strands := s.seqs.strands.map fire } }
    if wasEmpty && b.cmode = 2 && b.notify then
      { s1 with ports := { s1.ports with msix := s1.ports.msix ++ [BitVec.ofNat 11 b.vec] } } else s1

/-- The rest of a step that has filled or freed slots (R325): the parked parties that it serves, oldest first, are given their
elements' bytes and the state in which the block is written back; they are answered with the clock after it (R94). -/
structure Served where
  s    : State
  b    : QBlock
  done : List (Parked × DWord × List Byte)
  deriving DecidableEq, Repr

/-- The parked consumer that a filled slot serves (R325). -/
def Served.consumer (r : Served) (d pa : Nat) : Served :=
  match r.s.parkedAt pa .consumer with
  | [] => r
  | w :: _ =>
    if r.b.count = 0 then r
    else
      let bs := r.s.bytesAt d (r.b.slotPa r.b.head) r.b.esize
      ⟨(r.s.unpark w).touchRead d (r.b.slotPa r.b.head) r.b.esize w.mark, r.b.popped, r.done ++ [(w, elemValue bs, bs)]⟩

/-- The parked producer that a freed slot serves (R325). -/
def Served.producer (r : Served) (d pa : Nat) : Served :=
  match r.s.parkedAt pa .producer with
  | [] => r
  | w :: _ =>
    if r.b.free = 0 then r
    else ⟨(r.s.unpark w).putBytes d (r.b.slotPa r.b.tail) w.data w.mark, r.b.pushed, r.done ++ [(w, 0, [])]⟩

/-- The step's end: the block written back, the parties answered, arms and the host told. -/
def Served.finish (r : Served) (d pa : Nat) (wasEmpty : Bool) (m : Mark) : State :=
  let s1 := r.s.putBlock d pa r.b m
  let s2 := r.done.foldl (fun s x => s.answer x.1 (.value x.2.1 x.2.2 (some (s1.clock d)))) s1
  s2.wakeArms pa r.b wasEmpty

/-- One enqueue step at the home of a block (R330): `w` is the party, parked when the ring is full and `blocking`. -/
def State.enqStep (s : State) (w : Parked) (blocking : Bool) : State × QAns :=
  let pa := w.pa
  let d := homeDie pa
  let b := s.qblock d pa
  let bad := b.unsound pa
  if bad != 0 then (s.markCorrupt d pa b bad w.mark, .corrupt bad)
  else if b.corrupt then (s, .corrupt 0)
  else if w.size != b.esize || b.closed then (s, .closed)
  else if b.free = 0 then
    if !blocking then (s, .full)
    else if b.pmode = 0 && !(s.parkedAt pa .producer).isEmpty then (s, .corrupt 8)
    else ((s.park w).putBlock d pa b w.mark, .parked)
  else
    let s1 := s.putBytes d (b.slotPa b.tail) w.data w.mark
    let s2 := (Served.consumer ⟨s1, b.pushed, []⟩ d pa).finish d pa (b.count = 0) w.mark
    (s2, .ok 0 [] (s2.clock d))

/-- One dequeue step at the home of a block (R331). -/
def State.deqStep (s : State) (w : Parked) (blocking : Bool) : State × QAns :=
  let pa := w.pa
  let d := homeDie pa
  let b := s.qblock d pa
  let bad := b.unsound pa
  if bad != 0 then (s.markCorrupt d pa b bad w.mark, .corrupt bad)
  else if b.corrupt then (s, .corrupt 0)
  else if w.size != b.esize then (s, .closed)
  else if b.count = 0 then
    if b.closed then (s, .closed)
    else if !blocking then (s, .empty)
    else if b.cmode = 0 && !(s.parkedAt pa .consumer).isEmpty then (s, .corrupt 8)
    else ((s.park w).putBlock d pa b w.mark, .parked)
  else
    let bs := s.bytesAt d (b.slotPa b.head) b.esize
    let s1 := s.touchRead d (b.slotPa b.head) b.esize w.mark
    let s2 := (Served.producer ⟨s1, b.popped, []⟩ d pa).finish d pa false w.mark
    (s2, .ok (elemValue bs) bs (s2.clock d))

/-- Parties parked at a block released on `qinit` or `qdrain` mode 0 with QCLOSED (R324). -/
def State.releaseQueue (s : State) (pa : Nat) : State := s.releaseAll pa (fun w => w.side != .barrier) 0x0B 0

/-! ### Barriers (R337 to R340) -/

/-- A barrier word (R337). -/
structure BWord where
  phase   : Nat
  count   : Nat
  arrived : Nat
  flags   : Nat
  deriving DecidableEq, Repr

/-- The word at an address in a die's image. -/
def State.bword (s : State) (d pa : Nat) : BWord :=
  { phase := s.valAt d pa 4, count := s.valAt d (pa + 4) 4, arrived := s.valAt d (pa + 8) 4, flags := s.valAt d (pa + 12) 4 }

/-- POISON. -/
def BWord.poisoned (b : BWord) : Bool := bitsOf b.flags 31 31 = 1
/-- PCODE. -/
def BWord.pcode (b : BWord) : Nat := bitsOf b.flags 23 16
/-- SCOPE. -/
def BWord.scope (b : BWord) : Nat := bitsOf b.flags 1 0

/-- Whether a word is sound (R337). -/
def BWord.sound (b : BWord) (pa : Nat) : Bool :=
  bitsOf b.count 31 21 = 0 && bitsOf b.arrived 31 21 = 0 && bitsOf b.flags 30 24 = 0 && bitsOf b.flags 15 5 = 0 &&
    decide (1 ≤ b.count) && decide (b.count ≤ 1048576) && decide (b.arrived < b.count) && !isHostPa pa &&
    bitsOf b.flags 4 2 = homeDie pa

/-- The word written by its controller. -/
def State.putBword (s : State) (d pa : Nat) (b : BWord) (m : Mark) : State :=
  s.putObject d pa (toBytes 4 b.phase ++ toBytes 4 b.count ++ toBytes 4 b.arrived ++ toBytes 4 b.flags) m

/-- The record of who has arrived at a word dropped: a phase ends (R338). -/
def State.endPhase (s : State) (pa : Nat) : State :=
  { s with ports := { s.ports with phases := s.ports.phases.filter fun p => p.pa != pa } }

/-- The word poisoned with a code and every waiter released with BARPOISON (R340, row 4). -/
def State.poison (s : State) (pa code : Nat) (m : Mark) : State :=
  let d := homeDie pa
  let b := s.bword d pa
  let s1 := s.putBword d pa { b with flags := (b.flags % 2 ^ 16) + code % 256 * 65536 + 2 ^ 31 } m
  (s1.releaseAll pa (fun w => w.side = .barrier) 0x0C code).endPhase pa

/-- The task of a party, of a trigger context as it stands on a level of its region. -/
def State.taskOf (s : State) (p : Party) (lvl : Nat) : Option Nat :=
  match p with
  | .strand n => (s.strand n).task
  | .elem e _ => (s.regionOf e).bind fun g => g.taskAt lvl

/-- The die of a party. -/
def partyDie : Party → Nat
  | .strand n => dieOf n
  | .elem e _ => e.die

/-- What an arrival binds a phase to (R338): the task for scope region, the group, or the task without one, for scope
group. -/
def State.bindingOf (s : State) (task : Option Nat) (scope : Nat) : Option Nat :=
  match scope with
  | 0 => task
  | 1 => task.map fun n =>
      match s.tasks.tasks.find? fun t => t.no = n with
      | some t => if t.group = 0 then n else 2 ^ 32 + t.group
      | none => n
  | _ => none

/-- A party's arrival recorded in the phase (R338, R339). -/
def State.noteArrival (s : State) (pa scope : Nat) (p : Party) (lvl : Nat) : State :=
  let task := s.taskOf p lvl
  let ph := (s.ports.phases.find? fun x => x.pa = pa).getD ⟨pa, scope, s.bindingOf task scope, []⟩
  { s with ports := { s.ports with phases :=
      (s.ports.phases.filter fun x => x.pa != pa) ++ [{ ph with who := ph.who ++ [(p, task)] }] } }

/-- What a barrier step answers: the phase with the clock of the home die, a failure with PCODE, or refused by scope. -/
inductive BAns where
  | phase (p : Nat) (clock : Clock)
  | poisoned (code : Nat)
  | perm
  deriving DecidableEq, Repr

/-- One arrival at the home of a barrier (R340, rows 2 and 3): the completing arrival releases every waiter of the phase
with the clock taken after it (R95). -/
def State.arrive (s : State) (p : Party) (lvl pa : Nat) (m : Mark) : State × BAns :=
  let d := homeDie pa
  let b := s.bword d pa
  if !b.sound pa then (s.poison pa 0 m, .poisoned 0)
  else if b.poisoned then (s, .poisoned b.pcode)
  else if (b.scope = 0 || b.scope = 2) && partyDie p != d then (s, .perm)
  else if b.arrived + 1 < b.count then
    let s1 := s.putBword d pa { b with arrived := b.arrived + 1 } m
    (s1.noteArrival pa b.scope p lvl, .phase b.phase (s1.clock d))
  else
    let s1 := (s.putBword d pa { b with arrived := 0, phase := (b.phase + 1) % 2 ^ 32 } m).endPhase pa
    let ws := s1.ports.parked.filter fun w => w.pa = pa && w.side = .barrier
    (ws.foldl (fun s w => (s.unpark w).answer w (.value w.value [] (some (s.clock d)))) s1, .phase b.phase (s1.clock d))

/-- Barriers poisoned because an item of a party failed or a party was killed (R339): parties that acted for a task. -/
def State.poisonParty (s : State) (isParty : Party → Option Nat → Bool) (code : Nat) : State :=
  let hit := (s.ports.phases.filter fun x => x.who.any fun p => isParty p.1 p.2).map Phase.pa ++
    (s.ports.parked.filter fun w => w.side = .barrier && isParty w.party (s.taskOf w.party w.lvl)).map Parked.pa
  hit.eraseDups.foldl (fun s pa => s.poison pa code Mark.plain) s

/-- Barriers poisoned because the task or the group they are bound to failed (R339). -/
def State.poisonBound (s : State) (binding code : Nat) : State :=
  ((s.ports.phases.filter fun x => x.bound = some binding).map Phase.pa).foldl (fun s pa => s.poison pa code Mark.plain) s

/-! ### A command that fails -/

/-- A command ends with a fault and its one record (R388); barriers of which its strand is a party are poisoned (R339). -/
def State.failCmd (s : State) (id code flags mkind who detail : Nat) (addr : DWord) : State :=
  match s.cmd id with
  | none => s
  | some c =>
    if c.ended.isSome then s
    else
      let s1 := (s.postFor id c.ctx c.die c.asid
        (recordWords code flags mkind (c.unit / 64) who c.asid 0 c.ctx detail addr (s.cmdHandle c))).endCmd id code
      s1.poisonParty (fun p _ => p = .strand c.strand) code

end Sys2Proof.Machine
end

