-- ==== Sys2Proof/Machine/Mangle.lean ====
section
/-! DEFINITION. The sweep units' tables and the seam buffer (21_mangle.md R354 to R366): subscriptions, entries, merges and
outputs. -/

namespace Sys2Proof.Machine

/-! ### Units and owners (R15, R356, R357) -/

/-- The hem tile that serves an element's half-row (R15), numbered as slices are. -/
def ownerOf (e : ElemId) : Nat := (if e.col < 40 then 0 else 32) + e.row / 2

/-- The TLB of a sweep unit's hem tile. -/
def unitTlb (die unit : Nat) : TlbUnit := .hem die (if unit < 32 then .west else .east) (unit % 32)

/-- The unit that sends a page (R357). -/
def SweepPage.unit (p : SweepPage) : Nat := p.pindex % 64

/-- WHO of a sweep in a record (R228): the hem tile of its injecting port. -/
def Sweep.who (w : Sweep) : Nat := (if w.port.2 = .east then 32 else 0) + w.port.1

/-- Whether a sweep runs or is frozen: it has not ended, and its command has not. -/
def State.sweepLive (s : State) (w : Sweep) : Bool :=
  !w.ended && s.engs.cmds.any fun c => c.id = w.cmd && c.ended.isNone

/-- Whether a sweep is unfrozen: the level that issued it is its region's active one (R365). -/
def State.sweepUp (s : State) (w : Sweep) : Bool :=
  s.sweepLive w && s.tasks.regions.any fun g => g.id = w.region && g.levels.length = w.level && g.st != .frozen

/-- The sweep that has the units of a die: only one unfrozen sweep runs there (R365). -/
def State.sweepHeld (s : State) (die : Nat) : Option Sweep := s.engs.sweeps.find? fun w => w.die = die && w.on && s.sweepUp w

/-- The sweep that runs on a die, unless a region violation pauses its command. -/
def State.sweepOn (s : State) (die : Nat) : Option Sweep :=
  (s.sweepHeld die).filter fun w => s.engs.cmds.any fun c => c.id = w.cmd && !c.paused

/-- The state with a sweep changed. -/
def State.modSweep (s : State) (cmd : Nat) (f : Sweep → Sweep) : State :=
  { s with engs := { s.engs with sweeps := s.engs.sweeps.map fun w => if w.cmd = cmd then f w else w } }

/-! ### Subscriptions (R360, R366) -/

/-- Bits 159:0 of a page's bitmap as its home holds them (R355, R360), or the fault that reading them meets. -/
def State.bitmapOf (s : State) (w : Sweep) (p : SweepPage) (r : Tr × State) : (BitVec 160 ⊕ (Nat × Nat × Nat)) × State :=
  match r with
  | (.ok pa _, s1) => (.inl (BitVec.ofNat 160 (s.valAt (if isHostPa pa then w.die else homeDie pa) pa 20)), s1)
  | (.bad code det, s1) => (.inr (code, det, p.subs), s1)
  | (.miss, s1) => (.inr (noFault, 0, p.subs), s1)

/-- The snapshot of a page's bitmap read by its unit (R360). -/
def State.readBitmap (s : State) (c : Cmd) (w : Sweep) (p : SweepPage) : (BitVec 160 ⊕ (Nat × Nat × Nat)) × State :=
  s.bitmapOf w p (s.translate (.cmd c.id) (unitTlb w.die p.unit) c.ctx c.asid .read c.user c.task p.subs 32)

/-- Whether a query subscribes to a page: as its snapshot and its late subscribers say, or, before its snapshot, as its bitmap
stands. A bitmap that cannot be read counts as set. -/
def State.subscribes (s : State) (w : Sweep) (p : SweepPage) (q : Nat) : Bool :=
  match p.snap with
  | some m => m.getLsbD q || p.toward.contains q || p.late.contains q
  | none => match s.engs.cmds.find? fun c => c.id = w.cmd with
    | none => false
    | some c =>
      match (s.bitmapOf w p (s.translateNow (unitTlb w.die p.unit) c.ctx c.asid .read c.user c.task p.subs 32)).1 with
      | .inl m => m.getLsbD q
      | .inr _ => true

/-- A query's next expected page (R360): the lowest that it subscribes to and whose partial has not been merged. -/
def State.nextPage (s : State) (w : Sweep) (x : SweepQuery) : Option Nat :=
  (w.pages.find? fun p => !(x.merged.any fun m => m.1 = p.pindex) && s.subscribes w p x.q).map SweepPage.pindex

/-! ### Entries (R360) -/

/-- The active queries of an owner: those whose output is not written. -/
def Sweep.active (w : Sweep) (owner : Nat) : List SweepQuery := w.queries.filter fun x => x.owner = owner && !x.written

/-- Shared entries of an owner in use: those of its queries' pages that are not the next expected. -/
def State.sharedUsed (s : State) (w : Sweep) (owner : Nat) : Nat :=
  (w.active owner).foldl (fun a x => a + (x.granted.filter fun p => s.nextPage w x != some p).length) 0

/-- Whether the owners grant an entry to every query of a list for a page: the reserved one to a query that expects the page
next, else a shared one. -/
def State.grants (s : State) (w : Sweep) (p : SweepPage) (qs : List Nat) : Bool :=
  let mine := w.queries.filter fun x => qs.contains x.q
  (mine.map SweepQuery.owner).eraseDups.all fun o =>
    let asks := mine.filter fun x => x.owner = o && s.nextPage w x != some p.pindex
    asks.isEmpty || decide (s.sharedUsed w o + asks.length + (w.active o).length ≤ 64)

/-! ### Merging (R50, R361) -/

/-- Two partials merged (R50): m, l and o. -/
def mergePartial (a b : Word × Word × List Word) : Word × Word × List Word :=
  let r := mergeML a.1 a.2.1 b.1 b.2.1
  if r.1 = 0xFF800000 then (r.1, 0, a.2.2.map fun _ => 0)
  else (r.1, r.2.1, List.zipWith (mergeO r.2.2.1 r.2.2.2) a.2.2 b.2.2)

/-- The accumulator before any merge: (−∞, +0, +0). -/
def accStart (hdt : Nat) : Word × Word × List Word := (0xFF800000, 0, List.replicate (8 * hdt) 0)

/-- A merged partial put in its PINDEX place. -/
def insertPartial (x : Nat × Word × Word × List Word) : List (Nat × Word × Word × List Word) → List (Nat × Word × Word × List Word)
  | [] => [x]
  | y :: ys => if x.1 < y.1 then x :: y :: ys else y :: insertPartial x ys

/-- A query with a partial merged. Only the ascending order is allowed (R361, R373): the accumulator is that of all partials
merged in ascending PINDEX, also where a late subscription brings a lower page after higher ones. -/
def SweepQuery.merge (x : SweepQuery) (hdt : Nat) (p : Nat × Word × Word × List Word) : SweepQuery :=
  let all := insertPartial p x.merged
  let acc := all.foldl (fun a b => mergePartial a b.2) (accStart hdt)
  { x with merged := all, m := acc.1, l := acc.2.1, o := acc.2.2, held := x.held.filter fun h => h.1 != p.1,
           granted := x.granted.filter (· != p.1) }

/-- A query with the partials whose turn has come merged; the fuel is the number that wait. -/
def State.mergeTurns (s : State) (w : Sweep) (x : SweepQuery) : Nat → SweepQuery
  | 0 => x
  | n + 1 =>
    match (s.nextPage w x).bind fun p => x.held.find? fun h => h.1 = p with
    | some h => s.mergeTurns w (x.merge w.hdt h) n
    | none => x

/-- A sweep with every partial merged whose turn has come (R361). -/
def State.mergeAll (s : State) (w : Sweep) : Sweep :=
  { w with queries := w.queries.map fun x => s.mergeTurns w x x.held.length }

/-- Whether every partial of a query has been merged (R363). -/
def State.complete (s : State) (w : Sweep) (x : SweepQuery) : Bool := (s.nextPage w x).isNone

/-! ### Outputs (R363) and the end of a sweep -/

/-- An output element (R51). -/
def outputOf (l o : Word) : Word := if l = 0 then 0 else mulF32 o (rcpF32 l)

/-- How an access of a sweep's owner is translated: at once, or with a wait for its walk. -/
def State.ownerXlate (s : State) (now : Bool) (c : Cmd) (w : Sweep) (x : SweepQuery) (va : Nat) : Tr × State :=
  let u := unitTlb w.die x.owner
  if now then s.translateNow u c.ctx c.asid .write c.user c.task va 32
  else s.translate (.cmd c.id) u c.ctx c.asid .write c.user c.task va 32

/-- The first token of an output that waits for a walk or for the host, with the walk requested or the snoop sent. -/
def State.outputWaits (s : State) (now : Bool) (c : Cmd) (w : Sweep) (x : SweepQuery) : List Nat → Option State
  | [] => none
  | j :: js =>
    match s.ownerXlate now c w x (x.out + 32 * j) with
    | (.miss, s1) => some s1
    | (.bad _ _, _) => none
    | (.ok pa e, s1) =>
      if !now && s1.snoopFirst (pageAttr e) pa then some (s1.snoop pa) else s1.outputWaits now c w x js

/-- A query's output written from token j on: one write event a token, or the first fault. -/
def State.writeOutput (s : State) (now : Bool) (c : Cmd) (w : Sweep) (x : SweepQuery) : List Nat → Option (Nat × Nat × Nat) × State
  | [] => (none, s)
  | j :: js =>
    let va := x.out + 32 * j
    match s.ownerXlate now c w x va with
    | (.ok pa e, s1) =>
      let ws := ((x.o.drop (8 * j)).take 8).map (outputOf x.l)
      let m := s1.mark c.ctx 63 false (pageAttr e)
      (s1.performWrite w.die pa ((ws.flatMap fun v => toBytes 4 v.toNat).map some) m false).writeOutput now c w x js
    | (.bad code det, s1) => (some (code, det, va), s1)
    | (.miss, s1) => (some (noFault, 0, va), s1)

/-- The outputs of the complete queries of a list written, up to the first fault or the first that waits for a walk. -/
def State.writeOutputs (s : State) (now : Bool) (c : Cmd) (w : Sweep) : List SweepQuery → Option (Nat × Nat × Nat) × State
  | [] => (none, s)
  | x :: xs =>
    if x.written || !s.complete w x then s.writeOutputs now c w xs
    else match s.outputWaits now c w x (List.range w.hdt) with
      | some s1 => (some (noFault, 0, 0), s.retry s1)
      | none =>
        match s.writeOutput now c w x (List.range w.hdt) with
        | (some f, s1) => (some f, s1)
        | (none, s1) =>
          let mark (y : SweepQuery) : SweepQuery := if y.q = x.q then { y with written := true } else y
          (s1.modSweep w.cmd fun v => { v with queries := v.queries.map mark, written := v.written + 1 }).writeOutputs now c w xs

/-- A sweep stopped: no further page; complete queries are written; partials on their way are discarded. -/
def State.haltSweep (s : State) (w : Sweep) : State :=
  let s1 := match s.engs.cmds.find? fun c => c.id = w.cmd with
    | some c => (s.writeOutputs true c w w.queries).2
    | none => s
  let n := ((s1.engs.sweeps.find? fun v => v.cmd = w.cmd).map Sweep.written).getD 0
  let s2 := s1.modSweep w.cmd fun v => { v with ended := true, queue := [] }
  let mine (p : RowPacket) : Bool := p.by_ = 4 && p.lvl = w.level && (s2.elem p.dst).region = some w.region
  { s2 with fab := { s2.fab with packets := s2.fab.packets.filter fun p => !mine p } }.modCmd w.cmd fun c => { c with count := n }

/-- A sweep ended by a fault (R366): stopped, with one record with PARTIAL, whose DETAIL is the number of outputs written unless
the fault has its own (R359). -/
def State.endSweep (s : State) (w : Sweep) (code : Nat) (detail : Option Nat) (addr : Nat) : State :=
  let s1 := s.haltSweep w
  let n := ((s1.engs.sweeps.find? fun v => v.cmd = w.cmd).map Sweep.written).getD 0
  s1.failCmd w.cmd code (if detail.isNone then flagPartial else 0) 7 w.who (detail.getD n) (BitVec.ofNat 64 addr)

end Sys2Proof.Machine
end

