-- ==== Sys2Proof/Machine/Region.lean ====
section
/-! DEFINITION. Regions, site buffers and tasks: the operations that instructions and events share (07 R147, R148, R175;
11 R271 to R278; 13 R300, R309; 23 R389). -/

namespace Sys2Proof.Machine

/-! ### Regions -/

/-- A region by number. -/
def State.region (s : State) (id : Nat) : Option Region := s.tasks.regions.find? fun g => g.id = id

/-- The state with a region changed. -/
def State.modRegion (s : State) (id : Nat) (f : Region → Region) : State :=
  { s with tasks := { s.tasks with regions := s.tasks.regions.map fun g => if g.id = id then f g else g } }

/-- A task by number. -/
def State.taskNo (s : State) (no : Nat) : Option Task := s.tasks.tasks.find? fun t => t.no = no

/-- The strand that has a region bound loses it. -/
def State.unbindRegion (s : State) (id : Nat) : State :=
  let off (p : Nat × Strand) : Nat × Strand := if p.2.region = some id then (p.1, { p.2 with region := none }) else p
  { s with seqs := { s.seqs with strands := s.seqs.strands.map off } }

/-- First element row and column of a region (R271). -/
def Region.row0 (g : Region) : Nat := 4 * g.trow
/-- First element column. -/
def Region.col0 (g : Region) : Nat := 4 * g.tcol

/-- Whether a region holds an element (R271). -/
def Region.holds (g : Region) (e : ElemId) : Bool :=
  e.die = g.die && decide (g.row0 ≤ e.row) && decide (e.row < g.row0 + 4 * g.trows) && decide (g.col0 ≤ e.col) &&
    decide (e.col < g.col0 + 4 * g.tcols)

/-- The elements of a rectangle of tiles at a region's origin, in ascending (row, column) order. -/
def Region.rect (g : Region) (trows tcols : Nat) : List ElemId :=
  (List.range (4 * trows)).flatMap fun r => (List.range (4 * tcols)).map fun c => ⟨g.die, g.row0 + r, g.col0 + c⟩

/-- The elements of a region. -/
def Region.elems (g : Region) : List ElemId := g.rect g.trows g.tcols

/-- The number of a region's active level, for what its directories record. -/
def Region.key (g : Region) : Nat := g.id * 512 + g.levels.length

/-- Whether a level was frozen to make way for another task (R293). -/
def Level.isPreempt (l : Level) : Bool := match l.kind with | .preempt _ => true | _ => false

/-- The frozen levels that belong to the load of the active level: those above the newest pre-emption. -/
def Region.own (g : Region) : List Level := g.levels.takeWhile fun l => !l.isPreempt

/-- How many frozen levels of other tasks lie below. -/
def Region.below (g : Region) : Nat := g.levels.length - g.own.length

/-- Whether a column is one of M-elements (R12). -/
def isM (e : ElemId) : Bool := e.col % 8 = 3

/-- The region that a strand has bound (R274). -/
def State.bound (s : State) (n : Nat) : Option Region := (s.strand n).region.bind s.region

/-- The level of a region that belongs to a strand: the active one, or one that a pre-emption froze (R293). -/
def State.levelOf (s : State) (n : Nat) (g : Region) : Option Level :=
  if g.strand = some n then none
  else g.levels.find? fun l => match l.kind with
    | .preempt t => (match s.taskNo t with | some k => k.strand = some n | none => false)
    | _ => false

/-- The state and the context of a region as a strand that has it bound sees them: FROZEN while another task runs over its
level (R293). -/
def State.seenAs (s : State) (n : Nat) (g : Region) : RegionState × BitVec 10 :=
  match s.levelOf n g with
  | some l => (.frozen, l.ctx)
  | none => (if g.strand = some n then g.st else .frozen, g.ctx)

/-- Element order of R68 and R268: (die, row, column). -/
def elemLt (a b : ElemId) : Bool :=
  decide (a.die < b.die) || (a.die = b.die && (decide (a.row < b.row) || (a.row = b.row && decide (a.col < b.col))))

/-! ### Site buffers (R146 to R148) -/

/-- A sector written back: one write event with its byte mask (R147), once the host has given up its line (R241). -/
def State.flushSector (s : State) (e : ElemId) (ctx : BitVec 10) (x : SiteSector) : State :=
  let pa := x.pa.toNat
  let bytes := (maskBytes x.dirty x.data).drop (pa - x.pa).toNat
  let m := s.mark ctx 62 false x.page
  if x.dirty = 0 then s
  else match s.ownedIn x.page pa bytes.length with
    | some a => (s.snoop a).modMem fun t => { t with held := t.held ++ [⟨e, pa, bytes, m, ((s.elem e).region.bind s.region).bind Region.task⟩] }
    | none => s.performSplit e.die pa bytes m

/-- The sectors of an element that a predicate picks written back; their dirty bits cleared. -/
def State.flushSectors (s : State) (e : ElemId) (ctx : BitVec 10) (p : SiteSector → Bool) : State :=
  let v := s.elem e
  let s1 := (v.sectors.filter p).foldl (fun s x => s.flushSector e ctx x) s
  s1.modElem e fun v => { v with sectors := v.sectors.map fun x => if p x then { x with dirty := 0 } else x }

/-- The directories of an element's region no longer list it as a holder of sectors that it has dropped (R153). -/
def State.untell (s : State) (e : ElemId) (xs : List SiteSector) : State :=
  let v := s.elem e
  let group (x : SiteSector) : Nat := ((v.pl.sites.find? fun t => t.no = x.site).map Site.group).getD 0
  let off (h : Nat × Nat × Nat × List ElemId) : Nat × Nat × Nat × List ElemId :=
    if v.region = some (h.1 / 512) && xs.any (fun x => x.lvl = h.1 % 512 && x.va = h.2.2.1 && group x = h.2.1) then
      (h.1, h.2.1, h.2.2.1, h.2.2.2.filter (· != e)) else h
  { s with fab := { s.fab with holders := (s.fab.holders.map off).filter fun h => !h.2.2.2.isEmpty } }

/-- The sectors of an element that a predicate picks written back, then dropped (R148). -/
def State.dropSectors (s : State) (e : ElemId) (ctx : BitVec 10) (p : SiteSector → Bool) : State :=
  ((s.flushSectors e ctx p).untell e ((s.elem e).sectors.filter p)).modElem e fun v =>
    { v with sectors := v.sectors.filter fun x => !p x }

/-- The sectors that a predicate picks dropped in every element of a region. -/
def State.dropAll (s : State) (g : Region) (p : ElemId → SiteSector → Bool) : State :=
  g.elems.foldl (fun s e => if (s.elem e).sectors.isEmpty then s else s.dropSectors e g.ctx (p e)) s

/-- The lifetime of the buffer that holds a sector of an element's active plane (R148). -/
def Elem.lifeOf (v : Elem) (x : SiteSector) : Life :=
  ((v.pl.sites.find? fun t => t.no = x.site).map Site.life).getD .load

/-- Whether an instruction is a site operation (R84, R143). -/
def isSiteOp : Instr → Bool
  | .sld .. => true
  | .sst .. => true
  | .satm .. => true
  | .spf .. => true
  | .scln .. => true
  | .sinv .. => true
  | _ => false

/-- Whether a write-back of an element waits for the host (R241). -/
def State.holdsBack (s : State) (e : ElemId) : Bool := s.mem.held.any fun h => h.e = e

/-- Whether no site operation that a region has fired, no update and no delivery into its buffers or scratch is open
(R175, item 2), and no write-back of it. -/
def State.quiet (s : State) (g : Region) : Bool :=
  (g.elems.all fun e => (s.elem e).pl.ctxs.toList.all fun t =>
    match t.fly with
    | some f => !isSiteOp f.instr
    | none => true) &&
  !(s.fab.updates.any fun u => u.region = g.id) && !(s.mem.held.any fun h => g.holds h.e) &&
  !(s.fab.packets.any fun p => g.holds p.dst && (match p.load with
    | .scratch _ _ => true
    | .site _ _ _ => true
    | _ => false))

/-- The parked operations of a region's trigger contexts on some of its levels leave their lists without effect. -/
def State.dropParked (s : State) (g : Region) (on : Nat → Bool) : State :=
  (s.ports.parked.filter fun w => on w.lvl &&
    (match w.party with | .elem e _ => g.holds e | .strand _ => false)).foldl (fun s w =>
    let s1 := s.unpark w
    if w.side = .barrier then s1 else s1.putBlock (homeDie w.pa) w.pa (s1.qblock (homeDie w.pa) w.pa) w.mark) s

/-- Whether an instruction is an enqueue or a dequeue (R163). -/
def isQueueOp : Instr → Bool
  | .eenq _ _ _ _ => true
  | .edeq _ _ _ => true
  | _ => false

/-- The queue operations in flight on some levels of a region, each an item of its own (R388): those parked at their
homes, those posted, and those of contexts, of the active plane and of saved ones, that are still to be requested. -/
def State.queueItems (s : State) (g : Region) (on : Nat → Bool) : List (ElemId × Nat) :=
  let waits (e : ElemId) (p : Plane4K) : List (ElemId × Nat) :=
    ((List.range 4).filter fun c => match (p.ctx c).fly with
      | some f => isQueueOp f.instr && f.wait = .port
      | none => false).map fun c => (e, c)
  let posted (e : ElemId) : List (ElemId × Nat) :=
    ((s.elem e).posted.filter fun p => on p.lvl && (p.kind = .enq || p.kind = .deq)).map fun p => (e, p.ctx)
  (s.ports.parked.filterMap fun w => match w.party with
    | .elem e c => if w.side != .barrier && on w.lvl && g.holds e then some (e, c) else none
    | .strand _ => none) ++
  (g.elems.flatMap fun e => if (s.elem e).region = some g.id then
    (if on g.levels.length then waits e (s.elem e).pl else []) ++ posted e else []) ++
  g.levels.zipIdx.flatMap fun l => if on (g.levels.length - 1 - l.2) then l.1.saved.flatMap fun x => waits x.e x.pl else []

/-- The queue operations in flight on some levels of a region, of one context, reported failed, one record each (R388; log 101). -/
def State.failQueueOps (s : State) (g : Region) (on : Nat → Bool) (ctx : BitVec 10) (asid : BitVec 16) (code flags detail : Nat) :
    State :=
  (s.queueItems g on).foldl (fun s x => s.post ctx x.1.die asid
    (recordWords code flags 1 x.1.die (whoElem x.1) asid x.2 ctx detail 0 0)) s

/-- The elements of a region set to UNCONFIGURED, every site buffer written back and dropped (R119, R148, R278); what
belongs to levels below a number stays. -/
def State.clearElems (s : State) (g : Region) (k : Nat) : State :=
  let s1 := (s.dropParked g fun l => decide (k ≤ l)).dropAll g fun _ x => decide (k ≤ x.lvl)
  let s2 := g.elems.foldl (fun s e =>
    let v := s.elem e
    if v.region = none && v.st = .unconfigured then s
    else s.setElem e { Elem.reset with
      st := if v.st = .fenced then .fenced else .unconfigured, scr := v.scr, full := v.full, sectors := v.sectors, spoilt := v.spoilt,
      posted := v.posted.filter fun p => decide (p.lvl < k) }) s1
  { s2 with fab := { s2.fab with
      updates := s2.fab.updates.filter fun u => u.region != g.id,
      holders := s2.fab.holders.filter fun h => !(h.1 / 512 = g.id && decide (k ≤ h.1 % 512)),
      packets := s2.fab.packets.filter fun p => !(g.holds p.dst && decide (k ≤ p.lvl)) } }

/-- A region removed: its tiles are FREE, its elements UNCONFIGURED with every buffer written back and dropped (R119, R274). -/
def State.freeRegion (s : State) (id : Nat) : State :=
  let s1 := match s.region id with
    | some g => (s.unbindRegion id).clearElems g 0
    | none => s
  { s1 with tasks := { s1.tasks with regions := s1.tasks.regions.filter fun g => g.id != id } }

/-! ### Streams of a region -/

/-- The stream commands that levels of a region from a number up have taken up and that have not ended (R214, R286). -/
def State.streamsOf (s : State) (g : Region) (k : Nat) : List Cmd :=
  s.engs.cmds.filter fun c => c.ended.isNone &&
    (match c.strm with
     | some st => st.region = g.id && decide (k ≤ st.level)
     | none => false)

/-- WHO of a hem stream (R228): side × 32 + hem tile. -/
def whoHem (h : HemSlot) : Nat := (if h.side = .east then 32 else 0) + h.tile

/-- The tokens in a slot. -/
def State.slotToks (s : State) (h : HemSlot) : List Entry :=
  ((s.engs.slots.find? fun q => q.slot = h).map SlotQueue.toks).getD []

/-- The tokens in a slot replaced. -/
def State.setSlot (s : State) (h : HemSlot) (q : List Entry) : State :=
  let rest := s.engs.slots.filter fun x => x.slot != h
  { s with engs := { s.engs with slots := if q.isEmpty then rest else rest ++ [⟨h, q⟩] } }

/-- Bytes of a stream's elements: ESZ (R178). -/
def StreamSt.esz (b : StreamSt) : Nat := 2 ^ ((((b.block[10]?.getD 0).toNat >>> 13) % 8))
/-- Elements in a token (R179). -/
def StreamSt.per (b : StreamSt) : Nat := 32 / b.esz
/-- DIR: fabric to memory. -/
def StreamSt.toMem (b : StreamSt) : Bool := (b.block[10]?.getD 0).getLsbD 11
/-- KIND of the delivery. -/
def StreamSt.kind (b : StreamSt) : Nat := ((b.block[11]?.getD 0).toNat >>> 17) % 4

/-- Elements that a stream has moved: those of tokens that still stand in its slot have not left. -/
def State.movedBy (s : State) (st : StreamSt) : Nat :=
  if !st.started then 0
  else if st.toMem || st.kind != 0 then st.at_
  else min st.at_ ((st.at_ + st.per - 1) / st.per * st.per - (s.slotToks st.slot).length * st.per)

/-- A stream's slot emptied and its count taken, before it ends short. -/
def State.closeStream (s : State) (c : Cmd) : State :=
  match c.strm with
  | none => s
  | some st =>
    let n := s.movedBy st
    (if st.started then s.setSlot st.slot [] else s).modCmd c.id fun d => { d with count := n }

/-- A stream failed with one record for the elements not moved (R214). -/
def State.failStream (s : State) (c : Cmd) (code flags det : Nat) (addr : DWord) : State :=
  let who := match c.strm with | some st => whoHem st.slot | none => 0
  (s.closeStream c).failCmd c.id code flags 3 who det addr

/-- A stream stopped with WINDOW_ABSENT, one record for what it has not moved (R278, R351), or killed (R232). -/
def State.cutStream (s : State) (killed : Bool) (c : Cmd) : State :=
  let moved := match c.strm with | some st => s.movedBy st | none => 0
  if killed then s.failStream c 0x18 flagKilled 0 0 else s.failStream c 0x1C (if moved = 0 then 0 else flagPartial) 0 0

/-- The streams of a region's levels from a number up stopped (R278), or killed. -/
def State.stopStreams (s : State) (killed : Bool) (g : Region) (k : Nat) : State :=
  (s.streamsOf g k).foldl (State.cutStream · killed ·) s

/-! ### Dropping a configuration (R278) -/

/-- The sweeps that levels of a region from a number up have issued, failed (R366), or killed (R232). -/
def State.failSweeps (s : State) (killed : Bool) (g : Region) (k : Nat) : State :=
  (s.engs.sweeps.filter fun w => w.region = g.id && decide (k ≤ w.level) && s.sweepLive w).foldl (fun s w =>
    if killed then (s.haltSweep w).failCmd w.cmd 0x18 flagKilled 7 w.who 0 0 else s.endSweep w 0x1C none 0) s

/-- The commands whose handles stand for a region's load and its calls. -/
def Region.cmds (g : Region) : List Nat :=
  (g.cfgCmd.toList ++ g.own.flatMap fun l => l.cmd.toList ++ (match l.kind with | .call _ _ (some c) => [c] | _ => [])) ++
    (g.seqCall.map fun c => c.1).toList

/-- The configuration of a region dropped: streams and sweeps stop, buffers go, elements become UNCONFIGURED, the handles
of its load and calls read fault, without a record of their own where a fault of the region has one (R388). The region is
RESERVED; levels of other tasks below it stay. With `killed` the region ends by `kill` (R232). -/
def State.dropConfig (s : State) (killed : Bool) (g : Region) (code flags detail : Nat) : State :=
  let k := g.below
  let s1 := (s.stopStreams killed g k).failSweeps killed g k
  let drop (s : State) (c : Nat) : State :=
    match g.failed with
    | some f => s.endCmd c f
    | none => s.failCmd c code flags 6 0 detail 0
  let s2 := (g.cmds.foldl drop s1).failQueueOps g (fun l => decide (k ≤ l)) g.ctx g.asid code flags detail
  (s2.clearElems g k).modRegion g.id fun h =>
    { h with st := .reserved, info := none, next := none, cfgCmd := none, items := [], bad := [],
             levels := g.levels.drop g.own.length, wave := none, call := none, seqCall := none, ret := none,
             ending := false, dropBy := none, failed := none, voids := [], depth := 0 }

/-! ### Tasks (R309) -/

/-- The state with a task changed. -/
def State.modTask (s : State) (no : Nat) (f : Task → Task) : State :=
  { s with tasks := { s.tasks with tasks := s.tasks.tasks.map fun t => if t.no = no then f t else t } }

/-- Whether a task is still in its table (R301). -/
def Task.held (t : Task) : Bool := t.st != .retired && t.st != .failed

/-- Whether a task has neither begun to end nor ended. -/
def Task.open_ (t : Task) : Bool := t.held && t.st != .retiring

/-- Whether a command writes memory for the task that it belongs to. -/
def CmdKind.writes : CmdKind → Bool
  | .launch _ _ => false
  | .gcall _ _ => false
  | .cfgld .. => false
  | _ => true

/-- What the release by a task's retirement or failure comes after (R302): the operations of its strand and the commands of it
that have not performed. -/
def State.oweFor (s : State) (t : Task) : List Nat × List Nat :=
  ((match t.strand with
    | some n => if (s.strand n).task = some t.no then (s.unperformed n).map Op.id else []
    | none => []),
   (s.engs.cmds.filter fun c => c.task = some t.no && c.kind.writes).map Cmd.id)

/-- A task passes to RETIRING with a status (R309). A failure poisons the barriers bound to it or to its group, and those of
which its strand or its elements are parties (R339). -/
def State.beginRetire (s : State) (no status : Nat) : State :=
  match s.taskNo no with
  | none => s
  | some t =>
    if !t.open_ then s
    else
      let owe := s.oweFor t
      let s1 := s.modTask no fun t =>
        { t with st := .retiring, status := status, since := s.cycle, pooled := false, opsDue := owe.1, cmdsDue := owe.2 }
      if status = 0 then s1
      else ((s1.poisonBound no status).poisonBound (2 ^ 32 + t.group) status).poisonParty (fun _ k => k = some no) status

/-- The fault by which the level of a task has failed already (R389): of its region, or of the level that a pre-emption froze. -/
def State.faultOf (s : State) (t : Task) : Option Nat :=
  (t.region.bind s.region).bind fun g =>
    if g.task = some t.no then g.failed
    else (g.levels.find? fun l => match l.kind with | .preempt k => k = t.no | _ => false).bind Level.failed

/-- A task fails with a fault of its own record: dispatcher, ITEM the launch handle (R228, R309). A task that a fault of its level
ends has had its record (R388). -/
def State.failTask (s : State) (no code flags detail : Nat) (addr : DWord) : State :=
  match s.taskNo no with
  | none => s
  | some t =>
    if !t.open_ then s
    else match s.faultOf t with
      | some f => s.beginRetire no f
      | none =>
        (s.post t.ctx t.die t.asid (recordWords code flags 6 t.die 0 t.asid 0 t.ctx detail addr t.item)).beginRetire no code

/-- The region of a retiring task, or of a supervisor strand that enrols, returned to the dispatcher (R274, R313): HELD
when its image has RETAIN and the task did not fail, else FREE with every buffer written back and dropped. -/
def State.returnRegion (s : State) (g : Region) (failed : Bool) : State :=
  let keep := g.st = .ended && (match g.info with | some i => i.retain | none => false) && !failed
  let s0 := s.unbindRegion g.id
  if keep then
    (s0.dropAll g fun e x => (s0.elem e).lifeOf x = .task || (s0.elem e).lifeOf x = .load).modRegion g.id fun h =>
      { h with st := .held, strand := none, task := none }
  else
    (s0.dropConfig false g 0x1C 0 0).freeRegion g.id

/-- The bound region of a task that fails under a fault of the region, stopped as `cfgdrop` does (R389); barriers of which its
elements are parties are poisoned (R339). -/
def State.failLoad (s : State) (g : Region) (code flags : Nat) : State :=
  let mine (p : Party) (k : Option Nat) : Bool :=
    k = g.task && (match p with | .elem e _ => g.holds e | .strand _ => false)
  let s1 := (s.poisonParty mine code).dropConfig false { g with failed := some (g.failed.getD code) } code flags 0
  match g.task with
  | some no => s1.beginRetire no code
  | none => s1

end Sys2Proof.Machine
end

