-- ==== Sys2Proof/Machine/Arbiter.lean ====
section
/-! DEFINITION. The arbiter of an element (05_fabric.md R101, R102): ready slots and contexts, and the slot it fires. -/

namespace Sys2Proof.Machine

/-- Bits h to l of a configuration word. -/
def wfield (w : Word) (h l : Nat) : Nat := (w.toNat >>> l) % 2 ^ (h - l + 1)

/-- The destination of an element instruction (R64); none for those that name no output or register. -/
def instrDst : Instr → Dst
  | .mov f | .iadd f | .isub f | .iadds f | .isubs f | .imul f | .imulh f | .imulhn f | .imad f | .imin f | .imax f
  | .nmin f | .nmax f | .iabs f | .eAnd f | .eOr f | .eXor f | .eAndn f | .eShl f | .eShr f | .eSha f | .sel f
  | .ePopc f | .eClz f | .idot4 f | .fadd f | .fsub f | .fmul f | .ffma f | .fmin f | .fmax f | .fabs f | .fneg f
  | .bfadd2 f | .bfmul2 f | .bffma2 f | .bfdot2 f | .hadd2 f | .hmul2 f | .hfma2 f | .fscale f | .icmp f | .fcmp f
  | .cvtF32I32 f | .cvtI32F32 f | .cvtBf16F32 f | .cvtF32Bf16 f | .cvtE4m3F32 f | .cvtE5m2F32 f | .cvtE2m1F32 f
  | .cvtF32E4m3 f | .cvtF32E5m2 f | .cvtF32E2m1 f | .cvtI8F32 f | .cvtF32I8 f | .sclx f | .cvtF16F32 f | .cvtF32F16 f
  | .exp2 f | .log2 f | .rcp f | .rsqrt f | .sqrt f | .rstat f | .lred f | .lscan f | .lperm f | .lbcast f
  | .lshift f => f.d
  | .movhi f | .iaddi f | .eAndi f | .eShli f | .eShri f => f.d
  | .movi d _ | .sld d _ _ _ _ | .satm _ d _ _ _ | .xld d _ _ _ | .feld _ d _ _ | .emit _ d _ _ | .hdr d _ _ _
  | .lgen _ d _ _ | .wsplit _ d _ _ | .ordt _ d _ _ | .pgive d _ => d
  | _ => .none

/-- The lanes of a context in which a slot's guard holds (R62). -/
def guardLanes (c : TCtx) (trig : Word) : BitVec 8 :=
  let care := wfield trig 25 18
  let val := wfield trig 17 10
  (List.range 8).foldl (fun m n =>
    if care.testBit n then m &&& (if val.testBit n then c.pred (BitVec.ofNat 3 n) else ~~~(c.pred (BitVec.ofNat 3 n))) else m) 0xFF

/-- Whether the guard of a slot holds over its lanes: any, or all with Q (R101). -/
def guardHolds (trig : Word) (m : BitVec 8) : Bool := if wfield trig 27 27 = 1 then m = 0xFF else m != 0

/-- Whether a slot is ready for the context in focus (R101); one that holds `gcall` only while i3 is empty (R283). -/
def State.slotReady (s : State) (trig op : Word) : Bool :=
  wfield trig 26 26 = 1 && trig.getLsbD (28 + s.focus.ctx % 4) &&
  ((List.range 4).all fun c => !trig.getLsbD (6 + c) || (s.head (BitVec.ofNat 2 c)).isSome) &&
  (!trig.getLsbD 5 || (match s.head (trig.extractLsb' 3 2) with
    | some t => decide (t.tag = trig.extractLsb' 0 3)
    | none => false)) &&
  guardHolds trig (guardLanes s.curCtx trig) &&
  (match decodeElem op.toNat with
   | .ok i => s.dstReady (instrDst i) && (match i with | .eGcall _ => (s.curElem.pl.inq 3).isEmpty | _ => true)
   | .error _ => false)

/-- The lowest-numbered ready slot of the context in focus: number, trigger word, operation word (R102). -/
def State.readySlot (s : State) : Option (Nat × Word × Word) :=
  if s.curCtx.fly.isSome || s.curCtx.stopped then none
  else (List.range 16).findSome? fun k => (s.curElem.pl.slots.find? fun x => x.1 = k && s.slotReady x.2.1 x.2.2)

/-- The focus set on a context of an element. -/
def State.focusOn (s : State) (e : ElemId) (c : Nat) : State := { s with focus := { s.focus with elem := e, ctx := c } }

/-- Whether an element's slots may fire: it is RUNNING and awake (R118, R119), and its region neither ends its load
(R175) nor stops for a freeze (R286). -/
def State.mayRun (s : State) (e : ElemId) : Bool :=
  (s.elem e).st = .running && (s.elem e).gate = .awake &&
  (match (s.elem e).region.bind s.region with
   | some g => !g.ending && g.wave.isNone
   | none => true)

/-- An element's turn (R102): the first ready context in rotation fires its lowest ready slot. -/
def State.elementTurn (s : State) (e : ElemId) : Fetched :=
  if !s.mayRun e then .skip s
  else
    let first := (s.elem e).pl.arb
    match (List.range 4).findSome? (fun k => ((s.focusOn e ((first + k) % 4)).readySlot).map fun r => ((first + k) % 4, r)) with
    | none => .skip s
    | some (c, slot, trig, op) =>
      let s1 := s.focusOn e c
      match decodeElem op.toNat with
      | .error _ => .skip s
      | .ok i => .run i { s1 with focus := { s1.focus with slot := slot, lanes := guardLanes s1.curCtx trig } }

end Sys2Proof.Machine
end

