-- ==== Sys2Proof/Machine/SeqAlu.lean ====
section
/-! DEFINITION. The sequencer's integer instructions (08_sequencer.md R202 to R204, R210): gD takes the value of the
operation with the latency of R187. -/

namespace Sys2Proof.Machine

/-- An outcome of an instruction. -/
abbrev Res := Host.Outcome State Fault Refusal

/-- gD takes v with latency L; the strand goes on (R187, R202). -/
def State.alu (s : State) (q : Issue) (L : Nat) (d : GReg) (v : DWord) : Res :=
  .next (s.done q 4 fun t => t.result s.cycle L d v)

/-- 1 or 0. -/
def flag64 (b : Bool) : DWord := if b then 1 else 0

/-- High half of the signed product (R202). -/
def mulHigh (a b : DWord) : DWord := BitVec.ofInt 64 (a.toInt * b.toInt / 2 ^ 64)
/-- High half of the unsigned product (R202). -/
def mulHighN (a b : DWord) : DWord := BitVec.ofNat 64 (a.toNat * b.toNat / 2 ^ 64)
/-- Signed quotient toward zero; by zero −1, and −2^63 by −1 is −2^63 (R202). -/
def divS (a b : DWord) : DWord := if b = 0 then -1 else BitVec.ofInt 64 (a.toInt.tdiv b.toInt)
/-- Unsigned quotient; by zero all ones (R202). -/
def divN (a b : DWord) : DWord := if b = 0 then -1 else a / b
/-- Signed remainder sa − sb × div(sa, sb); by zero the dividend (R202). -/
def remS (a b : DWord) : DWord := if b = 0 then a else a - b * divS a b
/-- Unsigned remainder; by zero the dividend (R202). -/
def remN (a b : DWord) : DWord := if b = 0 then a else a % b
/-- Leading zero bits, 64 for zero (R202). -/
def clz64 (a : DWord) : DWord := BitVec.ofNat 64 (if a = 0 then 64 else 63 - Nat.log2 a.toNat)
/-- Set bits (R202). -/
def popc64 (a : DWord) : DWord := BitVec.ofNat 64 ((List.range 64).foldl (fun n i => n + (a.getLsbD i).toNat) 0)

/-- The value of `add` (R202: sa + sb). -/
def valAdd (x y : DWord) : DWord := x + y

/-- `add` (R202: sa + sb). -/
def execAdd (q : Issue) (d a b : GReg) (s : State) : Res :=
  s.alu q 1 d (valAdd (s.cur.reg a) (s.cur.reg b))

/-- The value of `sub` (R202: sa − sb). -/
def valSub (x y : DWord) : DWord := x - y

/-- `sub` (R202: sa − sb). -/
def execSub (q : Issue) (d a b : GReg) (s : State) : Res :=
  s.alu q 1 d (valSub (s.cur.reg a) (s.cur.reg b))

/-- The value of `and` (R202: a & b). -/
def valAnd (x y : DWord) : DWord := x &&& y

/-- `and` (R202: a & b). -/
def execAnd (q : Issue) (d a b : GReg) (s : State) : Res :=
  s.alu q 1 d (valAnd (s.cur.reg a) (s.cur.reg b))

/-- The value of `or` (R202: a | b). -/
def valOr (x y : DWord) : DWord := x ||| y

/-- `or` (R202: a | b). -/
def execOr (q : Issue) (d a b : GReg) (s : State) : Res :=
  s.alu q 1 d (valOr (s.cur.reg a) (s.cur.reg b))

/-- The value of `xor` (R202: a ^ b). -/
def valXor (x y : DWord) : DWord := x ^^^ y

/-- `xor` (R202: a ^ b). -/
def execXor (q : Issue) (d a b : GReg) (s : State) : Res :=
  s.alu q 1 d (valXor (s.cur.reg a) (s.cur.reg b))

/-- The value of `andn` (R202: a & ~b). -/
def valAndn (x y : DWord) : DWord := x &&& ~~~y

/-- `andn` (R202: a & ~b). -/
def execAndn (q : Issue) (d a b : GReg) (s : State) : Res :=
  s.alu q 1 d (valAndn (s.cur.reg a) (s.cur.reg b))

/-- The value of `shl` (R202: za << k, k = zb[5:0]). -/
def valShl (x y : DWord) : DWord := x <<< (y.toNat % 64)

/-- `shl` (R202: za << k, k = zb[5:0]). -/
def execShl (q : Issue) (d a b : GReg) (s : State) : Res :=
  s.alu q 1 d (valShl (s.cur.reg a) (s.cur.reg b))

/-- The value of `shr` (R202: za >> k). -/
def valShr (x y : DWord) : DWord := x >>> (y.toNat % 64)

/-- `shr` (R202: za >> k). -/
def execShr (q : Issue) (d a b : GReg) (s : State) : Res :=
  s.alu q 1 d (valShr (s.cur.reg a) (s.cur.reg b))

/-- The value of `sha` (R202: sa >> k). -/
def valSha (x y : DWord) : DWord := x.sshiftRight (y.toNat % 64)

/-- `sha` (R202: sa >> k). -/
def execSha (q : Issue) (d a b : GReg) (s : State) : Res :=
  s.alu q 1 d (valSha (s.cur.reg a) (s.cur.reg b))

/-- The value of `min` (R202: signed minimum). -/
def valMin (x y : DWord) : DWord := if x.slt y then x else y

/-- `min` (R202: signed minimum). -/
def execMin (q : Issue) (d a b : GReg) (s : State) : Res :=
  s.alu q 1 d (valMin (s.cur.reg a) (s.cur.reg b))

/-- The value of `max` (R202: signed maximum). -/
def valMax (x y : DWord) : DWord := if x.slt y then y else x

/-- `max` (R202: signed maximum). -/
def execMax (q : Issue) (d a b : GReg) (s : State) : Res :=
  s.alu q 1 d (valMax (s.cur.reg a) (s.cur.reg b))

/-- The value of `minn` (R202: unsigned minimum). -/
def valMinn (x y : DWord) : DWord := if x.ult y then x else y

/-- `minn` (R202: unsigned minimum). -/
def execMinn (q : Issue) (d a b : GReg) (s : State) : Res :=
  s.alu q 1 d (valMinn (s.cur.reg a) (s.cur.reg b))

/-- The value of `maxn` (R202: unsigned maximum). -/
def valMaxn (x y : DWord) : DWord := if x.ult y then y else x

/-- `maxn` (R202: unsigned maximum). -/
def execMaxn (q : Issue) (d a b : GReg) (s : State) : Res :=
  s.alu q 1 d (valMaxn (s.cur.reg a) (s.cur.reg b))

/-- The value of `slt` (R202: 1 if sa < sb, else 0). -/
def valSlt (x y : DWord) : DWord := flag64 (x.slt y)

/-- `slt` (R202: 1 if sa < sb, else 0). -/
def execSlt (q : Issue) (d a b : GReg) (s : State) : Res :=
  s.alu q 1 d (valSlt (s.cur.reg a) (s.cur.reg b))

/-- The value of `sltn` (R202: 1 if za < zb, else 0). -/
def valSltn (x y : DWord) : DWord := flag64 (x.ult y)

/-- `sltn` (R202: 1 if za < zb, else 0). -/
def execSltn (q : Issue) (d a b : GReg) (s : State) : Res :=
  s.alu q 1 d (valSltn (s.cur.reg a) (s.cur.reg b))

/-- The value of `mul` (R202: sa × sb, latency 3). -/
def valMul (x y : DWord) : DWord := x * y

/-- `mul` (R202: sa × sb, latency 3). -/
def execMul (q : Issue) (d a b : GReg) (s : State) : Res :=
  s.alu q 3 d (valMul (s.cur.reg a) (s.cur.reg b))

/-- The value of `mulh` (R202: (sa × sb) >> 64, latency 4). -/
def valMulh (x y : DWord) : DWord := mulHigh x y

/-- `mulh` (R202: (sa × sb) >> 64, latency 4). -/
def execMulh (q : Issue) (d a b : GReg) (s : State) : Res :=
  s.alu q 4 d (valMulh (s.cur.reg a) (s.cur.reg b))

/-- The value of `mulhn` (R202: (za × zb) >> 64, latency 4). -/
def valMulhn (x y : DWord) : DWord := mulHighN x y

/-- `mulhn` (R202: (za × zb) >> 64, latency 4). -/
def execMulhn (q : Issue) (d a b : GReg) (s : State) : Res :=
  s.alu q 4 d (valMulhn (s.cur.reg a) (s.cur.reg b))

/-- The value of `div` (R202: sa / sb toward zero, latency 24). -/
def valDiv (x y : DWord) : DWord := divS x y

/-- `div` (R202: sa / sb toward zero, latency 24). -/
def execDiv (q : Issue) (d a b : GReg) (s : State) : Res :=
  s.alu q 24 d (valDiv (s.cur.reg a) (s.cur.reg b))

/-- The value of `divn` (R202: za / zb). -/
def valDivn (x y : DWord) : DWord := divN x y

/-- `divn` (R202: za / zb). -/
def execDivn (q : Issue) (d a b : GReg) (s : State) : Res :=
  s.alu q 24 d (valDivn (s.cur.reg a) (s.cur.reg b))

/-- The value of `rem` (R202: signed remainder). -/
def valRem (x y : DWord) : DWord := remS x y

/-- `rem` (R202: signed remainder). -/
def execRem (q : Issue) (d a b : GReg) (s : State) : Res :=
  s.alu q 24 d (valRem (s.cur.reg a) (s.cur.reg b))

/-- The value of `remn` (R202: unsigned remainder). -/
def valRemn (x y : DWord) : DWord := remN x y

/-- `remn` (R202: unsigned remainder). -/
def execRemn (q : Issue) (d a b : GReg) (s : State) : Res :=
  s.alu q 24 d (valRemn (s.cur.reg a) (s.cur.reg b))

/-- `clz` (R202). -/
def execClz (q : Issue) (d a : GReg) (s : State) : Res :=
  s.alu q 1 d (clz64 (s.cur.reg a))

/-- `popc` (R202). -/
def execPopc (q : Issue) (d a : GReg) (s : State) : Res :=
  s.alu q 1 d (popc64 (s.cur.reg a))

/-- `addi` (R203): gA + s. -/
def execAddi (q : Issue) (d a : GReg) (imm : BitVec 13) (s : State) : Res :=
  s.alu q 1 d (s.cur.reg a + imm.signExtend 64)

/-- `andi` (R203): gA & s. -/
def execAndi (q : Issue) (d a : GReg) (imm : BitVec 13) (s : State) : Res :=
  s.alu q 1 d (s.cur.reg a &&& imm.signExtend 64)

/-- `ori` (R203): gA | s. -/
def execOri (q : Issue) (d a : GReg) (imm : BitVec 13) (s : State) : Res :=
  s.alu q 1 d (s.cur.reg a ||| imm.signExtend 64)

/-- `xori` (R203): gA ^ s. -/
def execXori (q : Issue) (d a : GReg) (imm : BitVec 13) (s : State) : Res :=
  s.alu q 1 d (s.cur.reg a ^^^ imm.signExtend 64)

/-- `slti` (R203): 1 if gA < s signed. -/
def execSlti (q : Issue) (d a : GReg) (imm : BitVec 13) (s : State) : Res :=
  s.alu q 1 d (flag64 ((s.cur.reg a).slt (imm.signExtend 64)))

/-- `sltni` (R203): 1 if gA < trunc(s, 64) unsigned. -/
def execSltni (q : Issue) (d a : GReg) (imm : BitVec 13) (s : State) : Res :=
  s.alu q 1 d (flag64 ((s.cur.reg a).ult (imm.signExtend 64)))

/-- `shli` (R203): gA << IMM. -/
def execShli (q : Issue) (d a : GReg) (imm : BitVec 13) (s : State) : Res :=
  s.alu q 1 d (s.cur.reg a <<< imm.toNat)

/-- `shri` (R203): logical gA >> IMM. -/
def execShri (q : Issue) (d a : GReg) (imm : BitVec 13) (s : State) : Res :=
  s.alu q 1 d (s.cur.reg a >>> imm.toNat)

/-- `shai` (R203): arithmetic gA >> IMM. -/
def execShai (q : Issue) (d a : GReg) (imm : BitVec 13) (s : State) : Res :=
  s.alu q 1 d ((s.cur.reg a).sshiftRight imm.toNat)

/-- `lui` (R203): sext(IMM 17:0, 18) << 13. -/
def execLui (q : Issue) (d : GReg) (imm : BitVec 18) (s : State) : Res :=
  s.alu q 1 d (imm.signExtend 64 <<< 13)

/-- `limm` (R210): sext(imm, 45), latency 1; the instruction is two words long. -/
def execLimm (q : Issue) (d : GReg) (imm : BitVec 45) (s : State) : Res :=
  .next (s.done q 8 fun t => t.result s.cycle 1 d (imm.signExtend 64))

/-- The word `home` writes (R204) for a translation. -/
def homeWord (pa : Nat) (leaf : DWord) : DWord :=
  if leafPlace leaf = 3 then BitVec.ofNat 64 (2 ^ 12)
  else BitVec.ofNat 64 ((if leafPlace leaf = 1 then 2 ^ 11 else 0) + (if leafPlace leaf = 2 then 2 ^ 10 else 0) +
    (if leafMs leaf then 2 ^ 9 else 0) + homeSlice pa * 8 + homeDie pa)

/-- Whether a read would fail a check of R239 before the region table (R204). -/
def homeAbsent (s : State) (e : TlbEntry) (user : Bool) : Bool :=
  match s.check { e with regions := [] } .read user none e.va 1 with
  | .ok _ _ => false
  | _ => true

/-- The entry that translates an address for the acting strand: that of the walk it waited for, else its core's. -/
def State.curEntry (s : State) (x : Nat) : Option TlbEntry :=
  match s.cur.walked with
  | some w => if w.va = x / 65536 then w.entry else s.tlbFind (tlbOf s.focus.strand) s.cur.asid x
  | none => s.tlbFind (tlbOf s.focus.strand) s.cur.asid x

/-- What `home` writes for an address (R204): a region-table violation is no absence, nor is a link that has left service. -/
def State.homeOf (s : State) (x : Nat) : DWord :=
  let absent : DWord := 0x8000000000000000
  match s.curEntry x with
  | some e => if 2 ^ 57 ≤ x || homeAbsent s e (!s.cur.sup) then absent else homeWord (leafFrame e.leaf + (x - e.va)) e.leaf
  | none => absent

/-- `home` (R204): translated at issue as a read that performs no access and never faults; counts in LD and writes gD
at completion. -/
def execHome (q : Issue) (d a : GReg) (s : State) : Res :=
  let x := (s.cur.reg a).toNat
  if 32 ≤ s.cur.outstanding .ld then .next s.stall
  else match s.curTranslate .read x 1 with
    | .miss => .next (s.curWalk x)
    | _ => .next ((s.addOp (.value (s.homeOf x)) d .ld none false false true x).done q 4 id)

end Sys2Proof.Machine
end

