-- ==== Sys2Proof/Machine/ElemInt.lean ====
section
/-! DEFINITION. The integer and logic instructions of elements (06_element_compute.md R123 to R129), and the common action of R123
for instructions of the format EA. -/

namespace Sys2Proof.Machine

/-- The accumulator D(l) that some instructions read: the destination register (R123, R124). -/
def State.accum (s : State) (d : Dst) : Data256 :=
  match dstReg d with
  | some n => s.curCtx.reg n
  | none => 0

/-- An EA instruction of latency L under R123: `op` takes lane l of A, B and D, `carry` gives c[l] from A and B. -/
def State.ea (s : State) (i : Instr) (L : Nat) (f : EA) (op : Word → Word → Word → Word)
    (carry : Word → Word → Bool) : Res :=
  let a := s.src f.a
  let b := s.src f.b
  let d := s.accum f.d
  let r := lanes fun l => op (laneOf a l) (laneOf b l) (laneOf d l)
  let c := laneBits fun l => carry (laneOf a l) (laneOf b l)
  .next (s.fireCommon i L f.d f.a f.b f.tg (predWrites f.pd f.pm r c s.focus.lanes) r)

/-- No carry: PM = 3 is illegal (R127). -/
def noCarry (_ _ : Word) : Bool := false

/-- An EI instruction (R129): no predicate, tag 0. -/
def State.ei (s : State) (i : Instr) (d : Dst) (a : Src) (op : Word → Word) : Res :=
  let x := s.src a
  .next (s.fireCommon i 2 d a .zero 0 [] (lanes fun l => op (laneOf x l)))

/-- Set bits of a word (R128). -/
def popc32 (a : Word) : Word := BitVec.ofNat 32 ((List.range 32).foldl (fun n i => n + (a.getLsbD i).toNat) 0)
/-- Leading zero bits, 32 for zero (R128). -/
def clz32 (a : Word) : Word := BitVec.ofNat 32 (if a = 0 then 32 else 31 - Nat.log2 a.toNat)
/-- Byte j of a word, as a signed or unsigned number (R128). -/
def byteInt (signed : Bool) (w : Word) (j : Nat) : Int :=
  let b : Byte := w.extractLsb' (8 * j) 8
  if signed then b.toInt else (b.toNat : Int)
/-- `idot4` (R128): MOD 0 both signed, 1 u unsigned, 2 both unsigned. -/
def valIdot4 (md : BitVec 2) (a b d : Word) : Word :=
  let t (j : Nat) : Int := byteInt (md = 0) a j * byteInt (md != 2) b j
  BitVec.ofInt 32 (d.toInt + t 0 + t 1 + t 2 + t 3)

/-- `nop` (R128): nothing is computed; sources are read and takes consume. -/
def execENop (a b : Src) (s : State) : Res := .next (s.fireCommon (.eNop a b) 2 .none a b 0 [] 0)

/-- The value of `mov` in a lane (R128). -/
def valMov (a _ _ : Word) : Word := a

/-- `mov` (R128). -/
def execMov (f : EA) (s : State) : Res := s.ea (.mov f) 2 f valMov noCarry

/-- The value of `iadd` in a lane (R128). -/
def valIadd (a b _ : Word) : Word := a + b

/-- `iadd` (R128). -/
def execIadd (f : EA) (s : State) : Res := s.ea (.iadd f) 2 f valIadd carryAdd

/-- The value of `isub` in a lane (R128). -/
def valIsub (a b _ : Word) : Word := a - b

/-- `isub` (R128). -/
def execIsub (f : EA) (s : State) : Res := s.ea (.isub f) 2 f valIsub borrowSub

/-- The value of `iadds` in a lane (R128). -/
def valIadds (a b _ : Word) : Word := satS32 (a.toInt + b.toInt)

/-- `iadds` (R128). -/
def execIadds (f : EA) (s : State) : Res := s.ea (.iadds f) 2 f valIadds (fun a b => clamped (a.toInt + b.toInt))

/-- The value of `isubs` in a lane (R128). -/
def valIsubs (a b _ : Word) : Word := satS32 (a.toInt - b.toInt)

/-- `isubs` (R128). -/
def execIsubs (f : EA) (s : State) : Res := s.ea (.isubs f) 2 f valIsubs (fun a b => clamped (a.toInt - b.toInt))

/-- The value of `imul` in a lane (R128). -/
def valImul (a b _ : Word) : Word := a * b

/-- `imul` (R128). -/
def execImul (f : EA) (s : State) : Res := s.ea (.imul f) 2 f valImul noCarry

/-- The value of `imulh` in a lane (R128). -/
def valImulh (a b _ : Word) : Word := BitVec.ofInt 32 (a.toInt * b.toInt / 2 ^ 32)

/-- `imulh` (R128). -/
def execImulh (f : EA) (s : State) : Res := s.ea (.imulh f) 2 f valImulh noCarry

/-- The value of `imulhn` in a lane (R128). -/
def valImulhn (a b _ : Word) : Word := BitVec.ofNat 32 (a.toNat * b.toNat / 2 ^ 32)

/-- `imulhn` (R128). -/
def execImulhn (f : EA) (s : State) : Res := s.ea (.imulhn f) 2 f valImulhn noCarry

/-- The value of `imad` in a lane (R128). -/
def valImad (a b d : Word) : Word := a * b + d

/-- `imad` (R128). -/
def execImad (f : EA) (s : State) : Res := s.ea (.imad f) 2 f valImad noCarry

/-- The value of `imin` in a lane (R128). -/
def valImin (a b _ : Word) : Word := if a.toInt ≤ b.toInt then a else b

/-- `imin` (R128). -/
def execImin (f : EA) (s : State) : Res := s.ea (.imin f) 2 f valImin noCarry

/-- The value of `imax` in a lane (R128). -/
def valImax (a b _ : Word) : Word := if a.toInt ≤ b.toInt then b else a

/-- `imax` (R128). -/
def execImax (f : EA) (s : State) : Res := s.ea (.imax f) 2 f valImax noCarry

/-- The value of `nmin` in a lane (R128). -/
def valNmin (a b _ : Word) : Word := if a.toNat ≤ b.toNat then a else b

/-- `nmin` (R128). -/
def execNmin (f : EA) (s : State) : Res := s.ea (.nmin f) 2 f valNmin noCarry

/-- The value of `nmax` in a lane (R128). -/
def valNmax (a b _ : Word) : Word := if a.toNat ≤ b.toNat then b else a

/-- `nmax` (R128). -/
def execNmax (f : EA) (s : State) : Res := s.ea (.nmax f) 2 f valNmax noCarry

/-- The value of `iabs` in a lane (R128). -/
def valIabs (a _ _ : Word) : Word := satS32 (a.toInt.natAbs : Int)

/-- `iabs` (R128). -/
def execIabs (f : EA) (s : State) : Res := s.ea (.iabs f) 2 f valIabs noCarry

/-- The value of `eAnd` in a lane (R128). -/
def valEAnd (a b _ : Word) : Word := a &&& b

/-- `eAnd` (R128). -/
def execEAnd (f : EA) (s : State) : Res := s.ea (.eAnd f) 2 f valEAnd noCarry

/-- The value of `eOr` in a lane (R128). -/
def valEOr (a b _ : Word) : Word := a ||| b

/-- `eOr` (R128). -/
def execEOr (f : EA) (s : State) : Res := s.ea (.eOr f) 2 f valEOr noCarry

/-- The value of `eXor` in a lane (R128). -/
def valEXor (a b _ : Word) : Word := a ^^^ b

/-- `eXor` (R128). -/
def execEXor (f : EA) (s : State) : Res := s.ea (.eXor f) 2 f valEXor noCarry

/-- The value of `eAndn` in a lane (R128). -/
def valEAndn (a b _ : Word) : Word := a &&& ~~~b

/-- `eAndn` (R128). -/
def execEAndn (f : EA) (s : State) : Res := s.ea (.eAndn f) 2 f valEAndn noCarry

/-- The value of `eShl` in a lane (R128). -/
def valEShl (a b _ : Word) : Word := if b.toNat < 32 then a <<< b.toNat else 0

/-- `eShl` (R128). -/
def execEShl (f : EA) (s : State) : Res := s.ea (.eShl f) 2 f valEShl noCarry

/-- The value of `eShr` in a lane (R128). -/
def valEShr (a b _ : Word) : Word := if b.toNat < 32 then a >>> b.toNat else 0

/-- `eShr` (R128). -/
def execEShr (f : EA) (s : State) : Res := s.ea (.eShr f) 2 f valEShr noCarry

/-- The value of `eSha` in a lane (R128). -/
def valESha (a b _ : Word) : Word := a.sshiftRight (min b.toNat 31)

/-- `eSha` (R128). -/
def execESha (f : EA) (s : State) : Res := s.ea (.eSha f) 2 f valESha noCarry

/-- The value of `ePopc` in a lane (R128). -/
def valEPopc (a _ _ : Word) : Word := popc32 a

/-- `ePopc` (R128). -/
def execEPopc (f : EA) (s : State) : Res := s.ea (.ePopc f) 2 f valEPopc noCarry

/-- The value of `eClz` in a lane (R128). -/
def valEClz (a _ _ : Word) : Word := clz32 a

/-- `eClz` (R128). -/
def execEClz (f : EA) (s : State) : Res := s.ea (.eClz f) 2 f valEClz noCarry

/-- `sel` (R128): A where p[MOD] is set, else B; the predicate as it stood at the start of the firing. -/
def execSel (f : EA) (s : State) : Res :=
  let a := s.src f.a
  let b := s.src f.b
  let p := s.curCtx.pred (f.md.setWidth 3)
  let r := lanes fun l => if p.getLsbD l then laneOf a l else laneOf b l
  .next (s.fireCommon (.sel f) 2 f.d f.a f.b f.tg (predWrites f.pd f.pm r 0 s.focus.lanes) r)

/-- `idot4` (R128). -/
def execIdot4 (f : EA) (s : State) : Res := s.ea (.idot4 f) 2 f (valIdot4 f.md) noCarry

/-- `movi` (R129): the sign-extended immediate. -/
def execMovi (d : Dst) (imm : BitVec 15) (s : State) : Res := s.ei (.movi d imm) d .zero fun _ => imm.signExtend 32

/-- `movhi` (R129): (za << 15) | IMM. -/
def execMovhi (f : EI) (s : State) : Res := s.ei (.movhi f) f.d f.a fun a => (a <<< 15) ||| f.imm.setWidth 32

/-- `iaddi` (R129). -/
def execIaddi (f : EI) (s : State) : Res := s.ei (.iaddi f) f.d f.a fun a => a + f.imm.signExtend 32

/-- `andi` (R129). -/
def execEAndi (f : EI) (s : State) : Res := s.ei (.eAndi f) f.d f.a fun a => a &&& f.imm.signExtend 32

/-- `shli` (R129); IMM is 0 to 31. -/
def execEShli (f : EI) (s : State) : Res := s.ei (.eShli f) f.d f.a fun a => a <<< f.imm.toNat

/-- `shri` (R129); IMM is 0 to 31. -/
def execEShri (f : EI) (s : State) : Res := s.ei (.eShri f) f.d f.a fun a => a >>> f.imm.toNat

end Sys2Proof.Machine
end

