-- ==== Sys2Proof/Machine/ElemScratch.lean ====
section
/-! DEFINITION. Lanes and offsets of storage instructions, and the scratch instructions (07_element_storage.md R155 to
R157, R162, R166). -/

namespace Sys2Proof.Machine

/-! ### Instructions in flight -/

/-- The instruction in flight of a context. -/
def State.flying (s : State) (e : ElemId) (c : Nat) : Option InFlight := ((s.elem e).pl.ctx c).fly

/-- The instruction in flight of a context changed. -/
def State.modFly (s : State) (e : ElemId) (c : Nat) (g : InFlight → InFlight) : State :=
  s.modElem e fun v => v.modPl fun p =>
    let t := p.ctx c
    p.setCtx c { t with fly := t.fly.map g }

/-- The result of an instruction in flight for its destination (R123): zero in the lanes that do not execute. -/
def InFlight.yields (f : InFlight) (d : Dst) (tg : BitVec 3) (r : Data256) : InFlight :=
  let tok : Token := ⟨maskLanes f.exec_ r, tg, false⟩
  { f with regs := match dstReg d with | some n => [(n, r, f.exec_)] | none => [],
           o0 := if dstNames d false then some tok else none, o1 := if dstNames d true then some tok else none }

/-- A wait of an instruction in flight has ended: it completes L cycles after (R176). -/
def State.settle (s : State) (e : ElemId) (c L : Nat) (g : InFlight → InFlight) : State :=
  s.modFly e c fun f => { g f with wait := .no, due := s.cycle + L - 1 }

/-- An instruction in flight waits; it is looked at again from a cycle on. -/
def State.await (s : State) (e : ElemId) (c : Nat) (w : Waiting) (due : Nat) : State :=
  s.modFly e c fun f => { f with wait := w, due := due }

/-- A firing of the acting context whose result its attempt gives: `try_` runs on the state after the firing. -/
def State.fireThen (s : State) (i : Instr) (d : Dst) (a b : Src) (w : Waiting) (try_ : State → State) : Res :=
  if s.mayFire d [a, b] then
    .next (try_ ({ s.fire d [a, b] { s.flyOf i 1 a b with wait := w, id := s.serial } with serial := s.serial + 1 }))
  else .next s

/-! ### Lanes and offsets (R156, R157) -/

/-- n of an access size (R156). -/
def esizeBytes : ESize → Nat
  | .b => 1
  | .h => 2
  | .w => 4
  | .t => 32

/-- The lanes of a mask, ascending. -/
def lanesIn (m : BitVec 8) : List Nat := (List.range 8).filter fun l => m.getLsbD l

/-- The accesses of a storage instruction: lane and offset (R157). A whole-token access has one, at A(0). -/
def laneOffsets (m : BitVec 8) (sz : ESize) (a : Data256) : List (Nat × Nat) :=
  match sz with
  | .t => [(0, (laneOf a 0).toNat)]
  | _ => (lanesIn m).map fun l => (l, (laneOf a l).toNat)

/-- The bytes that lane l stores with a size (R157). -/
def storeBytes (sz : ESize) (b : Data256) (l : Nat) : List Byte := toBytes (esizeBytes sz) (laneOf b l).toNat

/-- A whole token's bytes with the lanes' byte mask (R157). -/
def tokenBytes (m : BitVec 8) (b : Data256) : List (Option Byte) :=
  (List.range 32).map fun i => if m.getLsbD (i / 4) then some (b.extractLsb' (8 * i) 8) else none

/-- What an access stores: its bytes with their mask. -/
def accessBytes (m : BitVec 8) (sz : ESize) (b : Data256) (l : Nat) : List (Option Byte) :=
  match sz with
  | .t => tokenBytes m b
  | _ => (storeBytes sz b l).map some

/-- A loaded value in its lane (R157): extended from n bytes. -/
def loadLane (n : Nat) (sx : Bool) (bs : List Byte) : Word :=
  let v := leNat bs
  if sx then (BitVec.ofNat (8 * n) v).signExtend 32 else BitVec.ofNat 32 v

/-- The result of a load from the bytes of its accesses, by lane (R157). -/
def loadResult (sz : ESize) (sx : Bool) (got : List (Nat × List Byte)) : Data256 :=
  match sz with
  | .t => BitVec.ofNat 256 (leNat ((got.head?.map Prod.snd).getD []))
  | _ => lanes fun l => match got.find? (fun g => g.1 = l) with
    | some g => loadLane (esizeBytes sz) sx g.2
    | none => 0

/-! ### Scratch (R155) -/

/-- DETAIL of a fault of an element instruction (R166): site or scratch, and the first failing lane. -/
def elemDetail (site : Nat) (scratch : Bool) (lane : Nat) : Nat := site % 64 + (if scratch then 64 else 0) + lane % 8 * 256

/-- The first access that R155 refuses: code, lane, offset. -/
def scratchBad (n : Nat) : List (Nat × Nat) → Option (Nat × Nat × Nat)
  | [] => none
  | (l, o) :: t =>
    if Config.scratchBytes < o + n then some (0x0F, l, o)
    else if o % n != 0 then some (0x10, l, o)
    else scratchBad n t

/-- The granules of accesses of n bytes (R155). -/
def granulesOf (n : Nat) (xs : List (Nat × Nat)) : List Nat :=
  (xs.flatMap fun x => (List.range ((x.2 + n - 1) / 16 - x.2 / 16 + 1)).map fun k => x.2 / 16 + k).eraseDups

/-- Granules set full in a sorted list. -/
def setFull : List Nat → Nat → List Nat
  | [], g => [g]
  | k :: t, g => if g < k then g :: k :: t else if g = k then k :: t else k :: setFull t g

/-- Spoilt words less those whose every byte a write sets (R392). -/
def cureWords (l : List Nat) (off : Nat) (bs : List (Option Byte)) : List Nat :=
  l.filter fun w => !((List.range 4).all fun i => decide (off ≤ w + i) && (bs[w + i - off]?.join).isSome)

/-- Whether a read of scratch meets a word that an uncorrected error has spoilt: no master is given that word (R392). -/
def Elem.meetsSpoilt (v : Elem) (off n : Nat) : Bool := v.spoilt.any fun w => overlaps w 4 off n

/-- Bytes written to scratch as an engine writes them: the granules become full (R87). -/
def Elem.engineWrite (v : Elem) (off : Nat) (bs : List (Option Byte)) : Elem :=
  { v with scr := writeOpt v.scr off bs, spoilt := cureWords v.spoilt off bs, full := (granulesOf bs.length [(0, off)]).foldl setFull v.full }

/-- The fault of an instruction of a context on scratch. -/
def State.scratchFault (s : State) (e : ElemId) (c : Nat) (f : Nat × Nat × Nat) : State :=
  s.elemFault e c f.1 (elemDetail 0 true f.2.1) f.2.2

/-- A scratch access at its firing: `k` performs it once its offsets pass R155. -/
def State.scratch (s : State) (i : Instr) (d : Dst) (a b : Src) (sz : ESize) (w : Waiting)
    (k : State → InFlight → List (Nat × Nat) → State) : Res :=
  s.fireThen i d a b w fun s1 =>
    match s1.flying s1.focus.elem s1.focus.ctx with
    | none => s1
    | some f =>
      let xs := laneOffsets f.exec_ sz f.a
      match scratchBad (esizeBytes sz) xs with
      | some bad => s1.scratchFault s1.focus.elem s1.focus.ctx bad
      | none => k s1 f xs

/-- The bytes of scratch accesses, by lane. -/
def Elem.scratchGet (v : Elem) (n : Nat) (xs : List (Nat × Nat)) : List (Nat × List Byte) :=
  xs.map fun x => (x.1, readN v.scr x.2 n)

/-- Scratch accesses stored in ascending lane order (R157). -/
def Elem.scratchPut (v : Elem) (m : BitVec 8) (sz : ESize) (b : Data256) (xs : List (Nat × Nat)) : Elem :=
  { v with scr := xs.foldl (fun mem x => writeOpt mem x.2 (accessBytes m sz b x.1)) v.scr,
           spoilt := xs.foldl (fun l x => cureWords l x.2 (accessBytes m sz b x.1)) v.spoilt }

/-- The first of scratch reads that meets a spoilt word, as a fault. -/
def Elem.spoiltRead (v : Elem) (n : Nat) (xs : List (Nat × Nat)) : Option (Nat × Nat × Nat) :=
  (xs.find? fun x => v.meetsSpoilt x.2 n).map fun x => (0x16, x.1, x.2)

/-- `xld` (R157). Its format has no TG field: its token carries tag 0 (log 98). -/
def execXld (d : Dst) (a : Src) (sz : ESize) (sx : Bool) (s : State) : Res :=
  s.scratch (.xld d a sz sx) d a .zero sz .no fun s _ xs =>
    let v := s.elem s.focus.elem
    match v.spoiltRead (esizeBytes sz) xs with
    | some f => s.scratchFault s.focus.elem s.focus.ctx f
    | none =>
      let r := loadResult sz sx (v.scratchGet (esizeBytes sz) xs)
      s.settle s.focus.elem s.focus.ctx 4 fun g => g.yields d 0 r

/-- `xst` (R157): full bits stay. Its latency is that of R176, not that of R126 (log 99). -/
def execXst (a b : Src) (sz : ESize) (s : State) : Res :=
  s.scratch (.xst a b sz) .none a b sz .no fun s f xs =>
    (s.modElem s.focus.elem fun v => v.scratchPut f.exec_ sz f.b xs).settle s.focus.elem s.focus.ctx 2 id

/-- `fest` (R157): the granules written become full; latency as `xst` (log 99). -/
def execFest (a b : Src) (sz : ESize) (s : State) : Res :=
  s.scratch (.fest a b sz) .none a b sz .no fun s f xs =>
    (s.modElem s.focus.elem fun v =>
      let w := v.scratchPut f.exec_ sz f.b xs
      { w with full := (granulesOf (esizeBytes sz) xs).foldl setFull w.full }).settle s.focus.elem s.focus.ctx 2 id

/-- A `feld` in flight looked at (R157): it performs once every granule it reads is full; `.take` clears them. -/
def State.tryFeld (s : State) (e : ElemId) (c : Nat) (take : Bool) (d : Dst) (sz : ESize) (f : InFlight) : State :=
  let xs := laneOffsets f.exec_ sz f.a
  let gs := granulesOf (esizeBytes sz) xs
  let v := s.elem e
  if gs.all v.full.contains then
    match v.spoiltRead (esizeBytes sz) xs with
    | some f => s.scratchFault e c f
    | none =>
      let r := loadResult sz false (v.scratchGet (esizeBytes sz) xs)
      (s.setElem e { v with full := if take then v.full.filter (fun g => !gs.contains g) else v.full }).settle e c 4
        fun g => g.yields d 0 r
  else s.await e c .granule (s.cycle + 1)

/-- `feld` (R157). -/
def execFeld (take : Bool) (d : Dst) (a : Src) (sz : ESize) (s : State) : Res :=
  s.scratch (.feld take d a sz) d a .zero sz .granule fun s f _ => s.tryFeld s.focus.elem s.focus.ctx take d sz f

/-- `feclr` (R162): full bits of a range cleared; latency as `xst` (log 99). -/
def execFeclr (a b : Src) (s : State) : Res :=
  s.fireThen (.feclr a b) .none a b .no fun s =>
    match s.flying s.focus.elem s.focus.ctx with
    | none => s
    | some f =>
      let o := (laneOf f.a 0).toNat
      let n := (laneOf f.b 0).toNat
      if o % 16 != 0 || n % 16 != 0 then s.scratchFault s.focus.elem s.focus.ctx (0x10, 0, o)
      else if Config.scratchBytes < o + n then s.scratchFault s.focus.elem s.focus.ctx (0x0F, 0, o)
      else (s.modElem s.focus.elem fun v =>
        { v with full := v.full.filter fun g => !(decide (o ≤ 16 * g) && decide (16 * g < o + n)) }).settle
          s.focus.elem s.focus.ctx 2 id

end Sys2Proof.Machine
end

