-- ==== Sys2Proof/Machine/MArith.lean ====
section
/-! DEFINITION. The arithmetic of an M-element (02_numbers.md R22, R26 to R32, R41 to R49): one column of one A row on the
window, scaled and integer paths. -/

namespace Sys2Proof.Machine

/-- Bits of a format code (R22). -/
def formatBits (fmt : Nat) : Nat :=
  match fmt with
  | 0 => 8
  | 1 => 4
  | 2 => 8
  | 3 => 8
  | 4 => 4
  | 5 => 16
  | 6 => 16
  | 7 => 4
  | _ => 32

/-- The integer of w bits in two's complement (R23). -/
def intOf (w v : Nat) : Int := if v % 2 ^ w < 2 ^ (w - 1) then (v % 2 ^ w : Nat) else (v % 2 ^ w : Nat) - (2 ^ w : Nat)

/-- The levels of QN16 (R30). -/
def qnLevel (c : Nat) : Int :=
  ([-127, -88, -67, -50, -36, -23, -11, 0, 10, 20, 31, 43, 56, 72, 93, 127] : List Int)[c % 16]?.getD 0

/-- The integer of a weight or an activation on the integer path, or a QN16 level (R23, R30). -/
def codeInt (fmt v : Nat) : Int :=
  match fmt with
  | 0 => intOf 8 v
  | 1 => intOf 4 v
  | 7 => qnLevel v
  | _ => 0

/-- The value of a code of a weight or activation format (R22 to R25). -/
def codeFp (fmt v : Nat) : Fp :=
  match fmt with
  | 2 => fmtE4m3.value v
  | 3 => fmtE5m2.value v
  | 4 => fmtE2m1.value v
  | 5 => fmtBf16.value v
  | 6 => fmtF16.value v
  | k => Fp.ofInt (codeInt k v) 0

/-- An E8M0 byte as an exponent of two; none for NaN (R27). -/
def e8m0 (b : Nat) : Option Int := if b % 256 = 255 then none else some ((b % 256 : Nat) - 127)

/-- Value j of width w in packed bytes given as one number (R26). -/
def packedAt (w : Nat) (v j : Nat) : Nat := (v >>> (w * j)) % 2 ^ w

/-- The leading-bit exponent of a finite magnitude. -/
def leadExp (m : Nat) (e : Int) : Int := e + bitLen m - 1

/-- The largest leading-bit exponent of nonzero finite terms. -/
def maxExp : List Fp → Option Int
  | [] => none
  | .fin _ m e :: t =>
    if m = 0 then maxExp t
    else match maxExp t with
      | none => some (leadExp m e)
      | some x => some (max x (leadExp m e))
  | _ :: t => maxExp t

/-- A term truncated toward zero in units of 2^q (R45). -/
def truncTerm (q : Int) : Fp → Int
  | .fin neg m e =>
    let a : Nat := if q ≤ e then m * 2 ^ (e - q).toNat else m / 2 ^ (q - e).toNat
    if neg then -(a : Int) else a
  | _ => 0

/-- Whether a term is an infinity of a sign. -/
def isInfOf (neg : Bool) : Fp → Bool
  | .inf s => s = neg
  | _ => false

/-- The sum of exact terms in the 64-bit window, rounded once (R45), with the special values of R46. -/
def windowSum (ts : List Fp) : Word :=
  if ts.any (fun t => t == .nan) || (ts.any (isInfOf false) && ts.any (isInfOf true)) then nanF32
  else if ts.any (isInfOf false) then rneF32 (.inf false)
  else if ts.any (isInfOf true) then rneF32 (.inf true)
  else match maxExp ts with
    | none => 0
    | some e =>
      let q := e - 55
      rneF32 (Fp.ofInt (ts.foldl (fun a t => a + truncTerm q t) 0) q)

/-- A product of an activation with its scale, a weight and a column scale (R45, R46): a zero activation gives zero, even
where the weight is special. -/
def termOf (a : Fp) (sa : Int) (w : Fp) (sw : Int) : Fp := if a.isZero then .fin false 0 0 else (a.mul w).scale (sa + sw)

/-- The latched scales of a row: block length and the exponent of each value (R29); none for a NaN scale. -/
def rowScale (blen : Nat) (s : List Nat) (k : Nat) : Option Int := e8m0 ((s[k / (16 * 2 ^ blen)]?).getD 127)

/-- Whether a NaN scale byte applies to some block of a row (R46). -/
def rowScaleNan (blen : Nat) (s : List Nat) : Bool :=
  (List.range (64 / (16 * 2 ^ blen))).any fun b => (e8m0 ((s[b]?).getD 127)).isNone

/-- A column on the window path (R45, R46). `as` are the codes of the row, `ws` of the column. -/
def windowColumn (afmt wfmt : Nat) (as ws : List Nat) (blen : Nat) (s : List Nat) (sw : Option Int) (c : Fp) : Word :=
  match sw with
  | none => nanF32
  | some x =>
    if rowScaleNan blen s then nanF32
    else windowSum ((List.range 64).map (fun k =>
      termOf (codeFp afmt ((as[k]?).getD 0)) ((rowScale blen s k).getD 0) (codeFp wfmt ((ws[k]?).getD 0)) x) ++ [c])

/-- The column factor f = rne_f32(q × F / 32,385) (R32). -/
def qnFactor (q : Nat) (sup : Word) : Word :=
  match f32 sup with
  | .nan => nanF32
  | .inf s => if q = 0 then 0 else rneF32 (.inf s)
  | .fin s m e =>
    let n := m * q * 2 ^ 64
    rneF32 (sticky (n / 32385) (e - 64) (n % 32385 != 0) s)

/-- A column on the scaled path (R47). With q = 0 the result is C[n] as it is, a NaN too (log 97). -/
def scaledColumn (afmt : Nat) (as ws : List Nat) (blen : Nat) (s : List Nat) (q : Nat) (sup c : Word) : Word :=
  if q = 0 then c
  else fmaF32 (windowColumn afmt 7 as ws blen s (some 0) (.fin false 0 0)) (qnFactor q sup) c

/-- A column on the integer path (R48). -/
def integerColumn (afmt wfmt : Nat) (as ws : List Nat) (c : Int) : Int :=
  (List.range 64).foldl (fun a k => a + codeInt afmt ((as[k]?).getD 0) * codeInt wfmt ((ws[k]?).getD 0)) c

/-- Planes of a weight format (R42). -/
def planesOf (wfmt : Nat) : Nat :=
  match wfmt with
  | 0 => 8
  | 1 => 4
  | 2 => 5
  | 3 => 4
  | 4 => 3
  | 5 => 9
  | 6 => 12
  | _ => 8

end Sys2Proof.Machine
end

