-- ==== Sys2Proof/Machine/ElemChan.lean ====
section
/-! DEFINITION. Channels, loops and width converters of elements, and `mrld` (07_element_storage.md R165, R167 to R171). -/

namespace Sys2Proof.Machine

/-! ### `emit`, `hdr`, `drop` (R165) -/

/-- A firing of latency 2 that emits one whole token, whatever the lanes do. -/
def State.fireToken (s : State) (i : Instr) (d : Dst) (a b : Src) (t : Token) : Res :=
  if s.mayFire d [a, b] then
    .next (s.fire d [a, b] { s.flyOf i 2 a b with o0 := if dstNames d false then some t else none,
                                                  o1 := if dstNames d true then some t else none })
  else .next s

/-- The head token that a channel source names. -/
def State.headTok (s : State) (a : Src) : Token := ((chanOf a).bind s.head).getD ⟨0, 0, false⟩

/-- `emit` (R165): the head with its K bit; the tag TG, or with `.kt` its own. -/
def execEmit (kt : Bool) (d : Dst) (a : Src) (tg : BitVec 3) (s : State) : Res :=
  let t := s.headTok a
  s.fireToken (.emit kt d a tg) d a .zero { t with tag := if kt then t.tag else tg }

/-- `hdr` (R165): K = 1, lane 0 from A, the others from B. -/
def execHdr (d : Dst) (a b : Src) (tg : BitVec 3) (s : State) : Res :=
  let x := s.src a
  let y := s.src b
  s.fireToken (.hdr d a b tg) d a b ⟨lanes fun l => if l = 0 then laneOf x 0 else laneOf y l, tg, true⟩

/-- A keep code as the take code of its channel: `drop` consumes either (R165). -/
def asTake : Src → Src
  | .keep c => .take c
  | a => a

/-- A take code as the keep code of its channel. -/
def asKeep : Src → Src
  | .take c => .keep c
  | a => a

/-- A `drop.page` in flight looked at (R165): in each cycle it consumes the head of its channel, until a header heads it. -/
def State.tryDrop (s : State) (a : Src) : State :=
  let e := s.focus.elem
  let c := s.focus.ctx
  match chanOf a with
  | none => s.settle e c 2 id
  | some ch =>
    match s.head ch with
    | none => s.await e c .page (s.cycle + 1)
    | some t =>
      if t.k then s.settle e c 2 id
      else (s.modElem e fun v => v.modPl fun p => p.popIn ch.toNat).await e c .page (s.cycle + 1)

/-- `drop` and `drop.page` (R165). -/
def execDrop (page : Bool) (a b : Src) (s : State) : Res :=
  if page then s.fireThen (.drop page a b) .none (asKeep a) .zero .page fun s1 => s1.tryDrop a
  else s.fireThen (.drop page a b) .none (asTake a) (asTake b) .no fun s1 => s1.settle s1.focus.elem s1.focus.ctx 2 id

/-! ### The loop generator (R167 to R169) -/

/-- A word of a loop generator's block. -/
def LoopGen.word (g : LoopGen) (k : Nat) : Word := g.words[k]?.getD 0

/-- TOK. -/
def LoopGen.tok (g : LoopGen) : Bool := (g.word 5).getLsbD 0

/-- STR of level j (1 to 4). -/
def LoopGen.stride (g : LoopGen) (j : Nat) : Word := ((g.word j).extractLsb' 0 16).signExtend 32

/-- CNT of level j as the nest runs it. -/
def LoopGen.cnt (g : LoopGen) (j : Nat) : Nat := ((g.cnts[j - 1]?).getD 0).toNat

/-- Index of level j. -/
def LoopGen.at_ (g : LoopGen) (j : Nat) : Nat := (g.idx[j - 1]?).getD 0

/-- The current value (R168). -/
def LoopGen.value (g : LoopGen) : Word :=
  [1, 2, 3, 4].foldl (fun v j => v + BitVec.ofNat 32 (g.at_ j) * g.stride j) g.base

/-- The level that the odometer steps: the lowest used one that is not at its end (R168). -/
def LoopGen.level (g : LoopGen) : Option Nat :=
  [1, 2, 3, 4].find? fun j => g.cnt j != 0 && decide (g.at_ j + 1 < g.cnt j)

/-- The nest advanced: at its end it restarts, or in token mode is disarmed (R168). -/
def LoopGen.advance (g : LoopGen) : LoopGen :=
  match g.level with
  | some k => { g with idx := [1, 2, 3, 4].map fun j => if j < k then 0 else if j = k then g.at_ j + 1 else g.at_ j }
  | none => { g with idx := [0, 0, 0, 0], armed := !g.tok }

/-- A nest as its block configures it (R167). -/
def LoopGen.make (ws : List Word) : LoopGen :=
  { words := ws, base := ws[0]?.getD 0, cnts := [1, 2, 3, 4].map fun j => (ws[j]?.getD 0).extractLsb' 16 16,
    idx := [0, 0, 0, 0], armed := !((ws[5]?.getD 0).getLsbD 0) }

/-- A nest armed by a bound token (R169): the levels that the block uses take the token's counts. -/
def LoopGen.bind (g : LoopGen) (t : Data256) : LoopGen :=
  let used (j : Nat) : Bool := (g.word j).extractLsb' 16 16 != 0
  let cnts := [1, 2, 3, 4].map fun j => if used j then (laneOf t j).extractLsb' 0 16 else 0
  { g with base := laneOf t 0, cnts := cnts, idx := [0, 0, 0, 0],
           armed := [1, 2, 3, 4].all fun j => !used j || (laneOf t j).extractLsb' 0 16 != 0 }

/-- A predicate write of every executing lane, if the instruction names one. -/
def predIf (pr : Option PReg) (v : Bool) (m : BitVec 8) : List (PReg × BitVec 8 × BitVec 8) :=
  match pr with
  | some p => [(p, if v then 0xFF else 0, m)]
  | none => []

/-- An `lgen` in flight looked at (R168): an armed nest gives its value and advances; a disarmed one keeps it waiting. -/
def State.tryLgen (s : State) (lane : Bool) (d : Dst) (pr : Option PReg) (tg : BitVec 3) : State :=
  let e := s.focus.elem
  let c := s.focus.ctx
  match (s.elem e).pl.lgen with
  | none => s.await e c .nest (s.cycle + 1)
  | some g =>
    if !g.armed then s.await e c .nest (s.cycle + 1)
    else
      let r := lanes fun l => if lane then g.value + BitVec.ofNat 32 (4 * l) else g.value
      (s.modElem e fun v => v.modPl fun p => { p with lgen := some g.advance }).settle e c 2 fun f =>
        { f.yields d tg r with preds := predIf pr g.level.isNone f.exec_ }

/-- `lgen` (R168). -/
def execLgen (lane : Bool) (d : Dst) (pr : Option PReg) (tg : BitVec 3) (s : State) : Res :=
  s.fireThen (.lgen lane d pr tg) d .zero .zero .nest fun s1 => s1.tryLgen lane d pr tg

/-- `lgb` (R169). -/
def execLgb (a : Src) (pr : Option PReg) (s : State) : Res :=
  let t := s.src a
  s.fireThen (.lgb a pr) .none a .zero .no fun s1 =>
    let e := s1.focus.elem
    let g := (s1.elem e).pl.lgen.map fun g => g.bind t
    let empty := match g with | some g => !g.armed | none => true
    (s1.modElem e fun v => v.modPl fun p => { p with lgen := g }).settle e s1.focus.ctx 2 fun f =>
      { f with preds := predIf pr empty f.exec_ }

/-! ### Width converters (R170, R171) -/

/-- Token k of a `wsplit` (R170). -/
def splitToken (half : Bool) (v : Data256) (m : BitVec 8) (tg : BitVec 3) (k : Nat) : Token :=
  let w := if half then 16 else 8
  ⟨maskLanes m (lanes fun l => BitVec.ofNat 32 ((v.toNat >>> (w * (8 * k + l))) % 2 ^ w)), tg, false⟩

/-- Tokens of a `wsplit`. -/
def splitCount (half : Bool) : Nat := if half then 2 else 4

/-- A `wsplit` in flight looked at (R170): the token it holds enters its reserved entry; the next, if there is one, takes an
entry as soon as its outputs have room. -/
def State.tryWsplit (s : State) (half : Bool) (d : Dst) (tg : BitVec 3) (f : InFlight) (k : Nat) : State :=
  let e := s.focus.elem
  let c := s.focus.ctx
  let s1 := s.modElem e fun v => v.modPl fun p => (p.emitInto false c s.cycle f.o0).emitInto true c s.cycle f.o1
  if k = splitCount half then s1.modElem e fun v => v.modPl fun p => p.setCtx c { p.ctx c with fly := none }
  else if s1.dstReady d then
    let t := splitToken half f.a f.exec_ tg k
    (s1.modElem e fun v => v.modPl fun p => p.reserve d c).modFly e c fun g =>
      { g with o0 := if dstNames d false then some t else none, o1 := if dstNames d true then some t else none,
               wait := .pieces (k + 1), due := s.cycle + 1 }
  else (s1.modFly e c fun g => { g with o0 := none, o1 := none }).await e c (.pieces k) (s.cycle + 1)

/-- `wsplit` (R170): the first token enters at the end of the next cycle, the others one a cycle. -/
def execWsplit (half : Bool) (d : Dst) (a : Src) (tg : BitVec 3) (s : State) : Res :=
  let t := splitToken half (s.src a) s.focus.lanes tg 0
  s.fireThen (.wsplit half d a tg) d a .zero (.pieces 1) fun s1 =>
    s1.modFly s1.focus.elem s1.focus.ctx fun g =>
      { g with o0 := if dstNames d false then some t else none, o1 := if dstNames d true then some t else none,
               due := s1.cycle + 1 }

/-- x[D] with the pieces of a `wjoin` (R171). -/
def joinPieces (half : Bool) (old a : Data256) (m : BitVec 8) (k : Nat) : Data256 :=
  let w := if half then 16 else 8
  (lanesIn m).foldl (fun v l =>
    let at_ := w * (8 * k + l)
    let piece := BitVec.ofNat 256 (((laneOf a l).toNat % 2 ^ w) <<< at_)
    (v &&& ~~~(BitVec.ofNat 256 ((2 ^ w - 1) <<< at_))) ||| piece) old

/-- `wjoin` (R171). -/
def execWjoin (half : Bool) (d : Dst) (a : Src) (k : BitVec 5) (s : State) : Res :=
  let x := s.src a
  s.fireThen (.wjoin half d a k) .none a .zero .no fun s1 =>
    let e := s1.focus.elem
    s1.settle e s1.focus.ctx 2 fun f =>
      { f with regs := match dstReg d with
          | some n => [(n, joinPieces half (((s1.elem e).pl.ctx s1.focus.ctx).reg n) x f.exec_ k.toNat, 0xFF)]
          | none => [] }

/-! ### `mrld` (R111, R165) -/

/-- A node word of an M-element. -/
def Plane4K.node (p : Plane4K) (k : Nat) : Word := lookupD p.nw k 0

/-- Whether an M-element is inert (R409). -/
def Plane4K.inert (p : Plane4K) : Bool := [0, 1, 2, 3].all fun k => p.node k = 0

/-- Bytes of the weight block that NW0 describes (R181). -/
def blockBytes (nw0 : Word) : Nat :=
  64 * (formatBits (wfield nw0 3 0) * 4) + (match wfield nw0 7 6 with | 1 => 32 | 2 => 160 | _ => 0)

/-- The M-element to the east. -/
def eastOf (e : ElemId) : ElemId := { e with col := e.col + 1 }

/-- An `mrld` in flight looked at (R165): it waits for a reload in progress to latch, then starts its own. -/
def State.tryMrld (s : State) (at_ : Bool) (f : InFlight) : State :=
  let e := s.focus.elem
  let c := s.focus.ctx
  let m := eastOf e
  let p := (s.elem m).pl
  if p.inert || (s.elem m).region != (s.elem e).region then s.settle e c 2 id
  else
    let o := if at_ then (laneOf f.a 0).toNat else 16 * wfield (p.node 0) 31 19
    if o % 16 != 0 then s.scratchFault e c (0x10, 0, o)
    else if Config.scratchBytes < o + blockBytes (p.node 0) then s.scratchFault e c (0x0F, 0, o)
    else if p.mel.reload.isSome then s.await e c .latch (s.cycle + 1)
    else (s.modElem m fun v => v.modPl fun p => { p with mel := { p.mel with reload := some ⟨o, [], none⟩ } }).settle e c 2 id

/-- `mrld` and `mrld.at` (R165). -/
def execMrld (at_ : Option Src) (s : State) : Res :=
  s.fireThen (.mrld at_) .none (at_.getD .zero) .zero .latch fun s1 =>
    match s1.flying s1.focus.elem s1.focus.ctx with
    | some f => s1.tryMrld at_.isSome f
    | none => s1

end Sys2Proof.Machine
end

