-- ==== Sys2Proof/Machine/Control.lean ====
section
/-! DEFINITION. Freezing, thawing and killing the masters of a context (09_contexts.md R225, R226, R231, R232), the
cancellation of parked operations (R326), and the levels of a region that freezes push and thaws restore (R286 to R293). -/

namespace Sys2Proof.Machine

/-! ### Parked operations (R326) -/

/-- A parked operation cancelled (R326): the party leaves the list, and the block's counts follow. A strand's
instruction issues again, except a `barw` whose arrival has committed, which completes with bit 63 set (R342). An
element's instruction is saved to issue again (R177); the release token of an `ebar` stays pending (R343). -/
def State.cancelOp (s : State) (p : Party) : State :=
  match s.ports.parked.find? fun w => w.party = p && (w.side != .barrier || (match p with | .strand _ => true | .elem _ _ => false)) with
  | none => s
  | some w =>
    let s1 := s.unpark w
    let h := homeDie w.pa
    let s2 := if w.side = .barrier then s1 else s1.putBlock h w.pa (s1.qblock h w.pa) w.mark
    match p with
    | .strand n =>
      let t := s2.strand n
      if w.side = .barrier && w.value = w.phase.setWidth 64 then
        s2.setStrand n { t with got := some (.value (w.value ||| 0x8000000000000000) [] none) }
      else s2.setStrand n { t with progress := none }
    | .elem e c => s2.modElem e fun v => v.modPl fun q =>
        q.setCtx c { q.ctx c with fly := (q.ctx c).fly.map fun f => if f.wait = .delivery then { f with wait := .port } else f }

/-! ### Frozen masters (R225, R231) -/

/-- The record of a frozen master dropped, by kind, die and number. -/
def State.unmarkFrozen (s : State) (mkind die who : Nat) : State :=
  { s with ctxs := { s.ctxs with frozen := s.ctxs.frozen.filter fun f =>
      !(f.mkind = mkind && f.die = die && f.who = who) } }

/-- A master recorded as frozen for its context (R226). -/
def State.markFrozen (s : State) (ctx : BitVec 10) (mkind die who : Nat) : State :=
  { s.unmarkFrozen mkind die who with ctxs := { (s.unmarkFrozen mkind die who).ctxs with
      frozen := (s.unmarkFrozen mkind die who).ctxs.frozen ++ [⟨ctx, mkind, die, who⟩] } }

/-- A strand frozen (R231): its fixed-latency results written, its parked operation cancelled. -/
def State.freezeStrand (s : State) (n : Nat) : State :=
  let s1 := s.cancelOp (.strand n)
  let t := (s1.strand n).drain
  (s1.setStrand n { t with run := .frozen }).markFrozen t.ctx 0 (dieOf n) (whoStrand n)

/-- A strand thawed (R231): RUNNING at its resume point; a free worker waits on (R313). -/
def State.thawStrand (s : State) (n : Nat) : State :=
  let t := s.strand n
  (s.setStrand n { t with run := if t.worker then .idle else .running, readyAt := max t.readyAt (s.cycle + 1) }).unmarkFrozen
    0 (dieOf n) (whoStrand n)

/-- A freeze raised on a region, or added to the causes of the wave that spreads over it (R286, R292). -/
def State.raiseWave (s : State) (id : Nat) (k : LevelKind) : State :=
  s.modRegion id fun g =>
    match g.wave with
    | some w => { g with wave := some { w with causes := w.causes ++ [k] } }
    | none => { g with wave := some ⟨[k], s.cycle⟩ }

/-- A saved instruction issues again (R177): a port operation as one not yet committed, with the clock of its die. -/
def InFlight.again (f : InFlight) (clock : Clock) (cycle : Nat) : InFlight :=
  { f with clock := clock, due := max f.due cycle, wait := if f.wait = .delivery then .port else f.wait }

/-- A plane restored at a thaw (R119, R149): rotation at context 0, turn pointers at the start, waiting counts at zero. -/
def Plane4K.thawed (p : Plane4K) (clock : Clock) (cycle : Nat) : Plane4K :=
  { p with arb := 0, turns := [],
           ctxs := p.ctxs.map fun t => { t with waits := [], fly := t.fly.map fun f => f.again clock cycle } }

/-- Scratch bytes below a bound taken from one array, the rest from another. -/
def joinScratch (lowN : Nat) (low high : Memory) : Memory :=
  (low.filter fun c => decide (c.1 < lowN)) ++ high.filter fun c => decide (lowN ≤ c.1)

/-- The call by an element among the causes of a freeze. -/
def elemCall (ks : List LevelKind) : Option (ElemId × Nat) :=
  ks.findSome? fun k => match k with
    | .call f (some e) _ => some (e, f)
    | _ => none

/-- The call by a strand among the causes of a freeze: its command and its entry. -/
def strandCall (ks : List LevelKind) : Option (Nat × Nat) :=
  ks.findSome? fun k => match k with
    | .call f none (some c) => some (c, f)
    | _ => none

/-- A level in pleat 2 moves up when the newer one thaws. -/
def Level.up (l : Level) : Level := match l.place with | .pleat 2 => { l with place := .pleat 1 } | _ => l

/-- The newest level of a region restored as its active plane (R284, R289): planes, the saved scratch bytes and full
bits, the region's state, and the streams that paused with it (R286). A freeze of it that is still to be met begins. -/
def State.restoreLevel (s : State) (id : Nat) : State :=
  match s.region id with
  | none => s
  | some g =>
    match g.levels with
    | [] => s
    | lv :: rest =>
      let s1 := lv.saved.foldl (fun s (x : Saved) =>
        let v := s.elem x.e
        let n := min lv.info.scrhw ((g.info.map LoadInfo.scrhw).getD lv.info.scrhw)
        s.setElem x.e { v with st := if v.st = .fenced then .fenced else x.st, region := some id,
                               pl := x.pl.thawed (s.clock x.e.die) s.cycle, gate := .awake, idleFor := 0,
                               scr := joinScratch n x.scr v.scr,
                               full := (x.full.filter fun k => decide (16 * k < n)) ++ v.full.filter fun k => decide (n ≤ 16 * k) }) s
      let n := rest.length
      let on (c : Cmd) : Cmd := { c with strm := c.strm.map fun st =>
        if st.region = id && st.level = n then { st with paused := false } else st }
      let causes := (g.wave.map Wave.causes).getD [] ++ lv.more
      { s1 with engs := { s1.engs with cmds := s1.engs.cmds.map on } }.modRegion id fun (g : Region) =>
        { g with st := lv.was, info := if lv.was = RegionState.configuring || lv.was = RegionState.reserved then none else some lv.info, next := lv.next, items := lv.items,
                 bad := lv.bad, cfgCmd := lv.cmd, depth := lv.depth, levels := rest.map Level.up, failed := lv.failed, voids := lv.voids, ret := none,
                 ending := lv.was = RegionState.ended, wave := if causes.isEmpty then none else some ⟨causes, s.cycle⟩,
                 call := elemCall causes,
                 seqCall := (strandCall causes).map fun (c : Nat × Nat) => (c.1, c.2, 0) }

/-- Whether a level was pushed by `freeze` or a violation. -/
def Level.isFreeze (l : Level) : Bool := match l.kind with | .freeze => true | _ => false

/-- A frozen region thawed (R231): the level that a freeze pushed is restored; a task that failed meanwhile fails now
(R389), which TASK_FAULT_END carries out. -/
def State.thawRegion (s : State) (g : Region) : State :=
  (s.restoreLevel g.id).unmarkFrozen 1 g.die g.id

/-- An engine command paused or resumed (R225); resumed, it translates afresh (R249). -/
def State.pauseCmd (s : State) (c : Cmd) (on : Bool) : State :=
  let s1 := s.modCmd c.id fun c => { c with paused := on, pages := if on then c.pages else [] }
  if on then s1.markFrozen c.ctx 4 c.die c.id else s1.unmarkFrozen 4 c.die c.id

/-! ### Killing (R232) -/

/-- MKIND of a command's engine and its WHO (R228). -/
def Cmd.master (c : Cmd) : Nat × Nat :=
  match c.kind with
  | .copy .. => (4, 0)
  | .fill .. => (4, 0)
  | .bankop .. => (5, c.unit % 64)
  | .rowcp .. => (5, c.unit % 64)
  | .rowzero .. => (5, c.unit % 64)
  | .strm .. => (3, (c.strm.map fun st => whoHem st.slot).getD 0)
  | .sweep .. => (7, 0)
  | _ => (6, 0)

/-- MKIND and WHO of a command; of a sweep, the hem tile of its port. -/
def State.cmdMaster (s : State) (c : Cmd) : Nat × Nat :=
  match s.engs.sweeps.find? fun w => w.cmd = c.id with
  | some w => (7, w.who)
  | none => c.master

/-- A command reported failed by a kill: TRAP with KILLED; sectors already written stay, and a stream keeps its count (R215,
R232). -/
def State.killCmd (s : State) (c : Cmd) : State :=
  let s1 := match s.engs.sweeps.find? fun w => w.cmd = c.id && s.sweepLive w with
    | some w => s.haltSweep w
    | none => s.closeStream c
  (s1.failCmd c.id 0x18 flagKilled (s.cmdMaster c).1 (s.cmdMaster c).2 0 0).unmarkFrozen 4 c.die c.id

/-- Whether a launch has been admitted: its task goes on. -/
def State.admitted (s : State) (c : Cmd) : Bool := s.tasks.tasks.any fun t => t.launch = some c.id

/-- A strand killed (R232): barriers of which it is a party are poisoned (R339), its parked operation is reported failed, its
commands and its task fail, and it enters HALTED with its registers zero and its loop stack empty. -/
def State.killStrand (s : State) (n : Nat) : State :=
  let t := s.strand n
  let parked := s.ports.parked.any fun w => w.party = .strand n
  let s0 := s.poisonParty (fun p _ => p = .strand n) 0x18
  let s1 := if parked then (s0.cancelOp (.strand n)).postStrand n 0x18 flagKilled 0 0 t.pc else s0
  let s2 := (s1.engs.cmds.filter fun c => c.strand = n && c.ended.isNone && !s1.admitted c).foldl State.killCmd s1
  let s3 := match t.task with | some no => s2.failTask no 0x18 flagKilled 0 0 | none => s2
  let u := (s3.strand n).drain
  let ops := u.ops.map fun o => { o with dst := 0 }
  (s3.setStrand n
    { u with g := Vector.replicate 32 0, loops := [], run := .halted, progress := none, got := none, walked := none,
             yieldTo := none, killed := true, worker := false, atTvec := false, ops := ops }).unmarkFrozen
    0 (dieOf n) (whoStrand n)

/-- A region killed (R232): barriers of which its elements are parties are poisoned, its task fails, and its configuration is
dropped. Levels of tasks that pre-emption froze there stay. -/
def State.killRegion (s : State) (g : Region) : State :=
  let mine (p : Party) (k : Option Nat) : Bool :=
    k = g.task && (match p with | .elem e _ => g.holds e | .strand _ => false)
  let s1 := s.poisonParty mine 0x18
  let s2 := match g.task with | some no => s1.failTask no 0x18 flagKilled 0 0 | none => s1
  (s2.dropConfig true g 0x18 flagKilled 0).unmarkFrozen 1 g.die g.id

/-- The queue operations of a context's frozen levels beneath another context's load reported failed by a kill (R232): they
leave their lists, and do not issue again. -/
def State.killLevels (s : State) (g : Region) (ctx : BitVec 10) : State :=
  let on (l : Nat) : Bool := l < g.levels.length && (g.levels[g.levels.length - 1 - l]?.map Level.ctx) = some ctx
  let s1 := (s.failQueueOps g on ctx (s.desc g.die ctx.toNat).asid 0x18 flagKilled 0).dropParked g on
  let s2 := g.elems.foldl (fun s e => s.modElem e fun v => { v with posted := v.posted.filter fun p => !on p.lvl }) s1
  let off (p : Plane4K) : Plane4K :=
    { p with ctxs := p.ctxs.map fun t => match t.fly with
      | some f => if isQueueOp f.instr then { t with fly := none } else t
      | none => t }
  s2.modRegion g.id fun h => { h with levels := h.levels.map fun l =>
    if l.ctx = ctx then { l with saved := l.saved.map fun x => { x with pl := off x.pl } } else l }

/-! ### Contexts (R221, R226) -/

/-- STATE of a context's descriptor written by the device on a die; `valid` keeps or clears V (R221, R226). -/
def State.putDescState (s : State) (d ctx st : Nat) (valid : Bool) : State :=
  let a := s.descPa ctx + 8
  let w := s.valAt d a 8
  let base := w % 2 ^ 45 + (w >>> 48) * 2 ^ 48
  s.performVal d a 8 (base + st * 2 ^ 46 + (if valid then 2 ^ 45 else 0)) Mark.plain

/-- A descriptor read by the device (R221): the first read of a valid one makes its context LIVE. -/
def State.readDesc (s : State) (d ctx : Nat) : Desc × State :=
  let c := s.desc d ctx
  if c.v && !s.ctxs.live.contains ctx then
    let s1 := s.putDescState d ctx 1 true
    (c, { s1 with ctxs := { s1.ctxs with live := s1.ctxs.live ++ [ctx] } })
  else (c, s)

/-- The numbers of the strands of a context. -/
def State.strandsOf (s : State) (ctx : Nat) : List Nat :=
  (s.seqs.strands.filter fun p => p.2.ctx.toNat = ctx).map Prod.fst

/-- Every master of a context frozen but the strand that asks (R226). -/
def State.freezeCtx (s : State) (ctx self : Nat) : State :=
  let s1 := ((s.strandsOf ctx).filter fun n => n != self && ((s.strand n).run = .running || (s.strand n).run = .idle)).foldl
    State.freezeStrand s
  let s2 := (s1.tasks.regions.filter fun g =>
      g.ctx.toNat = ctx && (g.st = .running || g.st = .configuring || g.st = .checking)).foldl (fun s g => s.raiseWave g.id .freeze) s1
  let s3 := (s2.engs.cmds.filter fun c => c.ctx.toNat = ctx && c.ended.isNone && !c.paused).foldl
    (fun s c => s.pauseCmd c true) s2
  let s4 := s3.putDescState (dieOf self) ctx 2 true
  { s4 with ctxs := { s4.ctxs with frozenCtx := s4.ctxs.frozenCtx ++ [ctx] } }

/-- Whether every freeze of a context's masters is complete. -/
def State.ctxFrozen (s : State) (ctx : Nat) : Bool :=
  s.tasks.regions.all fun g => !(g.ctx.toNat = ctx) || g.wave.isNone

/-- Whether every region of a context that `freeze` or a violation froze can resume: its level stands in pleat 1 (R290). -/
def State.mayThaw (s : State) (ctx : Nat) : Bool :=
  (s.ctxs.frozen.filter fun f => f.ctx.toNat = ctx && f.mkind = 1).all fun f => match s.region f.who with
    | some g => !(g.st = .frozen && (g.levels.head?.map Level.isFreeze).getD false) || (g.levels.head?.map Level.place) = some (.pleat 1)
    | none => true

/-- The frozen masters of a context resume (R226). -/
def State.thawCtx (s : State) (ctx die : Nat) : State :=
  let mine := s.ctxs.frozen.filter fun f => f.ctx.toNat = ctx
  let s1 := mine.foldl (fun s f =>
    match f.mkind with
    | 0 => s.thawStrand (f.die * 64 + f.who)
    | 1 => (match s.region f.who with
      | some g => if g.st = .frozen && (g.levels.head?.map Level.isFreeze).getD false then s.thawRegion g else s
      | none => s)
    | _ => (match s.cmd f.who with
      | some c => s.pauseCmd c false
      | none => s)) s
  let s2 := s1.putDescState die ctx 1 true
  { s2 with ctxs := { s2.ctxs with frozenCtx := s2.ctxs.frozenCtx.filter (· != ctx),
                                   frozen := s2.ctxs.frozen.filter fun f => f.ctx.toNat != ctx } }

/-- A context killed (R226, R232): every master is killed, its waiting tasks fail, and it is DYING. -/
def State.killCtx (s : State) (ctx : Nat) : State :=
  let end_ (s : State) (g : Region) : State :=
    let s1 := if g.ctx.toNat = ctx then s.killRegion g else s
    match s1.region g.id with
    | some h =>
      if h.levels.any fun l => l.ctx.toNat = ctx then s1.killLevels h (BitVec.ofNat 10 ctx)
      else if g.ctx.toNat = ctx && h.task.isNone && h.levels.isEmpty then s1.freeRegion g.id else s1
    | none => s1
  let s1 := s.tasks.regions.foldl end_ s
  let s2 := (s1.engs.cmds.filter fun c => c.ctx.toNat = ctx && c.ended.isNone && !s1.admitted c).foldl State.killCmd s1
  let s3 := (s2.tasks.tasks.filter fun t => t.ctx.toNat = ctx && t.open_).foldl
    (fun s t => s.failTask t.no 0x18 flagKilled 0 0) s2
  let s4 := ((s3.strandsOf ctx).filter fun n => !(s3.strand n).killed).foldl State.killStrand s3
  let s5 := s4.putDescState (homeDie (s4.descPa ctx)) ctx 3 true
  { s5 with ctxs := { s5.ctxs with
      dying := if s5.ctxs.dying.contains ctx then s5.ctxs.dying else s5.ctxs.dying ++ [ctx],
      frozenCtx := s5.ctxs.frozenCtx.filter (· != ctx),
      frozen := s5.ctxs.frozen.filter (fun f => f.ctx.toNat != ctx) } }

end Sys2Proof.Machine
end

