-- ==== Sys2Proof/Machine/ElemCtl.lean ====
section
/-! DEFINITION. Grid calls and returns, traps and halts of elements (07_element_storage.md R173 to R175; 12_kernels_calls.md
R283, R284, R292; 23 R389). -/

namespace Sys2Proof.Machine

/-- A control instruction fired for two cycles; `k` changes the state besides. -/
def State.control (s : State) (i : Instr) (a : Src) (k : State → State) : Res :=
  if s.mayFire .none [a] then .next (k (s.fire .none [a] (s.flyOf i 2 a .zero))) else .next s

/-- `gcall` (R283): it counts as unfired while another call or a return of its region is under way (R292). -/
def execEGcall (f : BitVec 5) (s : State) : Res :=
  let e := s.focus.elem
  match s.regionOf e with
  | none => .next s
  | some g =>
    if g.call.isSome || g.ret.isSome || g.wave.isSome then .next s
    else s.control (.eGcall f) .zero fun s1 => s1.modRegion g.id fun g => { g with call := some (e, f.toNat) }

/-- The call of a region that fired in this cycle counts as unfired (R292). -/
def State.unfireCall (s : State) (g : Region) : State :=
  match g.call with
  | none => s
  | some (e, _) =>
    let off (t : TCtx) : TCtx := match t.fly with
      | some f => (match f.instr with | .eGcall _ => { t with fly := none } | _ => t)
      | none => t
    (s.modElem e fun v => v.modPl fun p => { p with ctxs := p.ctxs.map off }).modRegion g.id fun g => { g with call := none }

/-- Whether the call of a region fired in this cycle. -/
def State.callFresh (s : State) (g : Region) : Bool :=
  match g.call with
  | none => false
  | some (e, _) => (s.elem e).pl.ctxs.toList.any fun t => match t.fly with
      | some f => (match f.instr with | .eGcall _ => f.due = s.cycle + 1 | _ => false)
      | none => false

/-- `gret` (R284): a return wins over a `gcall` of its cycle, and waits for one that fired before (R292). -/
def execEGret (s : State) : Res :=
  let e := s.focus.elem
  match s.regionOf e with
  | none => .next s
  | some g =>
    if g.ret.isSome || g.wave.isSome || (g.call.isSome && !s.callFresh g) then .next s
    else s.control .eGret .zero fun s1 => (s1.unfireCall g).modRegion g.id fun g => { g with ret := some (some e) }

/-- `etrap` and `etrap.go` (R174): a record TRAP with A(0) and the code; without `.go` the context never fires again. -/
def execEtrap (go : Bool) (a : Src) (code : BitVec 10) (s : State) : Res :=
  let x := (laneOf (s.src a) 0).toNat
  s.control (.etrap go a code) a fun s1 =>
    let e := s1.focus.elem
    if !go then s1.elemFault e s1.focus.ctx 0x18 code.toNat x
    else match s1.regionOf e with
      | none => s1
      | some g => s1.post g.ctx e.die g.asid
          (recordWords 0x18 0 1 e.die (whoElem e) g.asid s1.focus.ctx g.ctx code.toNat (BitVec.ofNat 64 x) 0)

/-- `ehalt` and `ehalt.load` (R175): their effect is at their completion. -/
def execEhalt (load : Bool) (s : State) : Res := s.control (.ehalt load) .zero id

/-- The plane without its tag-7 tokens. -/
def Plane4K.untagged (p : Plane4K) : Plane4K :=
  let keep (o : OutEntry) : Bool := match o with | .filled x => x.tok.tag != 7 | .reserved _ => true
  (p.setOut false ((p.outq false).filter keep)).setOut true ((p.outq true).filter keep)

/-- What a completing control instruction does besides (R175, R283, R284): a call raises the freeze of its region, a return
ends the callee, or at depth 0 the load; a halt stops its context or ends the load. -/
def State.afterFiring (s : State) (e : ElemId) (c : Nat) (i : Instr) : State :=
  match s.regionOf e, i with
  | some g, .eGcall f => s.raiseWave g.id (.call f.toNat (some e) none)
  | some g, .eGret =>
    let s1 := if g.depth = 0 then s.modElem e fun v => v.modPl Plane4K.untagged else s
    s1.modRegion g.id fun g => { g with ending := true, ret := if g.depth = 0 then none else g.ret }
  | some g, .ehalt true => s.modRegion g.id fun g => { g with ending := true }
  | _, .ehalt false => s.modElem e fun v => v.modPl fun p => p.setCtx c { p.ctx c with stopped := true }
  | _, _ => s

end Sys2Proof.Machine
end

