-- ==== Sys2Proof/Machine/SeqMem.lean ====
section
/-! DEFINITION. Loads and stores of a strand (08_sequencer.md R209, R210, R201): translated and checked at issue, then
outstanding until they complete. -/

namespace Sys2Proof.Machine

/-- Bytes of an access size (R53). -/
def sizeBytes : Size → Nat
  | .b => 1
  | .h => 2
  | .w => 4
  | .d => 8

/-- The code of an access size (R53, R199). -/
def sizeCode : Size → Nat
  | .b => 0
  | .h => 1
  | .w => 2
  | .d => 3

/-- An access to n = 2^size bytes at x by the acting strand: the checks of R209 in order, a walk when the TLB misses,
and the issue of the operation for the physical address. -/
def State.access (s : State) (x : DWord) (size : Nat) (write : Bool) (k : Nat → TlbEntry → State) : Res :=
  if x.toNat ≥ 2 ^ 57 then .next (s.memFault (if write then 0x07 else 0x06) 0 x size write)
  else if x.toNat % 2 ^ size != 0 then .next (s.memFault 0x03 0 x size write)
  else match s.curTranslate (if write then .write else .read) x.toNat (2 ^ size) with
    | .miss => .next (s.curWalk x.toNat)
    | .bad c det => .next (s.memFault c det x size write)
    | .ok pa e => .next (k pa e)

/-- A load (R209): it waits at issue for its address register and for room in class LD. -/
def State.load (s : State) (q : Issue) (len : Nat) (d a : GReg) (off : DWord) (size : Nat) (sx : Bool) (ord : MemOrd) : Res :=
  if s.cur.awaits a || decide (32 ≤ s.cur.outstanding .ld) then .next s.stall
  else
    let x := s.cur.reg a + off
    s.access x size false fun pa e =>
      (s.addOp (.load pa (2 ^ size) sx (ord = .nt) (pageAttr e)) d .ld none (ord = .sync) false true x.toNat).done q len id

/-- A store (R209): its data is read at issue; with `.rel` every earlier event has an arc into it. -/
def State.store (s : State) (q : Issue) (len : Nat) (d a : GReg) (off : DWord) (size : Nat) (ord : MemOrd) : Res :=
  if s.cur.awaits a || s.cur.awaits d || decide (32 ≤ s.cur.outstanding .st) then .next s.stall
  else
    let x := s.cur.reg a + off
    s.access x size true fun pa e =>
      (s.addOp (.store pa (2 ^ size) (s.cur.reg d) (ord = .nt) (pageAttr e)) 0 .st none false (ord = .sync) false
        x.toNat).done q len id

/-- The byte offset of format QM: OFF times the access size (R54). -/
def memOff (off : BitVec 9) (sz : Size) : DWord := off.signExtend 64 * BitVec.ofNat 64 (sizeBytes sz)

/-- `ld` (R209): sign-extended at completion. -/
def execLd (q : Issue) (d a : GReg) (off : BitVec 9) (sz : Size) (ord : MemOrd) (s : State) : Res :=
  s.load q 4 d a (memOff off sz) (sizeCode sz) true ord

/-- `ldn` (R209): zero-extended at completion. -/
def execLdn (q : Issue) (d a : GReg) (off : BitVec 9) (sz : Size) (ord : MemOrd) (s : State) : Res :=
  s.load q 4 d a (memOff off sz) (sizeCode sz) false ord

/-- `st` (R209). -/
def execSt (q : Issue) (d a : GReg) (off : BitVec 9) (sz : Size) (ord : MemOrd) (s : State) : Res :=
  s.store q 4 d a (memOff off sz) (sizeCode sz) ord

/-- `ldl` (R210): as `ld` with SZ = d and ORD = 0 at gA + sext(off, 40). -/
def execLdl (q : Issue) (d a : GReg) (off : BitVec 40) (s : State) : Res :=
  s.load q 8 d a (off.signExtend 64) 3 true .plain

/-- `stl` (R210). -/
def execStl (q : Issue) (d a : GReg) (off : BitVec 40) (s : State) : Res :=
  s.store q 8 d a (off.signExtend 64) 3 .plain

end Sys2Proof.Machine
end

