-- ==== Sys2Proof/Machine/SeqAtomic.lean ====
section
/-! DEFINITION. Atomics of a strand (08_sequencer.md R211): translated as an atomic at issue, one step at the home die
when they perform (04_ordering.md R94). -/

namespace Sys2Proof.Machine

/-- The new value of an atomic on `bits` bits (R211): old, operand and, for `acas`, the expected value. -/
def aopNew (op : AOp) (bits : Nat) (old v expect : Nat) : Nat :=
  let o := BitVec.ofNat bits old
  let x := BitVec.ofNat bits v
  (match op with
   | .add => o + x
   | .and => o &&& x
   | .or => o ||| x
   | .xor => o ^^^ x
   | .min => if o.slt x then o else x
   | .max => if o.slt x then x else o
   | .minn => if o.ult x then o else x
   | .maxn => if o.ult x then x else o
   | .swap => x
   | .cas => if o = BitVec.ofNat bits expect then x else o
   | .fadd => (addF32 (o.setWidth 32) (x.setWidth 32)).setWidth bits
   | .bfadd2 => (packedAdd fmtBf16 (o.setWidth 32) (x.setWidth 32) 0).setWidth bits).toNat

/-- Whether an atomic's scope makes it acquiring and releasing (R91). -/
def ordersAt (scope : Scope) : Bool := scope != .ctx

/-- An atomic issued by the acting strand (R211). -/
def State.atomic (s : State) (q : Issue) (op : AOp) (d a b : GReg) (scope : Scope) (dbl : Bool) : Res :=
  let t := s.cur
  let size := if dbl then 3 else 2
  if t.awaits a || t.awaits b || (op = .cas && t.awaits d) || decide (32 ≤ t.outstanding .ld) then .next s.stall
  else
    let x := t.reg a
    if x.toNat % 2 ^ size != 0 then .next (s.memFault 0x03 0 x size true)
    else match s.curTranslate .atomic x.toNat (2 ^ size) with
      | .miss => .next (s.curWalk x.toNat)
      | .bad c det => .next (s.memFault c det x size true)
      | .ok pa e =>
        .next ((s.addOp (.atomic op pa (2 ^ size) (t.reg b) (t.reg d) (pageAttr e)) d .ld (some scope)
          (ordersAt scope) (ordersAt scope) true x.toNat).done q 4 id)

/-- `aadd` (R211). -/
def execAadd (q : Issue) (d a b : GReg) (scope : Scope) (dbl : Bool) (s : State) : Res :=
  s.atomic q .add d a b scope dbl

/-- `aand` (R211). -/
def execAand (q : Issue) (d a b : GReg) (scope : Scope) (dbl : Bool) (s : State) : Res :=
  s.atomic q .and d a b scope dbl

/-- `aor` (R211). -/
def execAor (q : Issue) (d a b : GReg) (scope : Scope) (dbl : Bool) (s : State) : Res :=
  s.atomic q .or d a b scope dbl

/-- `axor` (R211). -/
def execAxor (q : Issue) (d a b : GReg) (scope : Scope) (dbl : Bool) (s : State) : Res :=
  s.atomic q .xor d a b scope dbl

/-- `amin` (R211). -/
def execAmin (q : Issue) (d a b : GReg) (scope : Scope) (dbl : Bool) (s : State) : Res :=
  s.atomic q .min d a b scope dbl

/-- `amax` (R211). -/
def execAmax (q : Issue) (d a b : GReg) (scope : Scope) (dbl : Bool) (s : State) : Res :=
  s.atomic q .max d a b scope dbl

/-- `aminn` (R211). -/
def execAminn (q : Issue) (d a b : GReg) (scope : Scope) (dbl : Bool) (s : State) : Res :=
  s.atomic q .minn d a b scope dbl

/-- `amaxn` (R211). -/
def execAmaxn (q : Issue) (d a b : GReg) (scope : Scope) (dbl : Bool) (s : State) : Res :=
  s.atomic q .maxn d a b scope dbl

/-- `aswap` (R211). -/
def execAswap (q : Issue) (d a b : GReg) (scope : Scope) (dbl : Bool) (s : State) : Res :=
  s.atomic q .swap d a b scope dbl

/-- `acas` (R211). -/
def execAcas (q : Issue) (d a b : GReg) (scope : Scope) (dbl : Bool) (s : State) : Res :=
  s.atomic q .cas d a b scope dbl

/-- `afadd` (R211): 32 bits only. -/
def execAfadd (q : Issue) (d a b : GReg) (scope : Scope) (s : State) : Res :=
  s.atomic q .fadd d a b scope false

/-- `abfadd2` (R211): 32 bits only. -/
def execAbfadd2 (q : Issue) (d a b : GReg) (scope : Scope) (s : State) : Res :=
  s.atomic q .bfadd2 d a b scope false

end Sys2Proof.Machine
end

