-- ==== Sys2Proof/Machine/Access.lean ====
section
/-! DEFINITION. The step on memory that strands and elements share: the indivisible step of an atomic (04_ordering.md R94;
10_pages.md R240). -/

namespace Sys2Proof.Machine

/-- One atomic step at the home die (R94): the old value and the state. On an MS page the slice first writes back and
drops every copy of the sector, and the memory-side unit performs the step in DRAM (R240). -/
def State.atomicStep (s : State) (op : AOp) (pa n v expect : Nat) (m : Mark) : Nat × State :=
  let h := homeDie pa
  let sec := pa / 64 * 64
  let s1 := if m.ms then ((s.cleanRange sec 64).dropRange sec 64).fetchRange pa n m.key else s.touchRead h pa n m
  let old := s1.valAt h pa n
  let bytes := toBytes n (aopNew op (8 * n) old v expect)
  (old, if m.ms then s1.atomicInDram pa (bytes.map some) m else s1.performWrite h pa (bytes.map some) m false)

end Sys2Proof.Machine
end

