-- ==== Sys2Proof/Machine/Sites.lean ====
section
/-! DEFINITION. Site buffers and site operations (07_element_storage.md R142 to R154, R157 to R159): line placement,
fetching, merging, chains, alias groups. -/

namespace Sys2Proof.Machine

/-! ### Bindings and lines (R142, R146) -/

/-- The hem tile of an element's half-row (R15). -/
def hemOf (e : ElemId) : TlbUnit := .hem e.die (if e.col < 40 then .west else .east) (e.row / 2)

/-- A site binding of a plane. -/
def Plane4K.site (p : Plane4K) (k : SiteNo) : Option Site := p.sites.find? fun t => t.no = k

/-- The member of a binding's alias group on its element whose buffer it uses: the lowest-numbered (R152). -/
def Plane4K.bufSite (p : Plane4K) (t : Site) : Site :=
  if t.group = 0 then t
  else (p.sites.filter fun u => u.group = t.group).foldl (fun a u => if u.no.toNat < a.no.toNat then u else a) t

/-- Line number of a window offset (R146). -/
def Site.lineOf (t : Site) (o : Nat) : Nat :=
  if t.rows ≤ 1 then o / t.lb else o / t.pitch / t.rows * (t.pitch / t.lb) + o % t.pitch / t.lb

/-- The word bits of n bytes at an offset of a sector (R147). -/
def sectorWords (o n : Nat) : BitVec 16 :=
  BitVec.ofNat 16 ((2 ^ ((o % 64 + n + 3) / 4 - o % 64 / 4) - 1) <<< (o % 64 / 4))

/-- The sector of a buffer at a virtual address, on the active level. -/
def Elem.sectorAt (v : Elem) (buf : SiteNo) (lvl va : Nat) : Option SiteSector :=
  v.sectors.find? fun x => x.site = buf && x.lvl = lvl && x.va = va

/-- Whether another line holds the buffer line that a window offset needs (R146). -/
def Site.conflicts (t buf : Site) (lvl o : Nat) (x : SiteSector) : Bool :=
  let n := t.lineOf o
  x.site = buf.no && x.lvl = lvl && x.line % buf.blines = n % buf.blines && !(x.line = n && x.base = t.base)

/-- A sector of an element replaced or added. -/
def Elem.putSector (v : Elem) (x : SiteSector) : Elem :=
  if v.sectors.any fun y => y.site = x.site && y.lvl = x.lvl && y.va = x.va then
    { v with sectors := v.sectors.map fun y => if y.site = x.site && y.lvl = x.lvl && y.va = x.va then x else y }
  else { v with sectors := v.sectors ++ [x] }

/-- The bytes of a sector with new bytes under a byte mask. -/
def mergeSector (mask : BitVec 64) (new old : Data512) : Data512 :=
  BitVec.ofNat 512 (leNat ((List.range 64).map fun i =>
    if mask.getLsbD i then new.extractLsb' (8 * i) 8 else old.extractLsb' (8 * i) 8))

/-- The byte mask of a word mask. -/
def wordsToBytes (w : BitVec 16) : BitVec 64 :=
  BitVec.ofNat 64 ((List.range 16).foldl (fun a j => if w.getLsbD j then a + 0xF * 16 ^ j else a) 0)

/-- The words of a sector whose every byte a mask marks. -/
def wholeWords (b : BitVec 64) : BitVec 16 :=
  BitVec.ofNat 16 ((List.range 16).foldl (fun a j => if b.extractLsb' (4 * j) 4 = 0xF then a + 2 ^ j else a) 0)

/-- A sector with bytes put in under a mask: a word is valid once all its bytes are there. -/
def SiteSector.put (x : SiteSector) (mask : BitVec 64) (data : Data512) : SiteSector :=
  { x with data := mergeSector mask data x.data, got := x.got ||| mask, valid := x.valid ||| wholeWords (x.got ||| mask) }

/-- A sector filled with the bytes that a fetch brings: only words that are not valid change, and no dirty byte (R147). -/
def SiteSector.filled (x : SiteSector) (mask : BitVec 64) (data : Data512) : SiteSector :=
  let y := { x with got := x.got ||| x.dirty }
  y.put (mask &&& ~~~(wordsToBytes x.valid) &&& ~~~x.dirty) data

/-- The bytes of an access placed in a sector: mask and data. -/
def placeBytes (o : Nat) (bs : List (Option Byte)) : BitVec 64 × Data512 :=
  let at_ (i : Nat) : Option Byte := if o % 64 ≤ i then (bs[i - o % 64]?).join else none
  (BitVec.ofNat 64 ((List.range 64).foldl (fun a i => if (at_ i).isSome then a + 2 ^ i else a) 0),
   BitVec.ofNat 512 (leNat ((List.range 64).map fun i => (at_ i).getD 0)))

/-! ### Spread groups (R153) -/

/-- The elements of a region with a site in an alias group, in ascending order; the directory is at the first. -/
def State.groupElems (s : State) (g : Region) (group : Nat) : List ElemId :=
  if group = 0 then [] else g.elems.filter fun e => (s.elem e).pl.sites.any fun t => t.group = group

/-- Whether a group is a spread group (R268). -/
def State.spread (s : State) (g : Region) (group : Nat) : Bool := decide (1 < (s.groupElems g group).length)

/-- The holders of a sector that the directory has recorded. -/
def State.holdersOf (s : State) (g group va : Nat) : List ElemId :=
  ((s.fab.holders.find? fun h => h.1 = g && h.2.1 = group && h.2.2.1 = va).map fun h => h.2.2.2).getD []

/-- A holder recorded. -/
def State.addHolder (s : State) (g group va : Nat) (e : ElemId) : State :=
  let old := s.holdersOf g group va
  let rest := s.fab.holders.filter fun h => !(h.1 = g && h.2.1 = group && h.2.2.1 = va)
  { s with fab := { s.fab with holders := rest ++ [(g, group, va, old.filter (· != e) ++ [e])] } }

/-- Whether an update is for a sector of a group. -/
def SpreadUpdate.isFor (u : SpreadUpdate) (g : Region) (group va : Nat) : Bool := u.region = g.id && u.group = group && u.va = va

/-- The sector as a holder of a spread group gives it to a member (R153, item 1): with the updates that are on their way to that
holder, and with those of the member itself that its directory has not received yet. -/
def State.holderData (s : State) (g : Region) (group va : Nat) (self : ElemId) : Option Data512 :=
  (s.holdersOf g.key group va).findSome? fun e =>
    if e = self then none
    else ((s.elem e).sectors.find? fun x => x.va = va && x.valid = 0xFFFF &&
      ((s.elem e).pl.sites.any fun t => t.no = x.site && t.group = group)).map fun x =>
        (s.fab.updates.filter fun u => u.isFor g group va &&
          (if u.stage = 1 then u.toward.contains e else u.src = self)).foldl (fun d u => mergeSector u.mask u.data d) x.data

/-- An update sent to the directory (R153, item 2); `chain` is the chain whose turn waits for it. -/
def State.sendUpdate (s : State) (g : Region) (t : Site) (e : ElemId) (c id va : Nat) (mask : BitVec 64)
    (data : Data512) : State :=
  let u : SpreadUpdate := ⟨id, g.id, t.group, e, c, t.no, t.chain, va, mask, data, 0, [], s.cycle + 1 + Config.latency s.serial⟩
  { s with fab := { s.fab with updates := s.fab.updates ++ [u] }, serial := s.serial + 1 }

/-! ### Fetching (R144, R146, R147) -/

/-- The lines that hold a buffer line in the way written back and dropped (R146). -/
def State.evictFor (s : State) (g : Region) (e : ElemId) (t buf : Site) (o : Nat) : State :=
  let lvl := s.levelsBelow e
  let v := s.elem e
  if v.sectors.any (t.conflicts buf lvl o) then s.dropSectors e g.ctx (t.conflicts buf lvl o) else s

/-- The empty sector of a window offset. -/
def newSector (t buf : Site) (lvl o : Nat) : SiteSector :=
  ⟨buf.no, t.lineOf o, t.base, 0, 0, 0, 0, t.base + o / 64 * 64, 0, ⟨false, false, 0⟩, t.asid, lvl⟩

/-- A part of an access: its lane and size, the window offset of its first byte, its bytes, their address and their page. -/
structure Part where
  lane : Nat
  off  : Nat
  n    : Nat
  pa   : Nat
  page : PageAttr
  deriving DecidableEq, Repr

/-- The part of the sector of an offset that lies in a page, given the address of one of its bytes: its first byte, length and
address. -/
def sectorPart (va at_ pa : Nat) : Nat × Nat × Nat :=
  let lo := max va (at_ / 65536 * 65536)
  let hi := min (va + 64) (at_ / 65536 * 65536 + 65536)
  (lo, hi - lo, pa - (at_ - lo))

/-- The parts of a sector that a fetch can bring: that of the page of the access, and, where the sector lies in two pages, the
other one if its translation is at hand and the host does not hold it (log 100). -/
def State.sectorParts (s : State) (g : Region) (e : ElemId) (t : Site) (va : Nat) (x : Part) : List (Nat × Nat × Nat × PageAttr) :=
  let p := sectorPart va (t.base + x.off) x.pa
  let main := (p.1, p.2.1, p.2.2, x.page)
  if p.2.1 = 64 then [main]
  else
    let a := if p.1 = va then va + p.2.1 else va
    match s.lookup (hemOf e) t.asid .read true g.task a (64 - p.2.1) with
    | .ok pa en => if (s.ownedIn (pageAttr en) pa (64 - p.2.1)).isSome then [main] else [main, (a, 64 - p.2.1, pa, pageAttr en)]
    | _ => [main]

/-- The bytes of a sector that a part of it brings, but for words that an uncorrected error has spoilt (R392). -/
def State.partBytes (s : State) (d va : Nat) (p : Nat × Nat × Nat × PageAttr) : BitVec 64 × Data512 :=
  placeBytes (p.1 - va) ((List.range p.2.1).map fun i =>
    if s.spoilt d none (p.2.2.1 + i) 1 then none else some (s.byteAt d (p.2.2.1 + i)))

/-- The sector of a part of an access made whole in its buffer: from another holder in a spread group, else from the image
of the element's die (R86, R153). -/
def State.fetchSector (s : State) (g : Region) (e : ElemId) (t buf : Site) (x : Part) : State :=
  let s1 := s.evictFor g e t buf x.off
  let lvl := s1.levelsBelow e
  let va := t.base + x.off / 64 * 64
  let y := ((s1.elem e).sectorAt buf.no lvl va).getD (newSector t buf lvl x.off)
  let spread := s1.spread g t.group
  match if spread then s1.holderData g t.group va e else none with
  | some d => (s1.modElem e fun v => v.putSector (y.filled (~~~0) d)).addHolder g.key t.group va e
  | none =>
    let r := (s1.sectorParts g e t va x).foldl (fun (r : SiteSector × State) p =>
      let b := r.2.partBytes e.die va p
      (r.1.filled b.1 b.2, r.2.touchRead e.die p.2.2.1 p.2.1 (r.2.mark g.ctx 62 false p.2.2.2))) (y, s1)
    let s2 := r.2.modElem e fun v => v.putSector r.1
    if spread then s2.addHolder g.key t.group va e else s2

/-- Whether a load of n bytes hits: every word it reads is valid (R157). -/
def State.loadHits (s : State) (e : ElemId) (t buf : Site) (o n : Nat) : Bool :=
  match (s.elem e).sectorAt buf.no (s.levelsBelow e) (t.base + o / 64 * 64) with
  | some x => x.valid &&& sectorWords o n = sectorWords o n
  | none => false

/-- Whether a store of a size needs nothing first for a part of it: its buffer line is its own, and what R144, R147 and R153 have
it fetch is there. -/
def State.storeHits (s : State) (g : Region) (e : ElemId) (t buf : Site) (size : Nat) (x : Part) : Bool :=
  let v := s.elem e
  !(v.sectors.any (t.conflicts buf (s.levelsBelow e) x.off)) &&
  (if s.spread g t.group then s.loadHits e t buf (x.off / 64 * 64) 64
   else t.fill = .combine || decide (4 ≤ size) || s.loadHits e t buf x.off x.n)

/-- n bytes of a sector in a buffer. -/
def State.sectorBytes (s : State) (e : ElemId) (t buf : Site) (o n : Nat) : List Byte :=
  match (s.elem e).sectorAt buf.no (s.levelsBelow e) (t.base + o / 64 * 64) with
  | some x => (List.range n).map fun i => x.data.extractLsb' (8 * (o % 64 + i)) 8
  | none => List.replicate n 0

/-- A store merged into its member's copy (R147), with the update that a spread group sends (R153). Dirty bytes that were
checked at another physical address are written back first. -/
def State.mergeStore (s : State) (g : Region) (e : ElemId) (c id : Nat) (t buf : Site) (x : Part) (bs : List (Option Byte)) : State :=
  let s1 := s.evictFor g e t buf x.off
  let lvl := s1.levelsBelow e
  let va := t.base + x.off / 64 * 64
  let pa : Int := (x.pa : Int) - ((x.off % 64 : Nat) : Int)
  let s2 := s1.flushSectors e g.ctx fun y => y.site = buf.no && y.lvl = lvl && y.va = va && y.pa != pa
  let y := ((s2.elem e).sectorAt buf.no lvl va).getD (newSector t buf lvl x.off)
  let p := placeBytes x.off bs
  let s3 := s2.modElem e fun v => v.putSector { y.put p.1 p.2 with dirty := y.dirty ||| p.1, pa := pa, page := x.page }
  if s3.spread g t.group && p.1 != 0 then s3.sendUpdate g t e c id va p.1 p.2 else s3

/-! ### Chains (R149) -/

/-- The sites of a chain on a plane in ascending sequence order. -/
def Plane4K.round (p : Plane4K) (chain : Nat) : List Site :=
  sortBy (fun a b => decide (a.seq ≤ b.seq)) (p.sites.filter fun t => t.chain = chain)

/-- The site on which the turn of a chain stands. -/
def Plane4K.turnAt (p : Plane4K) (chain : Nat) : Option SiteNo :=
  match p.turns.find? fun x => x.1 = chain with
  | some x => some x.2
  | none => (p.round chain).head?.map Site.no

/-- The turn moved to the next site of the round. -/
def Plane4K.moveTurn (p : Plane4K) (chain : Nat) : Plane4K :=
  let r := p.round chain
  match p.turnAt chain with
  | none => p
  | some k =>
    let next := match (r.dropWhile fun t => t.no != k).drop 1 with
      | t :: _ => some t.no
      | [] => r.head?.map Site.no
    match next with
    | some n => { p with turns := (p.turns.filter fun x => x.1 != chain) ++ [(chain, n)] }
    | none => p

/-- The site that an instruction names. -/
def siteNamed : Instr → Option SiteNo
  | .sld _ k _ _ _ => some k
  | .sst k _ _ _ => some k
  | .satm _ _ k _ _ => some k
  | .spf k _ _ => some k
  | .scln k _ _ => some k
  | .sinv k _ _ => some k
  | .ordt true _ k _ => some k
  | _ => none

/-- The site that an operation word names (R143): of `ordt` too, which is no operation on it. -/
def siteUsed : Instr → Option SiteNo
  | .ordt _ _ k _ => some k
  | i => siteNamed i

/-- Whether updates that an element's stores sent under a chain are still on their way: the turn waits (R149). -/
def State.turnHeld (s : State) (e : ElemId) (chain : Nat) : Bool :=
  s.fab.updates.any fun u => u.src = e && u.chain = chain

/-- Whether an operation that fired with a number stands first for the turn of its chain (R149). -/
def State.hasTurn (s : State) (e : ElemId) (t : Site) (id : Nat) : Bool :=
  t.chain = 0 ||
  ((s.elem e).pl.turnAt t.chain = some t.no && !s.turnHeld e t.chain &&
   (s.elem e).pl.ctxs.toList.all fun c => match c.fly with
     | some f => !(siteNamed f.instr = some t.no && decide (f.id < id) && f.wait != .no)
     | none => true)

/-- The turn of an operation's chain passed on once it has performed; while updates of the operation are on their way
SPREAD_UPDATE_APPLY passes it on. -/
def State.passTurn (s : State) (e : ElemId) (t : Site) : State :=
  if t.chain = 0 || s.turnHeld e t.chain then s else s.modElem e fun v => v.modPl fun p => p.moveTurn t.chain

/-! ### Faults (R166, R225) -/

/-- A site operation faults: the context stops; on a chain it still takes its turn, without any access (R149). -/
def State.siteFault (s : State) (e : ElemId) (c : Nat) (t : Site) (code det addr : Nat) : State :=
  match s.flying e c with
  | none => s
  | some f =>
    let s1 := s.elemFault e c code det addr
    if t.chain = 0 then s1
    else s1.modElem e fun v => v.modPl fun p =>
      p.setCtx c { p.ctx c with fly := some { f with wait := .turn, fails := some (code, det, addr), regs := [],
                                                     preds := [], o0 := none, o1 := none } }

/-- A site operation violates its context's region table: the record, and the region freezes; the operation issues again
on thaw (R225). -/
def State.violateElem (s : State) (e : ElemId) (c det addr : Nat) : State :=
  match s.regionOf e with
  | none => s
  | some g =>
    let s1 := s.post g.ctx e.die g.asid
      (recordWords 0x09 0 1 e.die (whoElem e) g.asid c g.ctx det (BitVec.ofNat 64 addr) 0)
    ((s1.raiseWave g.id .freeze).markFrozen g.ctx 1 g.die g.id).await e c .turn s.cycle

/-- A failing translation of a site operation: DETAIL holds the site where R238 would have bit 0 (R166; log 109). -/
def State.siteBad (s : State) (e : ElemId) (c : Nat) (t : Site) (code det lane o : Nat) : State :=
  if code = 0x09 then s.violateElem e c det (t.base + o) else s.siteFault e c t code (elemDetail t.no.toNat false lane) o

/-- The first access outside the window or misaligned (R145): code, lane, offset. -/
def siteOff (t : Site) (n : Nat) : List (Nat × Nat) → Option (Nat × Nat × Nat)
  | [] => none
  | (l, o) :: xs =>
    if t.extent < o + n then some (0x0F, l, o)
    else if o % n != 0 then some (0x10, l, o)
    else siteOff t n xs

/-- The translations of a site operation's accesses (R145), page by page; or the first failure: code, DETAIL, lane, offset. -/
def State.siteXlate (s : State) (g : Region) (e : ElemId) (c : Nat) (t : Site) (acc : Access) (n : Nat) (xs : List (Nat × Nat)) :
    (List Part ⊕ (Nat × Nat × Nat × Nat)) × State :=
  (xs.flatMap fun x => (pagesOf (t.base + x.2) n).map fun p => (x, p)).foldl
    (fun (r : (List Part ⊕ (Nat × Nat × Nat × Nat)) × State) x =>
      let o := x.2 - t.base
      let k := inPage (t.base + x.1.2) (t.base + x.1.2 + n) x.2
      match r.1 with
      | .inr _ => r
      | .inl ps => match r.2.translate (.elem e c) (hemOf e) g.ctx t.asid acc true g.task x.2 k with
        | (.ok pa en, s1) => (.inl (ps ++ [⟨x.1.1, o, k, pa, pageAttr en⟩]), s1)
        | (.bad code det, s1) => (.inr (code, det, x.1.1, x.1.2), s1)
        | (.miss, s1) => (.inr (noFault, 0, x.1.1, x.1.2), s1)) (.inl [], s)

/-! ### Performing (R157, R158) -/

/-- Bytes of a part of an access added to those of its lane. -/
def addBytes (got : List (Nat × List Byte)) (lane : Nat) (bs : List Byte) : List (Nat × List Byte) :=
  if got.any fun g => g.1 = lane then got.map fun g => if g.1 = lane then (lane, g.2 ++ bs) else g else got ++ [(lane, bs)]

/-- What a part of a store stores: its bytes with their mask. -/
def partStore (f : InFlight) (sz : ESize) (base : Nat) (x : Part) : List (Option Byte) :=
  ((accessBytes f.exec_ sz f.b x.lane).drop (x.off - base)).take x.n

/-- The window offset at which an access of a lane begins. -/
def partBase (xs : List Part) (x : Part) : Nat := ((xs.find? fun y => y.lane = x.lane).map Part.off).getD x.off

/-- A wait of a site operation for its sectors. -/
def State.awaitFill (s : State) (e : ElemId) (c : Nat) : State :=
  { s.await e c .fill (s.cycle + 1 + Config.latency s.serial) with serial := s.serial + 1 }

/-- A site load performed, fetching what is absent when `fetch` says that the wait is over. A load that waits for a stream is
saved at a freeze and issues again (log 84). -/
def State.loadSite (s : State) (g : Region) (e : ElemId) (c : Nat) (t : Site) (d : Dst) (sz : ESize) (sx fetch : Bool)
    (xs : List Part) : State :=
  let buf := (s.elem e).pl.bufSite t
  let hits := xs.all fun x => s.loadHits e t buf x.off x.n
  if t.fill = .stream && !hits then s.await e c .turn s.cycle
  else if !fetch && (t.fill = .none || !hits) then s.awaitFill e c
  else
    let r := xs.foldl (fun (r : List (Nat × List Byte) × Option Part × State) x =>
      if t.fill = .none then
        let s1 := r.2.2.touchRead e.die x.pa x.n (r.2.2.mark g.ctx 63 false x.page)
        (addBytes r.1 x.lane (s1.bytesAt e.die x.pa x.n), if s1.spoilt e.die none x.pa x.n then some x else r.2.1, s1)
      else
        let s1 := if r.2.2.loadHits e t buf x.off x.n then r.2.2 else r.2.2.fetchSector g e t buf x
        (addBytes r.1 x.lane (s1.sectorBytes e t buf x.off x.n), if s1.loadHits e t buf x.off x.n then r.2.1 else some x, s1))
      ([], none, s)
    match r.2.1 with
    | some x => r.2.2.siteFault e c t 0x16 (elemDetail t.no.toNat false x.lane) x.off
    | none => (r.2.2.settle e c 6 fun f => f.yields d 0 (loadResult sz sx r.1)).passTurn e t

/-- A site store performed. A member of a spread group first holds the sector (R153); one without a buffer sends its update
alone. -/
def State.storeSite (s : State) (g : Region) (e : ElemId) (c : Nat) (t : Site) (sz : ESize) (f : InFlight) (fetch : Bool)
    (xs : List Part) : State :=
  let n := esizeBytes sz
  let buf := (s.elem e).pl.bufSite t
  if t.fill != .none && !fetch && !(xs.all (s.storeHits g e t buf n)) then s.awaitFill e c
  else
    let r := xs.foldl (fun (r : Option Part × State) x =>
      let bs := partStore f sz (partBase xs x) x
      let p := placeBytes x.off bs
      if t.fill = .none then
        let s1 := if bs.all Option.isNone then r.2 else r.2.performSplit e.die x.pa bs (r.2.mark g.ctx 63 false x.page)
        (r.1, if s1.spread g t.group && p.1 != 0 then s1.sendUpdate g t e c f.id (t.base + x.off / 64 * 64) p.1 p.2 else s1)
      else
        let s1 := if r.2.storeHits g e t buf n x then r.2
          else if !r.2.spread g t.group && (4 ≤ n || t.fill = .combine) then r.2.evictFor g e t buf x.off
          else r.2.fetchSector g e t buf x
        if s1.storeHits g e t buf n x then (r.1, s1.mergeStore g e c f.id t buf x bs) else (some x, s1)) (none, s)
    match r.1 with
    | some x => r.2.siteFault e c t 0x16 (elemDetail t.no.toNat false x.lane) x.off
    | none => (r.2.settle e c 2 id).passTurn e t

/-- A `satm` performed (R158): one indivisible step for each lane in ascending order; in a spread group its result is
sent as an update (R153, item 4). -/
def State.atomSite (s : State) (g : Region) (e : ElemId) (c : Nat) (t : Site) (aop : AOp) (d : Dst) (f : InFlight)
    (xs : List Part) : State :=
  let expect := match dstReg d with | some n => ((s.elem e).pl.ctx c).reg n | none => 0
  let mine := (lanesIn f.exec_).filterMap fun l => xs.find? fun x => x.lane = l
  match mine.find? fun x => s.spoilt e.die none x.pa 4 with
  | some x => s.siteFault e c t 0x16 (elemDetail t.no.toNat false x.lane) x.off
  | none =>
    let r := mine.foldl (fun (r : List (Nat × List Byte) × State) x =>
      let a := r.2.atomicStep aop x.pa 4 (laneOf f.b x.lane).toNat (laneOf expect x.lane).toNat (r.2.mark g.ctx 63 false x.page)
      let p := placeBytes x.off ((a.2.bytesAt (homeDie x.pa) x.pa 4).map some)
      let s1 := if a.2.spread g t.group then a.2.sendUpdate g t e c f.id (t.base + x.off / 64 * 64) p.1 p.2 else a.2
      (r.1 ++ [(x.lane, toBytes 4 a.1)], s1)) ([], s)
    (r.2.settle e c 2 fun f => f.yields d 0 (loadResult .w false r.1)).passTurn e t

/-! ### Window ranges (R159) -/

/-- The window range of `spf`, `scln` and `sinv`: its first offset and its end. -/
def Site.range (t : Site) (a b : Data256) : Nat × Nat :=
  let o := (laneOf a 0).toNat
  let n := (laneOf b 0).toNat
  if n = 0 then (0, t.extent) else (o, min (o + n) t.extent)

/-- Whether a sector of an element lies in the buffer of a site and in a window range. -/
def Site.covers (t buf : Site) (lvl : Nat) (r : Nat × Nat) (x : SiteSector) : Bool :=
  x.site = buf.no && x.lvl = lvl && overlaps x.va 64 (t.base + r.1) (r.2 - r.1)

/-- The offsets at which the sectors of a window range begin. -/
def rangeSectors (r : Nat × Nat) : List Nat :=
  if r.2 ≤ r.1 then [] else (List.range ((r.2 - 1) / 64 - r.1 / 64 + 1)).map fun k => (r.1 / 64 + k) * 64

/-- The sectors of a range requested under the fill rule (R159): a rule that fetches nothing brings nothing. Code `noFault` says
that a walk or the host is awaited first (R241, R244). -/
def State.prefetchSite (s : State) (g : Region) (e : ElemId) (c : Nat) (t : Site) (r : Nat × Nat) : Option (Nat × Nat × Nat) × State :=
  if t.fill != .demand then (none, s)
  else (rangeSectors r).foldl (fun (a : Option (Nat × Nat × Nat) × State) o =>
    match a.1 with
    | some _ => a
    | none =>
      let buf := (a.2.elem e).pl.bufSite t
      if a.2.loadHits e t buf o 64 then a
      else match a.2.translate (.elem e c) (hemOf e) g.ctx t.asid .read true g.task (t.base + o) 1 with
        | (.ok pa en, s1) =>
          let n := (sectorPart (t.base + o) (t.base + o) pa).2.1
          (match s1.ownedIn (pageAttr en) pa n with
           | some q => (some (noFault, 0, o), s1.snoop q)
           | none => (none, s1.fetchSector g e t buf ⟨0, o, n, pa, pageAttr en⟩))
        | (.bad code det, s1) => (some (code, det, o), s1)
        | (.miss, s1) => (some (noFault, 0, o), s1)) (none, s)

/-- Dirty sectors of a range written back, and with `drop` its lines dropped (R159). -/
def State.cleanSite (s : State) (g : Region) (e : ElemId) (t : Site) (r : Nat × Nat) (drop : Bool) : State :=
  let buf := (s.elem e).pl.bufSite t
  let p := t.covers buf (s.levelsBelow e) r
  if !drop then s.flushSectors e g.ctx p
  else
    let lines := ((s.elem e).sectors.filter p).map fun x => (x.line, x.base)
    s.dropSectors e g.ctx fun x => x.site = buf.no && x.lvl = s.levelsBelow e && lines.contains (x.line, x.base)

/-! ### A site operation looked at -/

/-- The accesses of a site operation: its kind of access, size and operand. -/
def siteAccess : Instr → Option (Access × ESize)
  | .sld _ _ _ sz _ => some (.read, sz)
  | .sst _ _ _ sz => some (.write, sz)
  | .satm _ _ _ _ _ => some (.atomic, .w)
  | _ => none

/-- Loads, stores and atomics with their accesses translated: a line that the host holds is snooped first (R241); an
atomic with a destination performs when its reply is due. -/
def State.performSite (s : State) (g : Region) (e : ElemId) (c : Nat) (t : Site) (f : InFlight) (past : Bool)
    (xs : List Part) : State :=
  match xs.findSome? fun x => s.ownedIn x.page x.pa x.n with
  | some a => (s.snoop a).await e c .fill (s.cycle + 1)
  | none =>
    match f.instr with
    | .sld d _ _ sz sx => s.loadSite g e c t d sz sx past xs
    | .sst _ _ _ sz => s.storeSite g e c t sz f past xs
    | .satm aop d _ _ _ =>
      if d = .none || past then s.atomSite g e c t aop d f xs
      else { s.await e c .reply (s.cycle + 1 + Config.latency s.serial) with serial := s.serial + 1 }
    | _ => s

/-- The ranges of `spf`, `scln` and `sinv` looked at (R159). -/
def State.rangeSite (s : State) (g : Region) (e : ElemId) (c : Nat) (t : Site) (f : InFlight) : State :=
  let r := t.range f.a f.b
  match f.instr with
  | .spf _ _ _ =>
    (match s.prefetchSite g e c t r with
     | (some (code, det, o), s1) => if code = noFault then s1.await e c .turn s.cycle else s1.siteBad e c t code det 0 o
     | (none, s1) => (s1.settle e c 2 id).passTurn e t)
  | .scln _ _ _ =>
    let s1 := s.cleanSite g e t r false
    if s1.holdsBack e then s1.await e c .turn s.cycle else (s1.settle e c 2 id).passTurn e t
  | .sinv _ _ _ => ((s.cleanSite g e t r true).settle e c 2 id).passTurn e t
  | .ordt true _ _ _ => (s.settle e c 2 id).passTurn e t
  | _ => s

/-- A site operation in flight looked at: its chain's turn, its offsets, its translations, then its accesses. `past` says
that a wait for its sectors or its reply is over. -/
def State.trySite (s : State) (e : ElemId) (c : Nat) (past : Bool) : State :=
  match s.flying e c with
  | none => s
  | some f =>
    match s.regionOf e, (siteNamed f.instr).bind (s.elem e).pl.site with
    | some g, some t =>
      if !s.hasTurn e t f.id then s.await e c .turn s.cycle
      else if f.fails.isSome then
        (s.modElem e fun v => v.modPl fun p => p.setCtx c { p.ctx c with fly := none }).passTurn e t
      else match siteAccess f.instr with
        | none => s.rangeSite g e c t f
        | some (acc, sz) =>
          let os := laneOffsets f.exec_ sz f.a
          match siteOff t (esizeBytes sz) os with
          | some bad => s.siteFault e c t bad.1 (elemDetail t.no.toNat false bad.2.1) bad.2.2
          | none =>
            match s.siteXlate g e c t acc (esizeBytes sz) os with
            | (.inr (code, det, l, o), s1) =>
              if code = noFault then (s.retry s1).await e c (if past then f.wait else .turn) (s.cycle + 1)
              else s1.siteBad e c t code det l o
            | (.inl xs, s1) => s1.performSite g e c t f past xs
    | _, _ => s.elemFault e c 0x1C 0 0

end Sys2Proof.Machine
end

