-- ==== Sys2Proof/Machine/ElemSite.lean ====
section
/-! DEFINITION. The site instructions (07_element_storage.md R156 to R159) and `ordt` (R150). Each fires with its operands
and is looked at at once; what it must wait for, an event looks at again. -/

namespace Sys2Proof.Machine

/-- A site instruction fired and looked at (R149, R157). -/
def State.site_ (s : State) (i : Instr) (d : Dst) (a b : Src) : Res :=
  s.fireThen i d a b .turn fun s1 => s1.trySite s1.focus.elem s1.focus.ctx false

/-- `sld` (R157). -/
def execSld (d : Dst) (site : SiteNo) (a : Src) (sz : ESize) (sx : Bool) (s : State) : Res :=
  s.site_ (.sld d site a sz sx) d a .zero

/-- `sst` (R157). -/
def execSst (site : SiteNo) (a b : Src) (sz : ESize) (s : State) : Res := s.site_ (.sst site a b sz) .none a b

/-- `satm` (R158). -/
def execSatm (aop : AOp) (d : Dst) (site : SiteNo) (a b : Src) (s : State) : Res :=
  s.site_ (.satm aop d site a b) d a b

/-- `spf` (R159). -/
def execSpf (site : SiteNo) (a b : Src) (s : State) : Res := s.site_ (.spf site a b) .none a b

/-- `scln` (R159). -/
def execScln (site : SiteNo) (a b : Src) (s : State) : Res := s.site_ (.scln site a b) .none a b

/-- `sinv` (R159). -/
def execSinv (site : SiteNo) (a b : Src) (s : State) : Res := s.site_ (.sinv site a b) .none a b

/-- Whether every operation on a site that an element fired before a number has performed, with every update (R150). -/
def State.siteDone (s : State) (e : ElemId) (k : SiteNo) (id : Nat) : Bool :=
  ((s.elem e).pl.ctxs.toList.all fun c => match c.fly with
    | some f => !(siteNamed f.instr = some k && decide (f.id < id) && f.wait != .no)
    | none => true) &&
  !(s.fab.updates.any fun u => u.src = e && u.site = k && decide (u.id < id))

/-- An `ordt` in flight looked at (R150): the ordering token is all zero. -/
def State.tryOrdt (s : State) (e : ElemId) (c : Nat) (d : Dst) (k : SiteNo) (tg : BitVec 3) (f : InFlight) : State :=
  if s.siteDone e k f.id then s.settle e c 2 fun g => g.yields d tg 0 else s.await e c .performed (s.cycle + 1)

/-- `ordt` and `ordt.skip` (R150). -/
def execOrdt (skip : Bool) (d : Dst) (site : SiteNo) (tg : BitVec 3) (s : State) : Res :=
  if skip then s.site_ (.ordt skip d site tg) .none .zero .zero
  else s.fireThen (.ordt skip d site tg) d .zero .zero .performed fun s1 =>
    match s1.flying s1.focus.elem s1.focus.ctx with
    | some f => s1.tryOrdt s1.focus.elem s1.focus.ctx d site tg f
    | none => s1

end Sys2Proof.Machine
end

