-- ==== Sys2Proof/Machine/ElemPort.lean ====
section
/-! DEFINITION. The queue and barrier ports of elements and thimble permits (07_element_storage.md R163, R164, R172;
16_queues.md R335; 17_barriers.md R343). -/

namespace Sys2Proof.Machine

/-! ### Port operations (R163, R164) -/

/-- The virtual address that a port binding of an element's region names (R163). -/
def State.portVa (s : State) (e : ElemId) (barrier : Bool) (f : Nat) : Option Nat :=
  (((s.regionOf e).bind Region.info).bind fun i =>
    (if barrier then i.bports else i.qports)[f]?).join

/-- The object of a port operation: its addresses and its page. -/
structure PortAt where
  va   : Nat
  pa   : Nat
  page : PageAttr
  deriving DecidableEq, Repr

/-- A port operation looked at: the object's address translated as an atomic at the hem tile, its line given up by the host, and
its words sound (R241, R392); `k` goes on. -/
def State.port (s : State) (e : ElemId) (c f : Nat) (barrier : Bool) (n : Nat) (k : State → PortAt → State) : State :=
  match s.regionOf e, s.portVa e barrier f with
  | some g, some va =>
    (match s.translate (.elem e c) (hemOf e) g.ctx g.asid .atomic true g.task va n with
     | (.ok pa en, s1) =>
       if s1.snoopFirst (pageAttr en) pa then (s1.snoop pa).await e c .port (s1.cycle + 1)
       else if s1.spoilt e.die none pa n then s1.elemFault e c 0x16 0 va
       else k s1 ⟨va, pa, pageAttr en⟩
     | (.bad code det, s1) =>
       if code = 0x09 then s1.violateElem e c det va else s1.elemFault e c code det va
     | (.miss, s1) => (s.retry s1).await e c .port (s.cycle + 1))
  | _, _ => s.elemFault e c 0x1C 0 0

/-- A queue port operation: ESIZE above 32 faults SHAPE_MISMATCH, a side that the host holds ACCESS_PERM (R163, R335). -/
def State.qport (s : State) (e : ElemId) (c f : Nat) (enq : Bool) (k : State → PortAt → QBlock → State) : State :=
  s.port e c f false 64 fun s1 o =>
    let b := s1.qblock e.die o.pa
    if 32 < b.esize then s1.elemFault e c 0x13 0 0
    else if (if enq then b.pmode else b.cmode) = 2 then s1.elemFault e c 0x08 4 0
    else k s1 o b

/-- The mark of a port's accesses (R253). -/
def State.portMark (s : State) (e : ElemId) (o : PortAt) : Mark := s.mark ((s.regionOf e).elim 0 Region.ctx) 63 false o.page

/-- A posted operation handed to the port of an element with the clock of its request (R94); its context is free after two
cycles. -/
def State.postPort (s : State) (e : ElemId) (c : Nat) (kind : PostKind) (o : PortAt) (size : Nat) (data : List Byte)
    (tag : BitVec 3) : State :=
  let p : Posted := ⟨c, kind, o.va, o.pa, o.page, data, size, tag, s.clock e.die, s.cycle + 1 + Config.latency s.serial, s.levelsBelow e⟩
  ({ s.modElem e (fun v => { v with posted := v.posted ++ [p] }) with serial := s.serial + 1 }).settle e c 2 id

/-- What a queue step comes to for a context that waits for it. -/
def State.portAnswer (s : State) (e : ElemId) (c : Nat) (r : QAns) (enq : Bool) (pa : Nat) (tag : BitVec 3) : State :=
  match r with
  | .ok _ bytes clock =>
    if enq then (s.await e c .stamp s.cycle).modFly e c fun f => { f with clock := clock }
    else (s.sendRow e (pa % 64) false (.queue 2 (tokenOf bytes tag)) 2 (some c) (some clock) (s.levelsBelow e)).await e c .delivery s.cycle
  | .parked => s.await e c .delivery s.cycle
  | .full => s
  | .empty => s
  | .closed => s.elemFault e c 0x0B 0 0
  | .corrupt det => s.elemFault e c 0x0A det 0

/-- A blocking `eenq` or `edeq` in flight looked at: a step commits once its home covers the clock of its request, and the context
goes on once its die covers that of the answer (R94, R325, R328). -/
def State.tryQueue (s : State) (enq : Bool) (f : Nat) (tag : BitVec 3) (fl : InFlight) : State :=
  let e := s.focus.elem
  let c := s.focus.ctx
  s.qport e c f enq fun s1 o b =>
    if !(s1.clock (homeDie o.pa)).covers fl.clock then s1.await e c .port (s1.cycle + 1)
    else
      let data := if enq then (toBytes 32 (maskLanes fl.exec_ fl.a).toNat).take b.esize else []
      let w : Parked := ⟨.elem e c, o.pa, if enq then .producer else .consumer, b.esize, data, 0, tag, 0, s1.levelsBelow e,
        s1.portMark e o⟩
      let r := if enq then s1.enqStep w true else s1.deqStep w true
      r.1.portAnswer e c r.2 enq o.pa tag

/-- An `eenq` in flight looked at (R163): blocking, or posted with `.t`. -/
def State.tryEenq (s : State) (t : Bool) (f : Nat) (tg : BitVec 3) (fl : InFlight) : State :=
  if t then s.qport s.focus.elem s.focus.ctx f true fun s2 o blk =>
    s2.postPort s2.focus.elem s2.focus.ctx .enq o blk.esize ((toBytes 32 (maskLanes fl.exec_ fl.a).toNat).take blk.esize) tg
  else s.tryQueue true f tg fl

/-- An `edeq` in flight looked at (R163): blocking, or posted with `.t`. -/
def State.tryEdeq (s : State) (t : Bool) (f : Nat) (tg : BitVec 3) (fl : InFlight) : State :=
  if t then s.qport s.focus.elem s.focus.ctx f false fun s2 o blk =>
    s2.postPort s2.focus.elem s2.focus.ctx .deq o blk.esize [] tg
  else s.tryQueue false f tg fl

/-- An `ebar` in flight looked at (R164): an arrival posted, with a release token or, with `.na`, without. -/
def State.tryEbar (s : State) (na : Bool) (f : Nat) (tg : BitVec 3) : State :=
  s.port s.focus.elem s.focus.ctx f true 16 fun s2 o =>
    s2.postPort s2.focus.elem s2.focus.ctx (if na then .barNa else .bar) o 16 [] tg

/-- `eenq` (R163). -/
def execEenq (t : Bool) (f : BitVec 5) (b : Src) (tg : BitVec 3) (s : State) : Res :=
  s.fireThen (.eenq t f b tg) .none b .zero .port fun s1 =>
    match s1.flying s1.focus.elem s1.focus.ctx with
    | none => s1
    | some fl => s1.tryEenq t f.toNat tg fl

/-- `edeq` (R163). -/
def execEdeq (t : Bool) (f : BitVec 5) (tg : BitVec 3) (s : State) : Res :=
  s.fireThen (.edeq t f tg) .none .zero .zero .port fun s1 =>
    match s1.flying s1.focus.elem s1.focus.ctx with
    | none => s1
    | some fl => s1.tryEdeq t f.toNat tg fl

/-- `ebar` (R164). -/
def execEbar (na : Bool) (f : BitVec 5) (tg : BitVec 3) (s : State) : Res :=
  s.fireThen (.ebar na f tg) .none .zero .zero .port fun s1 => s1.tryEbar na f.toNat tg

/-! ### Permits (R172) -/

/-- Whether every site, scratch and port operation that a context fired earlier has performed, with every update (R172). -/
def State.permitDue (s : State) (e : ElemId) (c : Nat) : Bool :=
  !((s.elem e).posted.any fun p => p.ctx = c) && !(s.fab.updates.any fun u => u.src = e && u.ctx = c)

/-- A `pgive` in flight looked at (R172). -/
def State.tryPgive (s : State) (d : Dst) (tg : BitVec 3) : State :=
  let e := s.focus.elem
  let c := s.focus.ctx
  if s.permitDue e c then
    s.settle e c 2 fun f =>
      let t : Token := ⟨0, tg, false⟩
      { f with o0 := if dstNames d false then some t else none, o1 := if dstNames d true then some t else none }
  else s.await e c .permit (s.cycle + 1)

/-- `pgive` (R172). -/
def execPgive (d : Dst) (tg : BitVec 3) (s : State) : Res :=
  s.fireThen (.pgive d tg) d .zero .zero .permit fun s1 => s1.tryPgive d tg

/-- `ptake` (R172): the permit's token is taken. -/
def execPtake (a : Src) (s : State) : Res :=
  s.fireThen (.ptake a) .none a .zero .no fun s1 => s1.settle s1.focus.elem s1.focus.ctx 2 id

end Sys2Proof.Machine
end

