-- ==== Sys2Proof/Machine/Router.lean ====
section
/-! DEFINITION. Stream blocks (07_element_storage.md R178) and the planes of the mesh (03_encodings.md R69, R70;
05_fabric.md R105 to R109, R117): where a token goes from a buffer, and whether every place has room. -/

namespace Sys2Proof.Machine

/-! ### Stream parameter blocks (R178) -/

/-- The word of a block at a byte offset. -/
def StreamSt.word (b : StreamSt) (off : Nat) : Word := b.block[off / 4]?.getD 0
/-- BASE. -/
def StreamSt.base (b : StreamSt) : Nat := (b.word 0).toNat + (b.word 4).toNat * 2 ^ 32
/-- CNT of level j. -/
def StreamSt.cnt (b : StreamSt) (j : Nat) : Nat := (b.word (8 + 8 * j)).toNat
/-- STR of level j, signed. -/
def StreamSt.str (b : StreamSt) (j : Nat) : Int := (b.word (12 + 8 * j)).toInt
/-- Bits h to l of the word at an offset. -/
def StreamSt.fld (b : StreamSt) (off h l : Nat) : Nat := ((b.word off).toNat >>> l) % 2 ^ (h - l + 1)
/-- MODE window. -/
def StreamSt.window (b : StreamSt) : Bool := b.fld 0x28 12 12 = 1
/-- PLANE. -/
def StreamSt.plane (b : StreamSt) : Plane := if b.fld 0x28 10 10 = 1 then .b else .a
/-- PORT: which of the two rows. -/
def StreamSt.port (b : StreamSt) : Nat := b.fld 0x28 9 9
/-- GATE. -/
def StreamSt.gate (b : StreamSt) : Nat := b.fld 0x28 8 7
/-- TAG. -/
def StreamSt.tag (b : StreamSt) : BitVec 3 := BitVec.ofNat 3 (b.fld 0x2C 10 8)

/-- The stream that runs in a slot; one that a freeze pauses holds its slot and does not run (R286). -/
def State.slotStream (s : State) (h : HemSlot) : Option StreamSt :=
  s.engs.cmds.findSome? fun c => if c.ended.isSome then none
    else match c.strm with
      | some st => if st.slot = h && st.started && !st.paused then some st else none
      | none => none

/-! ### Switch words (R69) -/

/-- Number of a plane. -/
def planeNo : Plane → Nat
  | .a => 0
  | .b => 1

/-- Switch word of a plane. -/
def Plane4K.switch (p : Plane4K) (pl : Plane) : BitVec 16 := p.sw[planeNo pl]'(by cases pl <;> decide)

/-- Selector of an output: 0 N, 1 E, 2 S, 3 W, 4 the element input. -/
def Plane4K.sel (p : Plane4K) (pl : Plane) (out : Nat) : Nat := ((p.switch pl).toNat >>> (12 - 3 * out)) % 8

/-- H. -/
def Plane4K.hopOn (p : Plane4K) (pl : Plane) : Bool := (p.switch pl).getLsbD 15

/-- The direction outputs that select a source. -/
def Plane4K.dirs (p : Plane4K) (pl : Plane) (code : Nat) : List Nat := [0, 1, 2, 3].filter fun d => p.sel pl d = code

/-- A hop register. -/
def Plane4K.hop (p : Plane4K) (pl : Plane) : Option HopEntry := p.hops[planeNo pl]'(by cases pl <;> decide)

/-- A hop register replaced. -/
def Plane4K.setHop (p : Plane4K) (pl : Plane) (h : Option HopEntry) : Plane4K :=
  { p with hops := p.hops.set (planeNo pl) h (by cases pl <;> decide) }

/-- The source code by which a router names the side a token comes in from, when it leaves its neighbour in a direction. -/
def fromCode (dir : Nat) : Nat := (dir + 2) % 4 + 1

/-- What lies in a direction of an element: a neighbour, a hem tile's stream port, or nothing. -/
inductive Beyond where
  | elem (e : ElemId)
  | port (side : Side) (row : Nat)
  | off
  deriving DecidableEq, Repr

/-- The neighbour in a direction (R12, R70). -/
def beyond (e : ElemId) (dir : Nat) : Beyond :=
  match dir with
  | 0 => if e.row = 0 then .off else .elem { e with row := e.row - 1 }
  | 1 => if e.col = 79 then .port .east e.row else .elem { e with col := e.col + 1 }
  | 2 => if e.row = 63 then .off else .elem { e with row := e.row + 1 }
  | _ => if e.col = 0 then .port .west e.row else .elem { e with col := e.col - 1 }

/-! ### Where a token goes (R107 to R109) -/

/-- A place that a token reaches in one move. -/
inductive Dest where
  | inq (e : ElemId) (ch : Nat)
  | hop (e : ElemId) (pl : Plane) (src : Nat)
  | stream (h : HemSlot)
  | gate (h : HemSlot)
  | shut
  | void (e : ElemId) (pl : Plane) (dir : Nat)
  deriving DecidableEq, Repr

/-- The stream slot that takes tokens from a port of a hem tile: one that runs to memory, or one that takes its gate
tokens there (R117, R178). -/
def State.portDest (s : State) (die : Nat) (side : Side) (row : Nat) (pl : Plane) : Dest :=
  let at_ (k : Nat) : HemSlot := ⟨die, side, row / 2, k⟩
  match (List.range 8).findSome? fun k =>
      match s.slotStream (at_ k) with
      | some st =>
        if st.port != row % 2 then none
        else if st.toMem && st.kind = 0 && st.plane = pl then some (Dest.stream (at_ k))
        else if st.gate = planeNo pl + 1 then some (Dest.gate (at_ k))
        else none
      | none => none with
  | some d => d
  | none => .shut

/-- Whether a token may cross from an element to its neighbour: both in one region, and the neighbour configured (R109). -/
def State.joined (s : State) (a b : ElemId) : Bool :=
  (s.elem a).region = (s.elem b).region && (s.elem b).region.isSome && (s.elem b).st = .running

/-- The places that a token reaches through the router of an element at which it stands on a plane under a source code; the
fuel is the number of routers that it may pass (R108). -/
def State.dests (s : State) (pl : Plane) (e : ElemId) (code : Nat) : Nat → List Dest
  | 0 => []
  | n + 1 =>
    let p := (s.elem e).pl
    let ins := if p.sel pl 4 = code then [Dest.inq e (planeNo pl)] else []
    let ds := p.dirs pl code
    if ds.isEmpty then ins
    else if p.hopOn pl then ins ++ [.hop e pl code]
    else ins ++ ds.flatMap fun d =>
      match beyond e d with
      | .elem b => if s.joined e b then s.dests pl b (fromCode d) n else [.void e pl d]
      | .port side row => [s.portDest e.die side row pl]
      | .off => [.void e pl d]

/-- The places that a token in a hop register reaches. -/
def State.hopDests (s : State) (pl : Plane) (e : ElemId) (code : Nat) : List Dest :=
  ((s.elem e).pl.dirs pl code).flatMap fun d =>
    match beyond e d with
    | .elem b => if s.joined e b then s.dests pl b (fromCode d) 16 else [.void e pl d]
    | .port side row => [s.portDest e.die side row pl]
    | .off => [.void e pl d]

/-- The element at which a stream slot's port enters the fabric. -/
def portElem (h : HemSlot) (port : Nat) : ElemId := ⟨h.die, 2 * h.tile + port, if h.side = .west then 0 else 79⟩

/-- What a hem tile's stream slot, or as number 8 its sweep port (R357, R369), puts on the fabric: plane, which of the two rows,
and its tokens. -/
def State.portOut (s : State) (h : HemSlot) : Option (Plane × Nat × List Entry) :=
  if h.slot = 8 then
    (s.sweepHeld h.die).bind fun w => if w.port = (h.tile, h.side) then some (.b, 0, w.queue) else none
  else (s.slotStream h).bind fun st => if !st.toMem && st.kind = 0 then some (st.plane, st.port, s.slotToks h) else none

/-- The sweep of an element's region level whose query map names the element, while it has not ended (R359). -/
def State.sweepOver (s : State) (e : ElemId) : Option Sweep :=
  s.engs.sweeps.find? fun w => s.sweepUp w && (s.elem e).region = some w.region && w.queries.any fun q => q.e = e

/-- The owner to which a tag-6 token at the head of o1 leaves, while a sweep runs on its element's region level (R359). -/
def State.toOwner (s : State) (b : BufId) : Option (ElemId × Token × Nat) :=
  match b with
  | .out e true =>
    (match (s.elem e).pl.outq true with
     | .filled x :: _ =>
       if x.at_ < s.cycle && x.tok.tag = 6 && (s.sweepOver e).isSome then some (e, x.tok, ownerOf e) else none
     | _ => none)
  | _ => none

/-- The head of a buffer that can move in this cycle, and where it goes. A tag-7 token of a T-element stays for a call or a
return (R282), and one for a sweep's owner does not go on the planes. -/
def State.heading (s : State) : BufId → Option (Token × List Dest)
  | .out e o =>
    match (s.elem e).pl.outq o with
    | .filled x :: _ =>
      if x.at_ < s.cycle && !(x.tok.tag = 7 && !isM e) && (s.toOwner (.out e o)).isNone then
        some (x.tok, s.dests .a e (5 + o.toNat) 17 ++ s.dests .b e (5 + o.toNat) 17)
      else none
    | _ => none
  | .hop e pl =>
    match (s.elem e).pl.hop pl with
    | some h => if h.e.at_ < s.cycle then some (h.e.tok, s.hopDests pl e h.from_) else none
    | none => none
  | .hem h =>
    match s.portOut h with
    | some (pl, port, x :: _) =>
      if x.at_ < s.cycle then some (x.tok, s.dests pl (portElem h port) (if h.side = .west then 4 else 2) 16) else none
    | _ => none

/-- Whether a source is selected by any output: a token that no output selects stays. A hem slot's token that enters a router which
selects its side nowhere is at a dead end, and is discarded there (R107; log 85). -/
def State.selected (s : State) : BufId → Bool
  | .out e o =>
    let p := (s.elem e).pl
    [Plane.a, Plane.b].any fun pl => [0, 1, 2, 3, 4].any fun k => p.sel pl k = 5 + o.toNat
  | _ => true

/-- Whether a place has room for a token (R105, R107): a gated element has none until it is up (R118). A stream holds up to 16
gate tokens beside the 16 tokens of its slot (log 86). -/
def State.room (s : State) : Dest → Bool
  | .inq e ch => (s.elem e).gate = .awake && decide (((s.elem e).pl.inq ch).length < 4)
  | .hop e pl _ => ((s.elem e).pl.hop pl).isNone
  | .stream h => match s.slotStream h with
    | some st => decide ((s.slotToks h).length < 16) && decide (st.at_ + (s.slotToks h).length * st.per < st.total)
    | none => false
  | .gate h => match s.slotStream h with | some st => decide (st.gates.length < 16) | none => false
  | .shut => false
  | .void _ _ _ => true

/-- The buffer from which tokens come to a router under a source code (R107); the fuel bounds the routers passed. -/
def State.feeder (s : State) (pl : Plane) (e : ElemId) (code : Nat) : Nat → Option BufId
  | 0 => none
  | n + 1 =>
    if code = 5 then some (.out e false)
    else if code = 6 then some (.out e true)
    else if code = 0 || 6 < code then none
    else match beyond e (code - 1) with
      | .elem b =>
        let k := (s.elem b).pl.sel pl ((code + 1) % 4)
        if !s.joined e b || k = 0 then none
        else if (s.elem b).pl.hopOn pl then some (.hop b pl)
        else s.feeder pl b k n
      | .port side row =>
        (List.range 9).findSome? fun k =>
          let h : HemSlot := ⟨e.die, side, row / 2, k⟩
          match s.portOut h with
          | some (q, port, _ :: _) => if q = pl && port = row % 2 then some (.hem h) else none
          | _ => none
      | .off => none

/-- Whether a buffer's head could move if a hop register that several sources share were its own. -/
def State.eager (s : State) (b : BufId) : Bool :=
  match s.heading b with
  | some (_, ds) => s.selected b && ds.all s.room
  | none => false

/-- The source of a shared hop register whose turn it is (R108): from the one after the source served last, the first whose
token could move. -/
def State.hopTurn (s : State) (e : ElemId) (pl : Plane) : Option Nat :=
  let p := (s.elem e).pl
  let last := p.turn[planeNo pl]'(by cases pl <;> decide)
  ((List.range 6).map fun i => (last + i) % 6 + 1).find? fun c =>
    !(p.dirs pl c).isEmpty && (match s.feeder pl e c 17 with | some b => s.eager b | none => false)

/-- A number for the port of a hem tile through which slots send on a plane. -/
def portKey (h : HemSlot) (port : Nat) (pl : Plane) : Nat :=
  (((h.die * 2 + (if h.side = .east then 1 else 0)) * 32 + h.tile) * 2 + port) * 2 + planeNo pl

/-- Whether a stream slot is the one its port takes a token from in this cycle (R117): each port carries one token a cycle,
and slots with tokens take turns. The rotation begins at slot 1 (log 87). -/
def State.portTurn (s : State) (h : HemSlot) : Bool :=
  match s.portOut h with
  | none => false
  | some (pl, port, _) =>
    let r := lookupD s.engs.rotor (portKey h port pl) 0
    if r / 16 = s.cycle + 1 then false
    else
      let same (k : Nat) : Bool :=
        match s.portOut { h with slot := k } with
        | some (q, u, _) => u = port && q = pl && s.eager (.hem { h with slot := k })
        | none => false
      (((List.range 9).map fun i => (r % 16 + 1 + i) % 9).find? same) = some h.slot

/-- Whether a buffer's region lets it begin a move (R286). -/
def State.mayMove (s : State) (e : ElemId) : Bool :=
  (s.elem e).st = .running && (match s.regionOf e with | some g => g.wave.isNone | none => false)

/-- The element whose region a buffer belongs to. -/
def State.bufElem (s : State) : BufId → Option ElemId
  | .out e _ => some e
  | .hop e _ => some e
  | .hem h => (s.portOut h).map fun x => portElem h x.2.1

/-- Whether a buffer forwards its head in this cycle (R107, R108, R117). -/
def State.forwards (s : State) (b : BufId) (ds : List Dest) : Bool :=
  s.selected b && ds.all s.room &&
  (ds.all fun d => match d with | .hop e pl c => s.hopTurn e pl = some c | _ => true) &&
  (match b with | .hem h => s.portTurn h | _ => true) &&
  (match s.bufElem b with | some e => s.mayMove e | none => false)

/-! ### Moving (R106 to R109, R118) -/

/-- A gated element wakes: 2 cycles from clock gating, 48 from power gating (R118). -/
def State.wake (s : State) (e : ElemId) : State :=
  match (s.elem e).gate with
  | .clock => s.modElem e fun v => { v with gate := .waking (s.cycle + 2) }
  | .power => s.modElem e fun v => { v with gate := .waking (s.cycle + 48) }
  | _ => s

/-- A token discarded at a region's edge: the first on each boundary output in a load is reported (R109). -/
def State.voidToken (s : State) (e : ElemId) (pl : Plane) (dir : Nat) (t : Token) : State :=
  match s.regionOf e with
  | none => s
  | some g =>
    if g.voids.contains (e, pl, dir) then s
    else
      let addr := (laneOf t.data 0).toNat + t.tag.toNat * 2 ^ 32
      (s.modRegion g.id fun g => { g with voids := g.voids ++ [(e, pl, dir)] }).post g.ctx e.die g.asid
        (recordWords 0x15 0 (if isM e then 2 else 1) e.die (whoElem e) g.asid 0 g.ctx (planeNo pl * 16 + dir)
          (BitVec.ofNat 64 addr) 0)

/-- A stream's progress changed, by its slot. -/
def State.modStream (s : State) (h : HemSlot) (f : StreamSt → StreamSt) : State :=
  let g (c : Cmd) : Cmd := match c.strm with
    | some st => if st.slot = h && st.started && c.ended.isNone then { c with strm := some (f st) } else c
    | none => c
  { s with engs := { s.engs with cmds := s.engs.cmds.map g } }

/-- The command of the stream whose token stands at the head of a buffer; 0 for a token of an element or a sweep. -/
def State.origin (s : State) : BufId → Nat
  | .out _ _ => 0
  | .hop e pl => (((s.elem e).pl.hop pl).map HopEntry.cmd).getD 0
  | .hem h => ((s.engs.cmds.find? fun c => c.ended.isNone && (match c.strm with
      | some st => st.slot = h && st.started
      | none => false)).map Cmd.id).getD 0

/-- A token put in a place; `cmd` is the stream command that it comes from. -/
def State.put (s : State) (cmd : Nat) (t : Token) (d : Dest) : State :=
  match d with
  | .inq e ch => s.modElem e fun v => v.modPl fun p => p.pushIn ch t s.cycle
  | .hop e pl c => s.modElem e fun v => v.modPl fun p =>
      { p.setHop pl (some ⟨⟨t, s.cycle⟩, c, cmd⟩) with turn := p.turn.set (planeNo pl) c (by cases pl <;> decide) }
  | .stream h => s.setSlot h (s.slotToks h ++ [⟨t, s.cycle⟩])
  | .gate h => s.modStream h fun st => { st with gates := st.gates ++ [t.data] }
  | .shut => s
  | .void e pl d => s.voidToken e pl d t

/-- The head of a buffer taken by its router. -/
def State.takeHead (s : State) (b : BufId) : State :=
  match b with
  | .out e o => s.modElem e fun v => v.modPl fun p =>
      { p.setOut o ((p.outq o).drop 1) with freed := p.freed.set o.toNat (s.cycle + 1) (by cases o <;> decide) }
  | .hop e pl => s.modElem e fun v => v.modPl fun p => p.setHop pl none
  | .hem h =>
    match s.portOut h with
    | some (pl, port, q) =>
      let s1 := if h.slot = 8 then
          (match s.sweepOn h.die with
           | some w => s.modSweep w.cmd fun v => { v with queue := q.drop 1 }
           | none => s)
        else s.setSlot h (q.drop 1)
      { s1 with engs := { s1.engs with rotor := insertD s1.engs.rotor (portKey h port pl) ((s.cycle + 1) * 16 + h.slot) } }
    | none => s

/-- A buffer's head moved (R107): it goes to every place at once, if all can take it; gated elements on its way wake. A partial's
token leaves for its owner over the row network (R359). -/
def State.routeHead (s : State) (b : BufId) : State :=
  match s.toOwner b with
  | some (e, t, owner) =>
    if s.mayMove e then
      (s.takeHead b).sendRow e (8192 + owner) false (.partial_ owner [t]) 4 none none (s.levelsBelow e)
    else s
  | none =>
    match s.heading b with
    | none => s
    | some (t, ds) =>
      if s.forwards b ds then ds.foldl (fun s' d => s'.put (s.origin b) t d) (s.takeHead b)
      else ds.foldl (fun s d => match d with | .inq e _ => s.wake e | _ => s) s

/-- A router's turn for a buffer (R107, R108): the hop registers that its head would enter are routed first, so that a register
whose token leaves in this cycle takes the next one in the same cycle (log 88). The fuel bounds the registers in a row. -/
def State.routeFrom : Nat → State → BufId → State
  | 0, s, b => s.routeHead b
  | n + 1, s, b =>
    match s.heading b with
    | none => s.routeHead b
    | some (_, ds) => (ds.foldl (fun s d => match d with
        | .hop e pl _ => if ((s.elem e).pl.hop pl).isSome then State.routeFrom n s (.hop e pl) else s
        | _ => s) s).routeHead b

/-- A router's turn for a buffer. -/
def State.route (s : State) (b : BufId) : State := s.routeFrom 160 b

end Sys2Proof.Machine
end

