-- ==== Sys2Proof/Machine/SeqSync.lean ====
section
/-! DEFINITION. Fences and waits (04_ordering.md R83, R91; 08_sequencer.md R193, R212). -/

namespace Sys2Proof.Machine

/-- Whether every die has applied what a clock counts (R91, dev). -/
def State.devCovers (s : State) (c : Clock) : Bool := (List.range 8).all fun e => (s.clock e).covers c

/-- Whether the host has accepted every write that the strands of a die issued to host memory before an event (R91, sys). -/
def State.hostAccepted (s : State) (d before : Nat) : Bool :=
  s.seqs.strands.all fun p => !(dieOf p.1 = d) || p.2.ops.all fun o =>
    decide (before ≤ o.id) || (match o.kind with
      | .store pa .. => !isHostPa pa || o.result.isSome
      | .atomic _ pa .. => !isHostPa pa || o.result.isSome
      | _ => true)

/-- The wait of a fence, or of an atomic, at a scope once the earlier events have performed (R91), from the clock of
the die as it stood at the head of the list, and from its event number. -/
def State.scopeMet (s : State) (d : Nat) (scope : Scope) (c : Clock) (before : Nat) : Bool :=
  match scope with
  | .ctx | .elem | .region | .die => true
  | .dev => s.devCovers c
  | .sys => s.devCovers c && s.hostAccepted d before

/-- The state in which later events of the acting strand have an arc from its earlier reads and atomics (R83, KIND 1). -/
def State.acquireFence (s : State) : State :=
  let n := s.focus.strand
  let open_ := s.unperformed n
  s.setCur { s.cur with acqArcs := (s.cur.acqArcs.filter fun i => open_.any fun o => o.id = i) ++
    (open_.filter fun o => o.kind.isRead).map Op.id }

/-- `fence` (R212): a full or release fence stalls at issue until the condition of R91 holds; an acquire fence gives
its arcs and waits for nothing. -/
def execFence (q : Issue) (scope : Scope) (kind : FenceKind) (s : State) : Res :=
  match kind with
  | .acquire => .next (s.acquireFence.done q 4 id)
  | .full | .release =>
    if !(s.unperformed s.focus.strand).isEmpty then .next s.stall
    else if s.scopeMet s.curDie scope s.reqClock s.reqSerial then .next (s.done q 4 id)
    else .next (s.setProgress 1 0)

/-- Whether a class is within a count of `wait`, where 15 is no limit (R193). -/
def Strand.within (t : Strand) (c : OpClass) (n : BitVec 4) : Bool := n = 15 || decide (t.outstanding c ≤ n.toNat)

/-- Whether every class is within its count (R193). -/
def Strand.waitMet (t : Strand) (ld st cp tl bk : BitVec 4) : Bool :=
  t.within .ld ld && t.within .st st && t.within .cp cp && t.within .tl tl && t.within .bk bk

/-- `wait` (R193): stalls until each class is within its count. -/
def execWait (q : Issue) (ld st cp tl bk : BitVec 4) (s : State) : Res :=
  if s.cur.waitMet ld st cp tl bk then .next (s.done q 4 id) else .next s.stall

end Sys2Proof.Machine
end

