-- ==== Sys2Proof/Machine/EvFabric.lean ====
section
/-! DEFINITION. Events of the fabric: completions and waits of firings, updates of spread groups, routers, the row network,
gating, and what ports deliver (05_fabric.md; 07_element_storage.md; 16_queues.md R326). An event whose condition does not
hold changes nothing. -/

namespace Sys2Proof.Machine

/-! ### Firings in flight -/

/-- Whether a freeze spreads over an element's region. -/
def State.waving (s : State) (e : ElemId) : Bool := match s.regionOf e with | some g => g.wave.isSome | none => false

/-- An instruction that waits looked at again. -/
def State.lookAgain (s : State) (e : ElemId) (c : Nat) (f : InFlight) : State :=
  match f.instr, f.wait with
  | .wsplit half d _ tg, .pieces k => s.tryWsplit half d tg f k
  | .feld take d _ sz, .granule => s.tryFeld e c take d sz f
  | .ordt false d k tg, .performed => s.tryOrdt e c d k tg f
  | .pgive d tg, .permit => s.tryPgive d tg
  | .lgen lane d pr tg, .nest => s.tryLgen lane d pr tg
  | .drop true a _, .page => s.tryDrop a
  | .mrld at_, .latch => s.tryMrld at_.isSome f
  | .eenq t q _ tg, .port => s.tryEenq t q.toNat tg f
  | .edeq t q tg, .port => s.tryEdeq t q.toNat tg f
  | .ebar na q tg, .port => s.tryEbar na q.toNat tg
  | _, .stamp => if (s.clock e.die).covers f.clock then s.settle e c 2 id else s
  | _, .reply => s.trySite e c true
  | _, _ => s

/-- During a freeze wave a `wsplit` puts the token it holds into its entry and takes no other (R177). -/
def State.settlePieces (s : State) (e : ElemId) (c : Nat) (f : InFlight) : State :=
  (s.modElem e fun v => v.modPl fun p => (p.emitInto false c s.cycle f.o0).emitInto true c s.cycle f.o1).modFly e c
    fun g => { g with o0 := none, o1 := none }

/-- FIRING_COMPLETE (R103): a firing whose wait is over writes its results; one that waits is looked at again, unless its
region freezes (R177). -/
def execFiringComplete (e : ElemId) (ctx : Nat) (s : State) : Res :=
  match s.flying e ctx with
  | none => .next s
  | some f =>
    if s.cycle < f.due then .next s
    else
      let s1 := s.focusOn e ctx
      match f.wait with
      | .no => .next ((s1.modElem e fun v => v.modPl fun p => p.complete ctx s.cycle f).afterFiring e ctx f.instr)
      | .reply | .stamp => .next (s1.lookAgain e ctx f)
      | .pieces _ => .next (if s.waving e then s1.settlePieces e ctx f else s1.lookAgain e ctx f)
      | _ => .next (if s.waving e then s1 else s1.lookAgain e ctx f)

/-- SITE_FILL_ARRIVAL (R144): the wait of a site operation for its sectors is over. -/
def execSiteFillArrival (e : ElemId) (ctx : Nat) (s : State) : Res :=
  match s.flying e ctx with
  | none => .next s
  | some f => if f.wait = .fill && decide (f.due ≤ s.cycle) then .next ((s.focusOn e ctx).trySite e ctx true) else .next s

/-- CHAIN_TURN (R149): a site operation that waits for its turn is looked at. -/
def execChainTurn (e : ElemId) (ctx : Nat) (s : State) : Res :=
  match s.flying e ctx with
  | none => .next s
  | some f => if f.wait = .turn && !s.waving e then .next ((s.focusOn e ctx).trySite e ctx false) else .next s

/-! ### Updates of spread groups (R153) -/

/-- An update that is done leaves; the turn of its chain passes on with the last of its store (R149). -/
def State.endUpdate (s : State) (u : SpreadUpdate) : State :=
  let s1 := { s with fab := { s.fab with updates := s.fab.updates.erase u } }
  if u.chain = 0 || s1.turnHeld u.src u.chain then s1
  else s1.modElem u.src fun v => v.modPl fun p => p.moveTurn u.chain

/-- The element of a group's directory (R153). -/
def State.directoryOf (s : State) (region group : Nat) : Option ElemId :=
  (s.region region).bind fun g => (s.groupElems g group).head?

/-- The update that a directory receives next: due, and first from its sender to the element of its directory (R110). -/
def State.nextForward (s : State) (region : Nat) : Option SpreadUpdate :=
  let mine := s.fab.updates.filter fun u => u.region = region && u.stage = 0
  mine.find? fun u => decide (u.due ≤ s.cycle) &&
    (mine.find? fun v => v.src = u.src && s.directoryOf region v.group = s.directoryOf region u.group) = some u

/-- DIRECTORY_FORWARD (R153, item 3): a received update goes to every other holder of its sector. -/
def execDirectoryForward (region : Nat) (s : State) : Res :=
  match s.nextForward region with
  | none => .next s
  | some u =>
    let key := ((s.region region).map Region.key).getD 0
    let toward := (s.holdersOf key u.group u.va).filter (· != u.src)
    if toward.isEmpty then .next (s.endUpdate u)
    else .next { s with fab := { s.fab with updates := s.fab.updates.erase u ++
                   [{ u with stage := 1, toward := toward, due := s.cycle + 1 + Config.latency s.serial }] }, serial := s.serial + 1 }

/-- A copy with an update merged; its dirty bits stay (R153, item 3). -/
def Elem.merged (v : Elem) (u : SpreadUpdate) : Elem :=
  let mine (x : SiteSector) : Bool := x.va = u.va && v.pl.sites.any fun t => t.no = x.site && t.group = u.group
  { v with sectors := v.sectors.map fun x => if mine x then { x with data := mergeSector u.mask u.data x.data } else x }

/-- The forwarded updates that are due, each with the holders before which none of the same directory element stands (R110). -/
def State.toApply (s : State) (region : Nat) : List (SpreadUpdate × ElemId) :=
  let mine := s.fab.updates.filter fun u => u.region = region && u.stage = 1
  mine.flatMap fun u =>
    if s.cycle < u.due then []
    else (u.toward.filter fun e =>
      (mine.find? fun v => s.directoryOf region v.group = s.directoryOf region u.group && v.toward.contains e) = some u).map fun e => (u, e)

/-- SPREAD_UPDATE_APPLY (R86, R153): a member's copy merges a forwarded update; a member that has dropped the sector discards
it. Gated members wake first (R118). -/
def execSpreadUpdateApply (region : Nat) (s : State) : Res :=
  let xs := s.toApply region
  match xs.find? fun x => (s.elem x.2).gate = .awake with
  | none => .next (xs.foldl (fun s x => s.wake x.2) s)
  | some (u, e) =>
    let s1 := s.modElem e fun v => { v.merged u with idleFor := 0 }
    let u1 := { u with toward := u.toward.filter (· != e) }
    let s2 := { s1 with fab := { s1.fab with updates := s1.fab.updates.map fun x => if x = u then u1 else x } }
    .next (if u1.toward.isEmpty then s2.endUpdate u1 else s2)

/-! ### Routers (R107) and the row network (R110) -/

/-- ROUTER_FORWARD (R107). -/
def execRouterForward (buf : BufId) (s : State) : Res := .next (s.route buf)

/-- Whether a packet stands first in its class from its source to its destination. -/
def State.packetFirst (s : State) (p : RowPacket) : Bool :=
  (s.fab.packets.find? fun q => q.dst = p.dst && q.control = p.control && q.src = p.src) = some p

/-- Whether a queue of an element takes a token of the row network: the level it is for is active, the element is up, and
there is a free entry, or while a freeze spreads a free landing slot (R105, R287). The control class of an element that
calls is held in the network (R283). -/
def State.queueTakes (s : State) (p : RowPacket) (ch : Nat) : Bool :=
  let v := s.elem p.dst
  v.st = .running && s.levelsBelow p.dst = p.lvl &&
  !(p.control && (match s.regionOf p.dst with
    | some g => (match g.call with | some (e, _) => e = p.dst | none => false)
    | none => false)) &&
  v.gate = .awake &&
  (decide ((v.pl.inq ch).length < 4) || (s.waving p.dst && decide ((v.pl.landq ch).length < 2)))

/-- A token put into an input queue, or behind it into a landing slot. -/
def Plane4K.arrive (p : Plane4K) (ch : Nat) (t : Token) (cycle : Nat) : Plane4K :=
  if (p.inq ch).length < 4 then p.pushIn ch t cycle else p.setLand ch (p.landq ch ++ [⟨t, cycle⟩])

/-- Whether a packet can be delivered: due, first, its die covers its clock (R95), and its place takes it; a gated element is up
(R118). -/
def State.deliverable (s : State) (p : RowPacket) : Bool :=
  decide (p.due ≤ s.cycle) && s.packetFirst p &&
  (match p.clock with | some c => (s.clock p.dst.die).covers c | none => true) &&
  (match p.load with | .queue ch _ => s.queueTakes p ch | .partial_ _ _ => true | _ => (s.elem p.dst).gate = .awake)

/-- Bytes that a stream delivers into one sector of a site's buffer (R144, R180): they take their places but for those that are
dirty; a word is valid once all its bytes have come. -/
def State.streamInto (s : State) (g : Region) (e : ElemId) (t : Site) (va : Nat) (bs : List (Option Byte)) (k : Nat) : State :=
  let buf := (s.elem e).pl.bufSite t
  let s1 := s.evictFor g e t buf (64 * k)
  let lvl := s1.levelsBelow e
  let x := ((s1.elem e).sectorAt buf.no lvl (t.base + 64 * k)).getD (newSector t buf lvl (64 * k))
  let p := placeBytes 0 ((List.range 64).map fun j =>
    let a := t.base + 64 * k + j
    if va ≤ a then (bs[a - va]?).join else none)
  s1.modElem e fun v => v.putSector ({ x with got := x.got ||| x.dirty }.put (p.1 &&& ~~~x.dirty) p.2)

/-- The bytes of a packet of a stream from a virtual address on, by the sectors of the site's window. -/
def State.streamSector (s : State) (e : ElemId) (no : SiteNo) (va : Nat) (bs : List (Option Byte)) : State :=
  match s.regionOf e, (s.elem e).pl.site no with
  | some g, some t =>
    let ks := ((List.range bs.length).filter fun i => (bs[i]?).join.isSome && decide (t.base ≤ va + i)).map fun i => (va + i - t.base) / 64
    ks.eraseDups.foldl (fun s k => s.streamInto g e t va bs k) s
  | _, _ => s

/-- A packet delivered (R110): a token enters its queue; data enters scratch as an engine write (R87) or a site buffer. -/
def State.deliver (s : State) (p : RowPacket) : State :=
  let s1 := { s with fab := { s.fab with packets := s.fab.packets.erase p } }
  let s2 := match p.load with
    | .queue ch t => s1.modElem p.dst fun v => { v.modPl (fun q => q.arrive ch t s.cycle) with idleFor := 0 }
    | .scratch off t => s1.modElem p.dst fun v => { v.engineWrite off ((toBytes 32 t.data.toNat).map some) with idleFor := 0 }
    | .site no va bs => (s1.streamSector p.dst no va bs).modElem p.dst fun v => { v with idleFor := 0 }
    | .partial_ _ _ => s1
  match p.frees with
  | some c => s2.freeCtx p.dst c none
  | none => s2

/-- A packet for a gated element wakes it (R118). -/
def State.wakeFor (s : State) (p : RowPacket) : State :=
  match p.load with
  | .partial_ _ _ => s
  | _ => if p.due ≤ s.cycle then s.wake p.dst else s

/-- ROW_PACKET_DELIVERY (R110): the packet of a number, if it is an ordinary one. -/
def execRowPacketDelivery (die idx : Nat) (s : State) : Res :=
  match s.fab.packets[idx]? with
  | none => .next s
  | some p =>
    if p.dst.die != die || p.by_ != 0 then .next s
    else if s.deliverable p then .next (s.deliver p)
    else .next (s.wakeFor p)

/-! ### What ports deliver (R163, R164) -/

/-- A posted port operation taken off its element. -/
def State.unpost (s : State) (e : ElemId) (p : Posted) : State :=
  s.modElem e fun v => { v with posted := v.posted.erase p }

/-- The posted operation of some kinds that an element's port sends first. -/
def State.firstPost (s : State) (e : ElemId) (ok : PostKind → Bool) : Option Posted :=
  ((s.elem e).posted.find? fun p => ok p.kind).filter fun p => p.due ≤ s.cycle

/-- The first packet of a delivery kind for an element, delivered if it can be. -/
def State.deliverBy (s : State) (e : ElemId) (kind : Nat) : State :=
  match s.fab.packets.find? fun p => p.dst = e && p.by_ = kind with
  | none => s
  | some p => if s.deliverable p then s.deliver p else s.wakeFor p

/-- A status token of `eenq.t`: lane 0 is 1 if the element was committed, 0 if the queue was full (R163). -/
def statusToken (ok : Bool) (tag : BitVec 3) : Token := ⟨lanes fun l => if l = 0 && ok then 1 else 0, tag, false⟩

/-- A posted operation that its port sends: it waits for the path to its home and for the home to cover the clock of its request
(R94, R328), for what `ready` names, and for the line that the host holds (R241); then it commits. With no path left it fails
LINK_DOWN (R378). While it waits, packets of its delivery kind go on. -/
def State.postStep (s : State) (e : ElemId) (p : Posted) (kind : Nat) (ready : Bool) (commit : State → State) : State :=
  match s.reachPa e.die p.pa with
  | .lost => (s.unpost e p).levelFault e p.ctx p.lvl 0x17 0
  | .waits => s.deliverBy e kind
  | .open_ =>
    if !ready || !(s.clock (homeDie p.pa)).covers p.clock then s.deliverBy e kind
    else match s.ownedIn p.page p.pa 16 with
      | some line => (s.snoop line).deliverBy e kind
      | none => commit (s.unpost e p)

/-- The mark of a posted operation's accesses (R253). -/
def State.postMark (s : State) (e : ElemId) (p : Posted) : Mark := s.mark ((s.regionOf e).elim 0 Region.ctx) 63 false p.page

/-- A posted `eenq.t` at its home (R163, R335). -/
def State.commitPostEnq (e : ElemId) (p : Posted) (s : State) : State :=
  let r := s.enqStep ⟨.elem e p.ctx, p.pa, .producer, p.size, p.data, 0, p.tag, 0, p.lvl, s.postMark e p⟩ false
  let say (ok : Bool) (clock : Option Clock) : State :=
    r.1.sendRow e (p.pa % 64) false (.queue 2 (statusToken ok p.tag)) 1 none clock p.lvl
  match r.2 with
  | .ok _ _ clock => say true (some clock)
  | .full => say false none
  | .closed => r.1.levelFault e p.ctx p.lvl 0x0B 0
  | .corrupt det => r.1.levelFault e p.ctx p.lvl 0x0A det
  | _ => r.1

/-- EENQ_STATUS_DELIVERY (R163): a status token is delivered to i2; a posted enqueue commits. -/
def execEenqStatusDelivery (e : ElemId) (s : State) : Res :=
  match s.firstPost e fun k => k = .enq with
  | some p => .next (s.postStep e p 1 true (State.commitPostEnq e p))
  | none => .next (s.deliverBy e 1)

/-- A posted `edeq.t` at its home (R163): an empty queue answers with tag 7. -/
def State.commitPostDeq (e : ElemId) (p : Posted) (s : State) : State :=
  let r := s.deqStep ⟨.elem e p.ctx, p.pa, .consumer, p.size, [], 0, p.tag, 0, p.lvl, s.postMark e p⟩ false
  let say (t : Token) (clock : Option Clock) : State :=
    r.1.sendRow e (p.pa % 64) false (.queue 2 t) 2 none clock p.lvl
  match r.2 with
  | .ok _ bytes clock => say (tokenOf bytes p.tag) (some clock)
  | .empty => say ⟨0, 7, false⟩ none
  | .closed => r.1.levelFault e p.ctx p.lvl 0x0B 0
  | .corrupt det => r.1.levelFault e p.ctx p.lvl 0x0A det
  | _ => r.1

/-- EDEQ_DELIVERY (R163): a dequeued element is delivered to i2; a posted dequeue commits. -/
def execEdeqDelivery (e : ElemId) (s : State) : Res :=
  match s.firstPost e fun k => k = .deq with
  | some p => .next (s.postStep e p 2 true (State.commitPostDeq e p))
  | none => .next (s.deliverBy e 2)

/-- A posted `ebar` at its home (R164, R343): with a token, the port waits for the phase to complete. -/
def State.commitPostBar (e : ElemId) (p : Posted) (s : State) : State :=
  let b := s.bword (homeDie p.pa) p.pa
  let ph := BitVec.ofNat 32 b.phase
  let m := s.postMark e p
  let w : Parked := ⟨.elem e p.ctx, p.pa, .barrier, 0, [], ph, p.tag, ph.setWidth 64, p.lvl, m⟩
  let completes : Bool := b.sound p.pa && !b.poisoned && !(decide (b.arrived + 1 < b.count))
  let r := s.arrive (.elem e p.ctx) p.lvl p.pa m
  match r.2 with
  | .poisoned code => r.1.levelFault e p.ctx p.lvl 0x0C code
  | .perm => r.1.levelFault e p.ctx p.lvl 0x08 16
  | .phase _ clock =>
    if p.kind = .barNa then r.1
    else if completes then
      r.1.sendRow e (p.pa % 64) true (.queue 3 (tokenOf (toBytes 4 b.phase) p.tag)) 3 none (some clock) p.lvl
    else r.1.park w

/-- BAR_RELEASE_TOKEN (R164): a release token is delivered to i3; a posted arrival commits, at scope group or dev once every die
covers the clock of its request, as `fence.rel.dev` waits (R91, R338, R343). -/
def execBarReleaseToken (e : ElemId) (s : State) : Res :=
  match s.firstPost e fun k => k = .bar || k = .barNa with
  | some p =>
    let scope := (s.bword (homeDie p.pa) p.pa).scope
    .next (s.postStep e p 3 (!(scope = 1 || scope = 3) || s.devCovers p.clock) (State.commitPostBar e p))
  | none => .next (s.deliverBy e 3)

/-- Whether the region of a trigger context freezes, so that its parked `eenq` or `edeq` is cancelled (R326). -/
def State.cancels (s : State) : Party → Bool
  | .strand n =>
    let t := s.strand n
    t.sup && t.ae && !t.events.isEmpty && t.got.isNone
  | .elem e _ => s.waving e

/-- QUEUE_OP_CANCEL (R326): a parked operation is cancelled, for an asynchronous event of its strand or a freeze of its
element's region, with no effect; the release token of an `ebar` stays pending. -/
def execQueueOpCancel (p : Party) (s : State) : Res :=
  match s.ports.parked.find? fun w => w.party = p && !(w.side = .barrier && (match p with | .elem _ _ => true | _ => false)) with
  | none => .next s
  | some _ => if s.cancels p then .next (s.cancelOp p) else .next s

/-! ### Gating (R118) -/

/-- Whether the compute part of an element is idle in a cycle (R118). -/
def Elem.idle (v : Elem) : Bool :=
  (v.pl.ctxs.toList.all fun t => t.fly.isNone) && v.pl.ins.toList.all List.isEmpty && v.pl.land.toList.all List.isEmpty &&
  v.pl.outs.toList.all List.isEmpty && v.pl.mel.reload.isNone && v.pl.mel.part.isEmpty && v.pl.mel.rowq.isEmpty &&
  v.pl.mel.seam.isEmpty && v.pl.mel.fired.isEmpty && v.posted.isEmpty

/-- ELEMENT_CLOCK_GATE (R118): after 16 idle cycles. -/
def execElementClockGate (e : ElemId) (s : State) : Res :=
  let v := s.elem e
  if v.gate = .awake && decide (16 ≤ v.idleFor) && v.idle then .next (s.setElem e { v with gate := .clock }) else .next s

/-- ELEMENT_POWER_GATE (R118): after 4,096 idle cycles, or outside every configured region. -/
def execElementPowerGate (e : ElemId) (s : State) : Res :=
  let v := s.elem e
  let out := v.st = .unconfigured || v.st = .fenced
  if v.gate != .power && ((decide (4096 ≤ v.idleFor) && v.idle && v.gate = .clock) || out) then
    .next (s.setElem e { v with gate := .power })
  else .next s

/-- ELEMENT_WAKE (R118). -/
def execElementWake (e : ElemId) (s : State) : Res :=
  let v := s.elem e
  match v.gate with
  | .waking u => if u ≤ s.cycle then .next (s.setElem e { v with gate := .awake, idleFor := 0 }) else .next s
  | _ => .next s

end Sys2Proof.Machine
end

