-- ==== Sys2Proof/Machine/Probes.lean ====
section
/-! DEFINITION. The darning probe (24_faults_start.md R390, R391): waiting contexts, waiting edges, probes. -/

namespace Sys2Proof.Machine

/-! ### Waiting (R390) -/

/-- What a slot of the context in focus lacks to be ready: the queues without a token that it needs and the outputs without a
free entry; none when something else is missing. -/
def State.lacks (s : State) (trig op : Word) : Option (List Nat) :=
  match decodeElem op.toNat with
  | .error _ => none
  | .ok i =>
    let ins := (List.range 4).filter fun c => trig.getLsbD (6 + c) && (s.head (BitVec.ofNat 2 c)).isNone
    let tch := wfield trig 4 3
    let tagLess := trig.getLsbD 5 && (s.head (BitVec.ofNat 2 tch)).isNone && !ins.contains tch
    let tagBad := trig.getLsbD 5 && (match s.head (BitVec.ofNat 2 tch) with
      | some t => decide (t.tag ≠ trig.extractLsb' 0 3)
      | none => false)
    let outs := [false, true].filter fun o => dstNames (instrDst i) o && !decide (s.curElem.pl.outUsed o s.cycle < 2)
    let call := match i with | .eGcall _ => !(s.curElem.pl.inq 3).isEmpty | _ => false
    if !(wfield trig 26 26 = 1 && trig.getLsbD (28 + s.focus.ctx % 4)) || tagBad || call ||
        !guardHolds trig (guardLanes s.curCtx trig) then none
    else some (ins ++ (if tagLess then [tch] else []) ++ outs.map fun o => 4 + o.toNat)

/-- The queues on which a context waits in this cycle (R390): no slot of it is ready, and some valid slot lacks only that. -/
def State.waitsOn (s : State) (e : ElemId) (c : Nat) : List Nat :=
  let s1 := s.focusOn e c
  if !s.mayRun e || s1.curCtx.fly.isSome || s1.curCtx.stopped || s1.readySlot.isSome then []
  else (s1.curElem.pl.slots.filterMap fun x => match s1.lacks x.2.1 x.2.2 with
    | some [q] => some q
    | _ => none).eraseDups

/-- A context's waiting counts at the end of a cycle; cycles frozen or with an instruction in flight do not count. -/
def State.countWaits (s : State) (e : ElemId) (c : Nat) (t : TCtx) : TCtx :=
  if !s.mayRun e || t.fly.isSome then t
  else { t with waits := (s.waitsOn e c).map fun q => (q, lookupD t.waits q 0 + 1) }

/-- For how long a context of an element has waited on a queue: the longest of its contexts. -/
def State.waited (s : State) (e : ElemId) (q : Nat) : Nat :=
  (s.elem e).pl.ctxs.toList.foldl (fun a t => max a (lookupD t.waits q 0)) 0

/-- The probe threshold of an element's region. -/
def State.threshold (s : State) (e : ElemId) : Nat := ((s.regionOf e).map Region.probe).getD 0

/-- Whether a context sends a probe for a queue in this cycle: it has waited for a whole threshold. -/
def State.probeDue (s : State) (e : ElemId) (ctx queue : Nat) : Bool :=
  let n := lookupD ((s.elem e).pl.ctx ctx).waits queue 0
  n != 0 && s.threshold e != 0 && n % s.threshold e = 0

/-- PROBE_SEND (R390). -/
def execProbeSend (e : ElemId) (ctx queue : Nat) (s : State) : Res :=
  if !s.probeDue e ctx queue || (s.outer.probes.any fun p => p.e = e && p.ctx = ctx && p.queue = queue) then .next s
  else .next { s with outer := { s.outer with probes := s.outer.probes ++
    [⟨e, ctx, queue, (e, queue), [(e, queue, s.cycle)], s.cycle + 1⟩] } }

/-! ### Edges (R390) -/

/-- The element whose output a router's source code stands for, through the routers and hop registers of a plane that lie between; the
fuel bounds the routers passed. -/
def State.source (s : State) (pl : Plane) (e : ElemId) (code : Nat) : Nat → Option ElemId
  | 0 => none
  | n + 1 =>
    if code = 5 || code = 6 then some e
    else if code = 0 || 6 < code then none
    else match beyond e (code - 1) with
      | .elem b => if s.joined e b then s.source pl b ((s.elem b).pl.sel pl ((code + 1) % 4)) n else none
      | _ => none

/-- The elements whose inputs a router's source code feeds, through the routers and hop registers of a plane that lie between. -/
def State.sinks (s : State) (pl : Plane) (e : ElemId) (code : Nat) : Nat → List ElemId
  | 0 => []
  | n + 1 =>
    (if (s.elem e).pl.sel pl 4 = code then [e] else []) ++ ((s.elem e).pl.dirs pl code).flatMap fun d =>
      match beyond e d with
      | .elem b => if s.joined e b then s.sinks pl b (fromCode d) n else []
      | _ => []

/-- The elements that a waiting edge leads to: from an empty input to the element whose output feeds it, from a full output to
every element whose input it feeds; hem tiles and the row network lead nowhere. -/
def State.edges (s : State) (e : ElemId) (q : Nat) : List ElemId :=
  if q < 2 then
    let pl : Plane := if q = 0 then .a else .b
    (s.source pl e ((s.elem e).pl.sel pl 4) 5120).toList
  else if q < 4 then []
  else (s.sinks .a e (q + 1) 5120 ++ s.sinks .b e (q + 1) 5120).eraseDups

/-- Whether every element that a probe has passed still waits as it did. -/
def State.stillWait (s : State) (p : Probe) : Bool :=
  p.path.all fun x => decide (s.cycle ≤ s.waited x.1 x.2.1 + x.2.2 + 1)

/-- Where a probe goes next: each element that its edge leads to, with each queue on which a context there waits; it dies at an
element, or a queue of its own, lower than its origin and goes nowhere twice. -/
def State.probeNext (s : State) (p : Probe) : List (ElemId × Nat) :=
  (s.edges p.at_.1 p.at_.2).flatMap fun x =>
    if elemLt x p.e then []
    else ((List.range 6).filter fun q => s.waited x q != 0 && !(x = p.e && decide (q < p.queue)) &&
      !(p.path.drop 1).any (fun y => y.1 = x && y.2.1 = q)).map fun q => (x, q)

/-- DEADLOCK taken by the origin of a probe that has returned (R391): the queue, and the elements of the cycle. -/
def State.raiseDeadlock (s : State) (p : Probe) : State :=
  let n := (p.path.map fun x => x.1).eraseDups.length
  s.elemFault p.e p.ctx 0x0E (p.queue + min n 65535 * 65536) 0

/-- Whether a probe's next place closes its cycle: its origin, waiting on the queue for which it was sent. -/
def Probe.closes (p : Probe) (x : ElemId × Nat) : Bool := x.1 = p.e && x.2 = p.queue

/-- PROBE_RETURN (R390, R391): a probe takes its next edges; one that comes back to its origin raises DEADLOCK, but waits while a probe
of a lower queue of its element is on its way. -/
def execProbeReturn (idx : Nat) (s : State) : Res :=
  match s.outer.probes[idx]? with
  | none => .next s
  | some p =>
    if s.cycle < p.due then .next s
    else
      let s1 := { s with outer := { s.outer with probes := s.outer.probes.erase p } }
      if !s.stillWait p || (s.regionOf p.e).isNone then .next s1
      else
        let next := s.probeNext p
        if next.any p.closes then
          (if s1.outer.probes.any fun x => x.e = p.e && decide (x.queue < p.queue) then
             .next { s1 with outer := { s1.outer with probes := s1.outer.probes ++ [{ p with due := s.cycle + 1 }] } }
           else .next (s1.raiseDeadlock p))
        else
          let on := next.map fun x =>
            { p with at_ := x, path := p.path ++ [(x.1, x.2, s.cycle)], due := s.cycle + 1 }
          .next { s1 with outer := { s1.outer with probes := s1.outer.probes ++ on } }

end Sys2Proof.Machine
end

