-- ==== Sys2Proof/Machine/Agenda.lean ====
section
/-! DEFINITION. The order of turns (log 1): a cycle's agenda, and the tick that begins the next one. -/

namespace Sys2Proof.Machine

/-! ### The agenda of a cycle -/

/-- The dies. -/
def dieList : List Nat := List.range Config.dies

/-- The strands of a core in the order in which its scheduler considers them (R186): the one that issued last if its SW
was 0, then the rotation that begins after it. -/
def Core.order (k : Core) (c : Nat) : List Nat :=
  let rot := (List.range 4).map fun i => c * 4 + (k.last + 1 + i) % 4
  if k.lastSw then rot else (c * 4 + k.last % 4) :: rot

/-- The turns of the strands, core by core. -/
def State.strandTurns (s : State) : List Turn :=
  ((s.seqs.strands.map fun p => coreOf p.1).eraseDups).flatMap fun c => ((s.core c).order c).map Turn.strand

/-- Waits of strands that end, and parked operations that are cancelled (R230, R248, R326). -/
def State.strandEvents (s : State) : List Turn :=
  (s.ports.parked.map fun w => Turn.queueOpCancel w.party) ++
    s.seqs.strands.flatMap fun p => [Turn.idleWake p.1, .yieldTimeout p.1, .shootdownAck p.1]

/-- Steps of the ordering machine and of translation (R78 to R80, R244, R252). -/
def State.orderTurns (s : State) : List Turn :=
  (s.seqs.strands.flatMap fun p => p.2.ops.flatMap fun o =>
    [Turn.orderReadPerform p.1 o.id, .orderWritePerform p.1 o.id, .loadComplete p.1 o.id]) ++
  (dieList.flatMap fun e => dieList.filterMap fun d => if d = e then none else some (Turn.orderApplyPending e d)) ++
  (s.mem.wbs.map fun w => Turn.writebackAccept w.die w.pa) ++
  (s.seqs.walks.zipIdx.reverse.map fun w => Turn.walkComplete w.1.die w.2)

/-- Freezes and pre-emptions (R286, R287, R290, R308): before elements take their turns. -/
def State.freezeTurns (s : State) : List Turn :=
  (s.tasks.tasks.map fun t => Turn.preemptTimeout t.no) ++
    s.tasks.regions.flatMap fun g =>
      [Turn.freezeWave g.id, .pleatSpill g.id, .freezePoint g.id, .gridReturn g.id, .calleeBind g.id, .pleatRefill g.id,
       .taskFaultEnd g.id, .loadEnd g.id]

/-- Placing, binding and configuring (R267 to R278), and `gcall` of strands without a region (R294). -/
def State.configTurns (s : State) : List Turn :=
  dieList.map Turn.placerServe ++ [.calleeBind 0] ++
    s.tasks.regions.flatMap fun g => [Turn.bindCheck g.id, .configWordWrite g.id, .configEnd g.id]

/-- The buffers from which routers forward (R107): output queues, hop registers, stream slots and sweep ports. -/
def State.routerTurns (s : State) : List Turn :=
  (s.fab.elems.flatMap fun x =>
    [(BufId.out x.1 false), .out x.1 true, .hop x.1 .a, .hop x.1 .b].map Turn.routerForward) ++
  (s.engs.cmds.filterMap fun c => c.strm.map fun st => Turn.routerForward (.hem st.slot)) ++
  (s.engs.sweeps.map fun w => Turn.routerForward (.hem ⟨w.die, w.port.2, w.port.1, 8⟩))

/-- Elements in ascending order. -/
def State.elemList (s : State) : List ElemId :=
  sortBy (fun a b => !elemLt b a) (s.fab.elems.map Prod.fst)

/-- Elements' own turns: what an M-element does (R111 to R116), or what a T-element waits for and fires (R101 to R103). -/
def State.elementTurns (s : State) : List Turn :=
  s.elemList.flatMap fun e =>
    [Turn.elementWake e, .weightLatch e] ++
    (if isM e then [.rowAssembly e, .mrowFire e, .mrowFire e, .mrowOutput e]
     else (List.range 4).flatMap (fun c => [Turn.siteFillArrival e c, .chainTurn e c]) ++ [.element e])

/-- What completes at the end of the cycle (R103), and gating (R118). -/
def State.endTurns (s : State) : List Turn :=
  (s.elemList.flatMap fun e => (if isM e then [] else (List.range 4).map (Turn.firingComplete e)) ++
    [.elementClockGate e, .elementPowerGate e])

/-- Deliveries to elements: updates (R153), the row network (R110), what ports answer (R163, R164), partials (R359). -/
def State.deliveryTurns (s : State) : List Turn :=
  (s.tasks.regions.flatMap fun g => [Turn.directoryForward g.id, .spreadUpdateApply g.id]) ++
  (s.fab.packets.zipIdx.reverse.flatMap fun p =>
    if p.1.by_ = 4 then [Turn.partialArrival p.1.dst.die p.2] else [.rowPacketDelivery p.1.dst.die p.2]) ++
  s.elemList.flatMap fun e => [Turn.eenqStatusDelivery e, .edeqDelivery e, .barReleaseToken e]

/-- Engines (R88, R179, R216, R256 to R259) and sweeps (R357 to R363). -/
def State.engineTurns (s : State) : List Turn :=
  (s.engs.cmds.filterMap fun c => match c.kind with
    | .strm _ _ _ => some (Turn.streamTokenTransfer c.id)
    | .copy _ _ _ => some (.copySector c.id)
    | .fill _ _ _ => some (.copySector c.id)
    | .bankop _ _ _ _ _ => some (.bankSector c.id)
    | .rowcp _ _ _ => some (.rowTransfer c.id)
    | .rowzero _ _ => some (.rowTransfer c.id)
    | _ => none) ++
  (if (s.engs.cmds.any fun c => match c.kind with | .sweep _ _ => true | _ => false) then
    dieList.flatMap fun d => ((List.range 64).flatMap fun u => [Turn.pageSend d u, .catchupFetch d u]) ++ [.endHeaderSend d]
   else []) ++
  (s.engs.cmds.map fun c => Turn.handleComplete c.id)

/-- Tasks (R301 to R309): pin breaks, then single tasks, then groups. -/
def State.taskTurns (s : State) : List Turn :=
  dieList.map Turn.launchAdmit ++ ((s.tasks.breaks.map PinBreakDue.region).eraseDups.map Turn.pinBreak) ++
    (s.tasks.tasks.flatMap fun t => [Turn.taskReady t.no, .agingTick t.no]) ++ dieList.map Turn.taskBind ++
    (s.tasks.groups.map fun g => Turn.groupBind g.id) ++
    (((s.tasks.tasks.map Task.no) ++ s.ctxs.posts.map Completion.task).eraseDups.map Turn.retireComplete)

/-- Records, contexts, packets, probes, wring tests and the start (R226, R227, R383, R390 to R395). -/
def State.otherTurns (s : State) : List Turn :=
  ((s.ctxs.records.map fun r => r.ctx.toNat).eraseDups.map Turn.faultRecordPost) ++ s.ctxs.dying.map Turn.contextRetire ++
    dieList.map Turn.packetArrival ++
    (s.elemList.flatMap fun e => (List.range 4).flatMap fun c => ((List.range 6).filter (s.probeDue e c)).map (Turn.probeSend e c)) ++
    (s.outer.probes.zipIdx.reverse.map fun p => Turn.probeReturn p.2) ++
    (s.outer.wrings.zipIdx.map fun w => Turn.wringTest w.2) ++ [.startRunning]

/-- The agenda of a cycle (log 1). -/
def State.cycleAgenda (s : State) : List Turn :=
  s.strandEvents ++ s.strandTurns ++ s.freezeTurns ++ s.configTurns ++ s.routerTurns ++ s.deliveryTurns ++ s.elementTurns ++
    s.engineTurns ++ s.orderTurns ++ s.taskTurns ++ s.otherTurns ++ s.endTurns

/-! ### The end of a cycle -/

/-- An element at the end of a cycle: its idle time while it is RUNNING (R118) and the waiting counts of its contexts (R390). -/
def State.endElem (s : State) (x : ElemId × Elem) : ElemId × Elem :=
  let count (c : Nat) (p : Plane4K) : Plane4K := p.setCtx c (s.countWaits x.1 c (p.ctx c))
  let v := { x.2 with idleFor := if x.2.st = .running && x.2.idle then x.2.idleFor + 1 else 0 }
  (x.1, if isM x.1 || v.st != .running then v else v.modPl fun p => count 0 (count 1 (count 2 (count 3 p))))

/-- The end of a cycle: the fixed-latency results due are written (R187), idle time and waits are counted, results of walks that no
one has taken in two cycles are dropped, and the next cycle's agenda is made. -/
def State.tick (s : State) : State :=
  let s1 := { s with seqs := { s.seqs with strands := s.seqs.strands.map fun (p : Nat × Strand) => (p.1, p.2.commit s.cycle),
                                              answers := s.seqs.answers.filter fun x => decide (s.cycle ≤ x.2.2 + 2) },
                     fab := { s.fab with elems := s.fab.elems.map s.endElem }, cycle := s.cycle + 1 }
  { s1 with agenda := s1.cycleAgenda }

end Sys2Proof.Machine
end

