-- ==== Sys2Proof/Machine/Load.lean ====
section
/-! DEFINITION. How one instruction is put where the machine runs it next: a sequencer word where strand 0 fetches,
an element operation word in slot 0 of an element (log 16). -/

namespace Sys2Proof.Machine

/-- The translation under which strand 0 fetches: page 0 in frame 0 of die 0, user, executable, readable, writable. -/
def loadPage (asid : BitVec 16) : TlbEntry :=
  ⟨asid, 0, 65536, 0x3F, 0, 0, []⟩

/-- A sequencer instruction of two words at virtual address 0, which strand 0 fetches in the next step. -/
def State.placeSeq (s : State) (w0 w1 : Nat) : State :=
  let t := s.strand 0
  let s1 := s.setStrand 0 { t with pc := 0, run := .running, readyAt := s.cycle, yieldTo := none, progress := none,
                                   got := none, walked := none, late := none, events := [] }
  let im := s1.image 0
  let s2 := s1.setImage 0 { im with mem := writeN im.mem 0 (toBytes 4 w0 ++ toBytes 4 w1) }
  let k := s2.core 0
  let s3 := s2.setCore 0 { k with used := 0, i1 := k.i1.filter fun l => l.pa != 0 }
  let quiet (w : Walk) : Walk := { w with waiters := w.waiters.filter fun x => x.1 != .strand 0 }
  { s3 with seqs := { s3.seqs with tlbs := (.core 0 0, loadPage t.asid) :: s3.seqs.tlbs,
                                   walks := s3.seqs.walks.map quiet, queued := s3.seqs.queued.map quiet },
            ctxs := { s3.ctxs with records := s3.ctxs.records.filter fun r => r.master != (0, 0, 0),
                                   keys := (0, 0) :: s3.ctxs.keys },
            agenda := [.strand 0] }

/-- The element in which an operation word is placed. -/
def loadElem : ElemId := ⟨0, 0, 2⟩

/-- An element operation word in slot 0 of an element, served by context 0 in every lane, with a zero token at the head
of each input channel; the element's turn is next. -/
def State.placeElem (s : State) (w : Nat) : State :=
  let cycle := max 1 s.cycle
  let tok : Token := ⟨0, 0, false⟩
  let v := s.elem loadElem
  let p := v.pl
  let pl : Plane4K :=
    { p with slots := [(0, 0x140003C0, BitVec.ofNat 32 w)], arb := 0,
             ins := Vector.replicate 4 [⟨tok, 0⟩], outs := Vector.replicate 2 [], freed := Vector.replicate 2 0,
             ctxs := Vector.replicate 4 TCtx.reset }
  let s1 := s.setElem loadElem { v with st := .running, gate := .awake, pl := pl }
  { s1 with cycle := cycle, agenda := [.element loadElem] }

/-- The instruction whose bits are w, numbered as the opcode table numbers them, placed to run in the next step: as the
decoder of the table's words chooses between the two kinds of word (log 4). -/
def State.placeWord (s : State) (nbits w : Nat) : State :=
  let w0 := w % 2 ^ 32
  let w1 := if nbits ≤ 32 then 0 else w / 2 ^ 32 % 2 ^ 32
  let seq := (decodeSeq w0 w1).toOption.isSome
  let elem := (decodeElem w0).toOption.isSome
  if nbits > 32 || w0 < 2 ^ 29 then (if seq || !elem then s.placeSeq w0 w1 else s.placeElem w0)
  else if elem then s.placeElem w0 else s.placeSeq w0 w1

end Sys2Proof.Machine
end

