-- ==== Sys2Proof/Machine/ElemCvt.lean ====
section
/-! DEFINITION. The conversions of elements (06_element_compute.md R135, R136). -/

namespace Sys2Proof.Machine

/-- The input of a conversion (R136): with `.sc`, a × 2^(127 − s) exactly, NaN for the scale byte 0xFF. -/
def cvtIn (sc : Bool) (a b : Word) : Fp :=
  if !sc then f32 a
  else if b.toNat % 256 = 255 then .nan
  else (f32 a).scale (127 - (b.toNat % 256 : Int))

/-- A narrowing conversion in a lane (R37, R38): MOD bit 0 is `.inf`, bit 1 `.sc`. -/
def valNarrow (t : Fmt) (md : BitVec 2) (a b _ : Word) : Word :=
  BitVec.ofNat 32 (t.narrow (md.getLsbD 0) (cvtIn (md.getLsbD 1) a b))

/-- A widening conversion in a lane (R39): part k of n bits of the source. -/
def valWiden (t : Fmt) (n : Nat) (k : BitVec 2) (a _ _ : Word) : Word :=
  rneF32 (t.value ((a.toNat >>> (n * k.toNat)) % 2 ^ n))

/-- `cvt.f32.i32` in a lane (R39). -/
def valCvtF32I32 (a _ _ : Word) : Word := rneF32 (Fp.ofInt a.toInt 0)
/-- `cvt.i32.f32` in a lane (R39). -/
def valCvtI32F32 (a _ _ : Word) : Word := BitVec.ofInt 32 (toIntSat 32 (f32 a))
/-- `cvt.i8.f32` in a lane (R39): sign-extended. -/
def valCvtI8F32 (md : BitVec 2) (a b _ : Word) : Word := BitVec.ofInt 32 (toIntSat 8 (cvtIn (md.getLsbD 1) a b))
/-- `cvt.f32.i8` in a lane (R39). -/
def valCvtF32I8 (md : BitVec 2) (a _ _ : Word) : Word := rneF32 (Fp.ofInt (byteInt true a md.toNat) 0)
/-- `sclx` in a lane (R40). -/
def valSclx (a _ _ : Word) : Word := BitVec.ofNat 32 (sclxByte a)

/-- `cvtF32I32` (R135). -/
def execCvtF32I32 (f : EA) (s : State) : Res := s.ea (.cvtF32I32 f) 2 f valCvtF32I32 noCarry

/-- `cvtI32F32` (R135). -/
def execCvtI32F32 (f : EA) (s : State) : Res := s.ea (.cvtI32F32 f) 2 f valCvtI32F32 noCarry

/-- `cvtBf16F32` (R135). -/
def execCvtBf16F32 (f : EA) (s : State) : Res := s.ea (.cvtBf16F32 f) 2 f (valNarrow fmtBf16 f.md) noCarry

/-- `cvtF32Bf16` (R135). -/
def execCvtF32Bf16 (f : EA) (s : State) : Res := s.ea (.cvtF32Bf16 f) 2 f (valWiden fmtBf16 16 f.md) noCarry

/-- `cvtE4m3F32` (R135). -/
def execCvtE4m3F32 (f : EA) (s : State) : Res := s.ea (.cvtE4m3F32 f) 2 f (valNarrow fmtE4m3 f.md) noCarry

/-- `cvtE5m2F32` (R135). -/
def execCvtE5m2F32 (f : EA) (s : State) : Res := s.ea (.cvtE5m2F32 f) 2 f (valNarrow fmtE5m2 f.md) noCarry

/-- `cvtE2m1F32` (R135). -/
def execCvtE2m1F32 (f : EA) (s : State) : Res := s.ea (.cvtE2m1F32 f) 2 f (valNarrow fmtE2m1 f.md) noCarry

/-- `cvtF32E4m3` (R135). -/
def execCvtF32E4m3 (f : EA) (s : State) : Res := s.ea (.cvtF32E4m3 f) 2 f (valWiden fmtE4m3 8 f.md) noCarry

/-- `cvtF32E5m2` (R135). -/
def execCvtF32E5m2 (f : EA) (s : State) : Res := s.ea (.cvtF32E5m2 f) 2 f (valWiden fmtE5m2 8 f.md) noCarry

/-- `cvtF32E2m1` (R135). -/
def execCvtF32E2m1 (f : EA) (s : State) : Res := s.ea (.cvtF32E2m1 f) 2 f (valWiden fmtE2m1 4 f.md) noCarry

/-- `cvtI8F32` (R135). -/
def execCvtI8F32 (f : EA) (s : State) : Res := s.ea (.cvtI8F32 f) 2 f (valCvtI8F32 f.md) noCarry

/-- `cvtF32I8` (R135). -/
def execCvtF32I8 (f : EA) (s : State) : Res := s.ea (.cvtF32I8 f) 2 f (valCvtF32I8 f.md) noCarry

/-- `sclx` (R135). -/
def execSclx (f : EA) (s : State) : Res := s.ea (.sclx f) 2 f valSclx noCarry

/-- `cvtF16F32` (R135). -/
def execCvtF16F32 (f : EA) (s : State) : Res := s.ea (.cvtF16F32 f) 2 f (valNarrow fmtF16 f.md) noCarry

/-- `cvtF32F16` (R135). -/
def execCvtF32F16 (f : EA) (s : State) : Res := s.ea (.cvtF32F16 f) 2 f (valWiden fmtF16 16 f.md) noCarry

end Sys2Proof.Machine
end

