-- ==== Sys2Proof/Machine/ElemFloat.lean ====
section
/-! DEFINITION. The floating-point and compare instructions of elements (06_element_compute.md R130 to R133). -/

namespace Sys2Proof.Machine

/-- The canonical NaN for a NaN, else the word changed (R130). -/
def nanElse (a v : Word) : Word := if isNanF32 a then nanF32 else v

/-- The value of `fadd` in a lane (R130). -/
def valFadd (a b _ : Word) : Word := addF32 a b

/-- `fadd` (R130). -/
def execFadd (f : EA) (s : State) : Res := s.ea (.fadd f) 4 f valFadd noCarry

/-- The value of `fsub` in a lane (R130). -/
def valFsub (a b _ : Word) : Word := subF32 a b

/-- `fsub` (R130). -/
def execFsub (f : EA) (s : State) : Res := s.ea (.fsub f) 4 f valFsub noCarry

/-- The value of `fmul` in a lane (R130). -/
def valFmul (a b _ : Word) : Word := mulF32 a b

/-- `fmul` (R130). -/
def execFmul (f : EA) (s : State) : Res := s.ea (.fmul f) 4 f valFmul noCarry

/-- The value of `ffma` in a lane (R130). -/
def valFfma (a b d : Word) : Word := fmaF32 a b d

/-- `ffma` (R130). -/
def execFfma (f : EA) (s : State) : Res := s.ea (.ffma f) 4 f valFfma noCarry

/-- The value of `fmin` in a lane (R130). -/
def valFmin (a b _ : Word) : Word := fminF32 a b

/-- `fmin` (R130). -/
def execFmin (f : EA) (s : State) : Res := s.ea (.fmin f) 4 f valFmin noCarry

/-- The value of `fmax` in a lane (R130). -/
def valFmax (a b _ : Word) : Word := fmaxF32 a b

/-- `fmax` (R130). -/
def execFmax (f : EA) (s : State) : Res := s.ea (.fmax f) 4 f valFmax noCarry

/-- The value of `fabs` in a lane (R130). -/
def valFabs (a _ _ : Word) : Word := nanElse a (a &&& 0x7FFFFFFF)

/-- `fabs` (R130). -/
def execFabs (f : EA) (s : State) : Res := s.ea (.fabs f) 4 f valFabs noCarry

/-- The value of `fneg` in a lane (R130). -/
def valFneg (a _ _ : Word) : Word := nanElse a (a ^^^ 0x80000000)

/-- `fneg` (R130). -/
def execFneg (f : EA) (s : State) : Res := s.ea (.fneg f) 4 f valFneg noCarry

/-- The value of `bfadd2` in a lane (R131). -/
def valBfadd2 (a b d : Word) : Word := packedAdd fmtBf16 a b d

/-- `bfadd2` (R131). -/
def execBfadd2 (f : EA) (s : State) : Res := s.ea (.bfadd2 f) 4 f valBfadd2 noCarry

/-- The value of `bfmul2` in a lane (R131). -/
def valBfmul2 (a b d : Word) : Word := packedMul fmtBf16 a b d

/-- `bfmul2` (R131). -/
def execBfmul2 (f : EA) (s : State) : Res := s.ea (.bfmul2 f) 4 f valBfmul2 noCarry

/-- The value of `bffma2` in a lane (R131). -/
def valBffma2 (a b d : Word) : Word := packedFma fmtBf16 a b d

/-- `bffma2` (R131). -/
def execBffma2 (f : EA) (s : State) : Res := s.ea (.bffma2 f) 4 f valBffma2 noCarry

/-- The value of `bfdot2` in a lane (R131). -/
def valBfdot2 (a b d : Word) : Word := bfdot2F32 a b d

/-- `bfdot2` (R131). -/
def execBfdot2 (f : EA) (s : State) : Res := s.ea (.bfdot2 f) 4 f valBfdot2 noCarry

/-- The value of `hadd2` in a lane (R131). -/
def valHadd2 (a b d : Word) : Word := packedAdd fmtF16 a b d

/-- `hadd2` (R131). -/
def execHadd2 (f : EA) (s : State) : Res := s.ea (.hadd2 f) 4 f valHadd2 noCarry

/-- The value of `hmul2` in a lane (R131). -/
def valHmul2 (a b d : Word) : Word := packedMul fmtF16 a b d

/-- `hmul2` (R131). -/
def execHmul2 (f : EA) (s : State) : Res := s.ea (.hmul2 f) 4 f valHmul2 noCarry

/-- The value of `hfma2` in a lane (R131). -/
def valHfma2 (a b d : Word) : Word := packedFma fmtF16 a b d

/-- `hfma2` (R131). -/
def execHfma2 (f : EA) (s : State) : Res := s.ea (.hfma2 f) 4 f valHfma2 noCarry

/-- The value of `fscale` in a lane (R132): a × 2^k, rounded once. Beyond ±1,000 every k gives the infinity or the zero that
±1,000 gives. -/
def valFscale (md : BitVec 2) (a b _ : Word) : Word :=
  if md = 1 && b.toNat % 256 = 255 then nanF32
  else
    let k : Int := if md = 1 then (b.toNat % 256 : Int) - 127 else b.toInt
    rneF32 ((f32 a).scale (max (-1000) (min 1000 k)))

/-- `fscale` (R132). -/
def execFscale (f : EA) (s : State) : Res := s.ea (.fscale f) 4 f (valFscale f.md) noCarry

/-- 1 or 0. -/
def flag32 (b : Bool) : Word := if b then 1 else 0

/-- The condition of `icmp` (R133). -/
def icmpHolds (md : BitVec 2) (a b : Word) : Bool :=
  match md.toNat with
  | 0 => a = b
  | 1 => a != b
  | 2 => decide (a.toInt < b.toInt)
  | _ => decide (a.toNat < b.toNat)

/-- The condition of `fcmp` (R133). -/
def fcmpHolds (md : BitVec 2) (a b : Word) : Bool :=
  let c := (f32 a).cmp (f32 b)
  match md.toNat with
  | 0 => c = some .eq
  | 1 => c = some .lt
  | 2 => c = some .lt || c = some .eq
  | _ => c != some .eq

/-- The value of `icmp` in a lane (R133). -/
def valIcmp (md : BitVec 2) (a b _ : Word) : Word := flag32 (icmpHolds md a b)

/-- The value of `fcmp` in a lane (R133). -/
def valFcmp (md : BitVec 2) (a b _ : Word) : Word := flag32 (fcmpHolds md a b)

/-- `icmp` (R133). -/
def execIcmp (f : EA) (s : State) : Res := s.ea (.icmp f) 2 f (valIcmp f.md) noCarry

/-- `fcmp` (R133); the carry is the unordered flag. -/
def execFcmp (f : EA) (s : State) : Res := s.ea (.fcmp f) 2 f (valFcmp f.md) unordered

end Sys2Proof.Machine
end

