-- ==== Sys2Proof/Machine/ElemLane.lean ====
section
/-! DEFINITION. The lane operations of elements (06_element_compute.md R140, R141). -/

namespace Sys2Proof.Machine

/-- The combine of `lred` and `lscan` (R140). -/
def laneCombine (md : BitVec 2) (x y : Word) : Word :=
  match md.toNat with
  | 0 => x + y
  | 1 => addF32 x y
  | 2 => fmaxF32 x y
  | _ => if x.toInt ≤ y.toInt then y else x

/-- A node of the tree of R140: a node with one participating child passes its value on. -/
def laneNode (md : BitVec 2) : Option Word → Option Word → Option Word
  | some x, some y => some (laneCombine md x y)
  | some x, none => some x
  | none, y => y

/-- Lane l if it takes part. -/
def lanePart (m : BitVec 8) (v : Data256) (l : Nat) : Option Word := if m.getLsbD l then some (laneOf v l) else none

/-- The root of the tree of `lred` (R140). -/
def lredRoot (md : BitVec 2) (m : BitVec 8) (v : Data256) : Word :=
  let p := lanePart m v
  let n := laneNode md
  (n (n (n (p 0) (p 1)) (n (p 2) (p 3))) (n (n (p 4) (p 5)) (n (p 6) (p 7)))).getD 0

/-- Lane l of `lscan` (R140): the participating lanes up to l, in ascending order. -/
def lscanLane (md : BitVec 2) (m : BitVec 8) (v : Data256) (l : Nat) : Word :=
  ((List.range (l + 1)).foldl (fun acc k => laneNode md acc (lanePart m v k)) none).getD 0

/-- A lane operation of latency 3 with its result (R126). -/
def State.laneOp (s : State) (i : Instr) (f : EA) (r : Data256) : Res :=
  .next (s.fireCommon i 3 f.d f.a f.b f.tg (predWrites f.pd f.pm r 0 s.focus.lanes) r)

/-- `lred` (R140). -/
def execLred (f : EA) (s : State) : Res :=
  let root := lredRoot f.md s.focus.lanes (s.src f.a)
  s.laneOp (.lred f) f (lanes fun _ => root)

/-- `lscan` (R140). -/
def execLscan (f : EA) (s : State) : Res :=
  let a := s.src f.a
  s.laneOp (.lscan f) f (lanes (lscanLane f.md s.focus.lanes a))

/-- The index in the low three bits of a lane (R141). -/
def laneIndex (v : Data256) (l : Nat) : Nat := (laneOf v l).toNat % 8

/-- `lperm` (R141). -/
def execLperm (f : EA) (s : State) : Res :=
  let a := s.src f.a
  let b := s.src f.b
  s.laneOp (.lperm f) f (lanes fun l => laneOf a (laneIndex b l))

/-- `lbcast` (R141). -/
def execLbcast (f : EA) (s : State) : Res :=
  let a := s.src f.a
  let b := s.src f.b
  s.laneOp (.lbcast f) f (lanes fun _ => laneOf a (laneIndex b 0))

/-- Lane l of `lshift` by n lanes (R141). -/
def lshiftLane (md : BitVec 2) (a : Data256) (n l : Nat) : Word :=
  match md.toNat with
  | 0 => if l + n ≤ 7 then laneOf a (l + n) else 0
  | 1 => if n ≤ l then laneOf a (l - n) else 0
  | 2 => laneOf a ((l + n) % 8)
  | _ => laneOf a ((l + 8 - n) % 8)

/-- `lshift` (R141). -/
def execLshift (f : EA) (s : State) : Res :=
  let a := s.src f.a
  let b := s.src f.b
  s.laneOp (.lshift f) f (lanes fun l => lshiftLane f.md a (laneIndex b 0) l)

end Sys2Proof.Machine
end

