-- ==== Sys2Proof/Machine/ElemPred.lean ====
section
/-! DEFINITION. The predicate instructions of elements (06_element_compute.md R134). -/

namespace Sys2Proof.Machine

/-- A predicate instruction (R134): p[PD] takes v in the lanes that execute. -/
def State.pset (s : State) (i : Instr) (pd : PReg) (v : BitVec 8) : Res :=
  .next (s.fireCommon i 2 .none .zero .zero 0 [(pd, v, s.focus.lanes)] 0)

/-- A predicate, inverted or not. -/
def State.predIn (s : State) (n : PReg) (inv : Bool) : BitVec 8 :=
  if inv then ~~~(s.curCtx.pred n) else s.curCtx.pred n

/-- `pset` (R134). -/
def execPset (pd : PReg) (v : Bool) (s : State) : Res := s.pset (.pset pd v) pd (if v then 0xFF else 0)

/-- `pand` (R134). -/
def execPand (pd pa pb : PReg) (na nb : Bool) (s : State) : Res :=
  s.pset (.pand pd pa pb na nb) pd (s.predIn pa na &&& s.predIn pb nb)

/-- `por` (R134). -/
def execPor (pd pa pb : PReg) (na nb : Bool) (s : State) : Res :=
  s.pset (.por pd pa pb na nb) pd (s.predIn pa na ||| s.predIn pb nb)

/-- `pxor` (R134). -/
def execPxor (pd pa pb : PReg) (na nb : Bool) (s : State) : Res :=
  s.pset (.pxor pd pa pb na nb) pd (s.predIn pa na ^^^ s.predIn pb nb)

/-- `pnot` (R134). -/
def execPnot (pd pa : PReg) (s : State) : Res := s.pset (.pnot pd pa) pd (s.predIn pa true)

/-- The value of `pmov` (R134): each lane, or the OR or the AND of pA over the lanes that execute. -/
def pmovValue (mode : PMovMode) (p m : BitVec 8) : BitVec 8 :=
  match mode with
  | .each => p
  | .any => if p &&& m != 0 then 0xFF else 0
  | .all => if p &&& m = m then 0xFF else 0

/-- `pmov` (R134). -/
def execPmov (pd pa : PReg) (mode : PMovMode) (s : State) : Res :=
  s.pset (.pmov pd pa mode) pd (pmovValue mode (s.curCtx.pred pa) s.focus.lanes)

end Sys2Proof.Machine
end

