-- ==== Sys2Proof/Machine/ElemSpecial.lean ====
section
/-! DEFINITION. The special functions and the row statistics of elements (06_element_compute.md R137 to R139). -/

namespace Sys2Proof.Machine

/-- The value of `exp2` in a lane (R137). -/
def valExp2 (a _ _ : Word) : Word := exp2F32 a

/-- `exp2` (R137). -/
def execExp2 (f : EA) (s : State) : Res := s.ea (.exp2 f) 8 f valExp2 noCarry

/-- The value of `log2` in a lane (R137). -/
def valLog2 (a _ _ : Word) : Word := log2F32 a

/-- `log2` (R137). -/
def execLog2 (f : EA) (s : State) : Res := s.ea (.log2 f) 8 f valLog2 noCarry

/-- The value of `rcp` in a lane (R137). -/
def valRcp (a _ _ : Word) : Word := rcpF32 a

/-- `rcp` (R137). -/
def execRcp (f : EA) (s : State) : Res := s.ea (.rcp f) 8 f valRcp noCarry

/-- The value of `rsqrt` in a lane (R137). -/
def valRsqrt (a _ _ : Word) : Word := rsqrtF32 a

/-- `rsqrt` (R137). -/
def execRsqrt (f : EA) (s : State) : Res := s.ea (.rsqrt f) 8 f valRsqrt noCarry

/-- The value of `sqrt` in a lane (R137). -/
def valSqrt (a _ _ : Word) : Word := sqrtF32 a

/-- `sqrt` (R137). -/
def execSqrt (f : EA) (s : State) : Res := s.ea (.sqrt f) 8 f valSqrt noCarry

/-- The registers of a group from its first (R138, R139). -/
def groupReg (d : XReg) (k : Nat) : XReg := d + BitVec.ofNat 4 k

/-- A firing of latency 12 that writes a group of four registers in the lanes that execute; the PM test applies to the
first (R138, R139). -/
def State.fireGroup (s : State) (i : Instr) (d : XReg) (a : Src) (pd : PReg) (pm : PUpd) (r : Nat → Data256) : Res :=
  if s.mayFire .none [a] then
    .next (s.fire .none [a] { s.flyOf i 12 a .zero with
      regs := (List.range 4).map fun k => (groupReg d k, r k, s.focus.lanes),
      preds := predWrites pd pm (r 0) 0 s.focus.lanes })
  else .next s

/-- The new m, l, c and p of `rstat` in a lane (R138). -/
def rstatLane (m l x : Word) : Word × Word × Word × Word :=
  let m' := fmaxF32 m x
  if m' = 0xFF800000 then (m', 0, 0, 0)
  else
    let c := exp2F32 (subF32 m m')
    let p := exp2F32 (subF32 x m')
    (m', fmaF32 l c p, c, p)

/-- Component k of a quadruple. -/
def quad (k : Nat) (q : Word × Word × Word × Word) : Word :=
  match k with
  | 0 => q.1
  | 1 => q.2.1
  | 2 => q.2.2.1
  | _ => q.2.2.2

/-- `rstat` (R138). -/
def execRstat (f : EA) (s : State) : Res :=
  match dstReg f.d with
  | none => .next s
  | some d =>
    let x := s.src f.a
    let m := s.curCtx.reg d
    let l := s.curCtx.reg (groupReg d 1)
    s.fireGroup (.rstat f) d f.a f.pd f.pm fun k => lanes fun j => quad k (rstatLane (laneOf m j) (laneOf l j) (laneOf x j))

/-- `rmerge` (R139): partial 1 is x[D], x[D+1], partial 2 x[A], x[A+1]. -/
def execRmerge (d a : XReg) (pd : PReg) (pm : PUpd) (s : State) : Res :=
  let t := s.curCtx
  let v (k : Nat) : Data256 := lanes fun j =>
    quad k (mergeML (laneOf (t.reg d) j) (laneOf (t.reg (groupReg d 1)) j) (laneOf (t.reg a) j)
      (laneOf (t.reg (groupReg a 1)) j))
  s.fireGroup (.rmerge d a pd pm) d .zero pd pm v

end Sys2Proof.Machine
end

