-- ==== Sys2Proof/Machine/Image.lean ====
section
/-! DEFINITION. Images (11_kernels_images.md R261 to R266), their checks and the resolution of their windows (R267 to R269). -/

namespace Sys2Proof.Machine

/-! ### Words of an image -/

/-- The word at an offset of an image's bytes (R261). -/
def imgWord (b : List Byte) (off : Nat) : Nat := leNat ((b.drop off).take 4)

/-- The doubleword at an offset. -/
def imgDword (b : List Byte) (off : Nat) : DWord := BitVec.ofNat 64 (leNat ((b.drop off).take 8))

/-- Whether n bytes at an offset lie within a size; nothing at offset 0 is absent (R261). -/
def inSize (off n size : Nat) : Bool := (off = 0 && n = 0) || decide (off + n ≤ size)

/-- n bits of CRC-32 (log 17): the register is shifted right, and the polynomial joins where the bit that falls out is 1. -/
def crcBits : Nat → Nat → Nat
  | 0, c => c
  | _ + 1, 0 => 0
  | n + 1, c + 1 => crcBits n (if (c + 1) % 2 = 1 then ((c + 1) / 2) ^^^ 0xEDB88320 else (c + 1) / 2)

/-- The register after the bytes given, each least significant bit first. -/
def crcBytes : List Byte → Nat → Nat
  | [], c => c
  | b :: bs, c => crcBytes bs (crcBits 8 (c ^^^ b.toNat))

/-- CRC-32 of bytes, IEEE 802.3 (R261; log 17). -/
def crc32 (bs : List Byte) : BitVec 32 := ~~~(BitVec.ofNat 32 (crcBytes bs 0xFFFFFFFF))

/-- The offset of the first condition that holds in a list. -/
def firstBad : List (Nat × Bool) → Option Nat
  | [] => none
  | (off, bad) :: rest => if bad then some off else firstBad rest

/-! ### The header (R261) -/

/-- The header of an image, field by field. -/
structure Header where
  flags   : Nat
  size    : Nat
  ncalls  : Nat
  nloads  : Nat
  tcols   : Nat
  trows   : Nat
  scrhw   : Nat
  loadtab : Nat
  calltab : Nat
  porttab : Nat
  text    : Nat
  textsz  : Nat
  data    : Nat
  datasz  : Nat
  entry   : Nat
  nargs   : Nat
  deriving DecidableEq, Repr

/-- The header read from the first 64 bytes. -/
def headerOf (b : List Byte) : Header :=
  let w := imgWord b 0x10
  { flags := imgWord b 4 / 65536, size := imgWord b 8, ncalls := w / 2 ^ 24, nloads := w / 65536 % 256, tcols := w / 256 % 256,
    trows := w % 256, scrhw := imgWord b 0x14, loadtab := imgWord b 0x18, calltab := imgWord b 0x1C, porttab := imgWord b 0x20,
    text := imgWord b 0x24, textsz := imgWord b 0x28, data := imgWord b 0x2C, datasz := imgWord b 0x30, entry := imgWord b 0x34,
    nargs := imgWord b 0x38 }

/-- EDGEW. -/
def Header.edgew (h : Header) : Bool := h.flags.testBit 0
/-- EDGEE. -/
def Header.edgee (h : Header) : Bool := h.flags.testBit 1
/-- RETAIN. -/
def Header.retain (h : Header) : Bool := h.flags.testBit 2
/-- SCALAR. -/
def Header.scalar (h : Header) : Bool := h.flags.testBit 3

/-- MAGIC, VERSION and SIZE hold (R267, step 1). -/
def headerSound (b : List Byte) : Bool :=
  imgWord b 0 = 0x524D5250 && imgWord b 4 % 65536 = 1 && decide (64 ≤ imgWord b 8)

/-- CHECK holds (R261). -/
def imageSound (b : List Byte) : Bool := crc32 (b.take 12 ++ List.replicate 4 0 ++ b.drop 16) = BitVec.ofNat 32 (imgWord b 12)

/-- The offset of the first reserved or illegal field of a header, by the offsets of R261. -/
def Header.badField (h : Header) (b : List Byte) : Option Nat :=
  firstBad [
    (0x04, h.flags / 16 != 0),
    (0x10, decide (32 < h.ncalls) || (if h.scalar then h.nloads != 0 else h.nloads = 0) || h.tcols = 0 || decide (20 < h.tcols) ||
      h.trows = 0 || decide (16 < h.trows)),
    (0x14, h.scrhw % 16 != 0 || decide (131072 < h.scrhw)),
    (0x18, !inSize h.loadtab (32 * h.nloads) h.size),
    (0x1C, !inSize h.calltab (8 * h.ncalls) h.size),
    (0x20, h.porttab != 0 && !inSize h.porttab 512 h.size),
    (0x24, h.text % 4 != 0 || !inSize h.text h.textsz h.size),
    (0x2C, !inSize h.data h.datasz h.size),
    (0x34, h.entry % 4 != 0 || (decide (h.textsz ≤ h.entry) && !(h.textsz = 0 && h.entry = 0))),
    (0x38, decide (64 < h.nargs)),
    (0x3C, imgWord b 0x3C != 0)]

/-! ### The tables (R262 to R266) -/

/-- A load-table entry (R262). -/
structure LoadRow where
  cfgoff  : Nat
  cfgsz   : Nat
  siteoff : Nat
  nstrm   : Nat
  nsites  : Nat
  strmoff : Nat
  deriving DecidableEq, Repr

/-- The offset of a load's entry. -/
def Header.loadAt (h : Header) (n : Nat) : Nat := h.loadtab + 32 * n

/-- Entry n of the load table. -/
def loadRow (b : List Byte) (h : Header) (n : Nat) : LoadRow :=
  let o := h.loadAt n
  let w := imgWord b (o + 0x0C)
  ⟨imgWord b o, imgWord b (o + 4), imgWord b (o + 8), w / 65536, w % 65536, imgWord b (o + 0x10)⟩

/-- The first defect of a load-table entry. -/
def LoadRow.bad (r : LoadRow) (b : List Byte) (h : Header) (n : Nat) : Option Nat :=
  let o := h.loadAt n
  firstBad [
    (o, !inSize r.cfgoff r.cfgsz h.size),
    (o + 4, r.cfgsz % 4 != 0),
    (o + 8, !inSize r.siteoff (32 * r.nsites) h.size),
    (o + 0x10, !inSize r.strmoff (8 * r.nstrm) h.size),
    (o + 0x14, imgWord b (o + 0x14) != 0),
    (o + 0x18, imgWord b (o + 0x18) != 0),
    (o + 0x1C, imgWord b (o + 0x1C) != 0)]

/-- A configuration record (R263). -/
structure CfgRecord where
  row   : Nat
  col   : Nat
  kind  : Nat
  index : Nat
  words : List Word
  deriving DecidableEq, Repr

/-- NWORDS that a kind of record has, and the indexes it may have (R263). -/
def recordShape : Nat → Option (Nat × Nat)
  | 0 => some (2, 16)
  | 1 => some (1, 2)
  | 2 => some (1, 4)
  | 3 => some (6, 1)
  | 4 => some (1, 4)
  | _ => none

/-- Whether a record is legal for a rectangle of tiles (R263, R267 step 2). -/
def CfgRecord.ok (r : CfgRecord) (trows tcols nwords : Nat) : Bool :=
  (match recordShape r.kind with
   | some (n, m) => nwords = n && decide (r.index < m)
   | none => false) &&
  decide (r.row < 4 * trows) && decide (r.col < 4 * tcols) &&
  (match r.kind, r.words with
   | 1, [w] => w.extractLsb' 16 16 = 0
   | 4, [w] => w.extractLsb' 0 16 = 0
   | _, _ => true)

/-- The records from an offset to an end, or the offset of the first that is illegal. The fuel bounds their number. -/
def parseRecords (b : List Byte) (trows tcols endd : Nat) : Nat → Nat → List CfgRecord ⊕ Nat
  | 0, _ => .inl []
  | fuel + 1, off =>
    if endd ≤ off then .inl []
    else
      let w := imgWord b off
      let n := w % 256
      let r : CfgRecord := ⟨w / 2 ^ 26, w / 2 ^ 19 % 128, w / 2 ^ 16 % 8, w / 256 % 256,
        (List.range n).map fun i => BitVec.ofNat 32 (imgWord b (off + 4 + 4 * i))⟩
      if endd < off + 4 + 4 * n || !r.ok trows tcols n then .inr off
      else match parseRecords b trows tcols endd fuel (off + 4 + 4 * n) with
        | .inl rs => .inl (r :: rs)
        | .inr o => .inr o

/-- The records of a load. -/
def LoadRow.records (r : LoadRow) (b : List Byte) (h : Header) : List CfgRecord ⊕ Nat :=
  parseRecords b h.trows h.tcols (r.cfgoff + r.cfgsz) (r.cfgsz / 4 + 1) r.cfgoff

/-- A site-table entry (R266). -/
structure SiteRow where
  no     : Nat
  row    : Nat
  col    : Nat
  kind   : Nat
  fill   : Nat
  life   : Nat
  lbc    : Nat
  rows   : Nat
  boff   : Nat
  blines : Nat
  group  : Nat
  chain  : Nat
  seq    : Nat
  pred   : Nat
  rclass : Nat
  arg    : Nat
  pitch  : Nat
  offset : DWord
  extent : Nat
  deriving DecidableEq, Repr

/-- The site-table entry at an offset. -/
def siteRow (b : List Byte) (o : Nat) : SiteRow :=
  let w0 := imgWord b o
  let w1 := imgWord b (o + 4)
  let w2 := imgWord b (o + 8)
  let w3 := imgWord b (o + 12)
  { no := w0 / 2 ^ 26, row := w0 / 2 ^ 20 % 64, col := w0 / 2 ^ 13 % 128, kind := w0 / 2 ^ 11 % 4, fill := w0 / 2 ^ 8 % 8,
    life := w0 / 64 % 4, lbc := w0 / 16 % 4, rows := w0 / 4 % 4 + 1, boff := w1 / 2 ^ 19, blines := w1 / 64 % 8192,
    group := w1 % 64, chain := w2 / 2 ^ 28, seq := w2 / 65536 % 4096, pred := w2 / 16 % 4096, rclass := w2 / 4 % 4,
    arg := w3 / 2 ^ 26, pitch := w3 % 2 ^ 26, offset := imgDword b (o + 0x10), extent := imgWord b (o + 0x18) }

/-- LB of an entry. -/
def SiteRow.lb (t : SiteRow) : Nat := 64 * 2 ^ t.lbc

/-- The first defect of a site-table entry in a rectangle of tiles. -/
def SiteRow.bad (t : SiteRow) (b : List Byte) (o trows tcols : Nat) : Option Nat :=
  firstBad [
    (o, decide (4 * trows ≤ t.row) || decide (4 * tcols ≤ t.col) || decide (4 < t.fill) || t.life = 3 || imgWord b o % 4 != 0),
    (o + 4, t.boff % 2 ^ t.lbc != 0 || (t.blines = 0) != (t.fill = 4)),
    (o + 8, imgWord b (o + 8) % 4 != 0),
    (o + 0x18, t.extent = 0),
    (o + 0x1C, imgWord b (o + 0x1C) != 0)]

/-- The site-table entries of a load. -/
def LoadRow.sites (r : LoadRow) (b : List Byte) : List SiteRow := (List.range r.nsites).map fun i => siteRow b (r.siteoff + 32 * i)

/-- The first site named twice on one element: the offset of the later entry. -/
def LoadRow.twice (r : LoadRow) (b : List Byte) : Option Nat :=
  let ts := r.sites b
  (List.range r.nsites).findSome? fun i =>
    match ts[i]? with
    | some t => if (ts.take i).any fun u => u.no = t.no && u.row = t.row && u.col = t.col then some (r.siteoff + 32 * i) else none
    | none => none

/-- A stream declaration (R264). -/
def streamDecl (b : List Byte) (o : Nat) : StreamDecl :=
  let w := imgWord b o
  ⟨w / 2 ^ 26, w / 2 ^ 19 % 128, w / 2 ^ 17 % 4, w / 2 ^ 15 % 4, BitVec.ofNat 16 (imgWord b (o + 4) / 65536)⟩

/-- The stream declarations of a load. -/
def LoadRow.decls (r : LoadRow) (b : List Byte) : List StreamDecl :=
  (List.range r.nstrm).map fun i => streamDecl b (r.strmoff + 8 * i)

/-- The first defect of a load's stream declarations. -/
def LoadRow.badDecl (r : LoadRow) (b : List Byte) (h : Header) : Option Nat :=
  (List.range r.nstrm).findSome? fun i =>
    let o := r.strmoff + 8 * i
    let d := streamDecl b o
    firstBad [
      (o, imgWord b o % 2 ^ 15 != 0 || decide (4 * h.trows ≤ d.row) || decide (4 * h.tcols ≤ d.col)),
      (o + 4, imgWord b (o + 4) % 65536 != 0)]

/-- The first defect of a load's tables. -/
def LoadRow.badTables (r : LoadRow) (b : List Byte) (h : Header) : Option Nat :=
  (match r.records b h with | .inr o => some o | .inl _ => none).orElse fun _ =>
  ((List.range r.nsites).findSome? fun i =>
    (siteRow b (r.siteoff + 32 * i)).bad b (r.siteoff + 32 * i) h.trows h.tcols).orElse fun _ =>
  (r.twice b).orElse fun _ => r.badDecl b h

/-- Doubleword 0 and the OFFSET of entry i of the port table; zeros when it is absent (R265). -/
def Header.port (h : Header) (b : List Byte) (i : Nat) : DWord × DWord :=
  if h.porttab = 0 then (0, 0) else (imgDword b (h.porttab + 16 * i), imgDword b (h.porttab + 16 * i + 8))

/-- The call list (R265). -/
def Header.calls (h : Header) (b : List Byte) : List DWord := (List.range h.ncalls).map fun i => imgDword b (h.calltab + 8 * i)

/-- The first defect of an image (R267, step 2): the header, the load table, each load's tables, the call list, the ports. -/
def imageDefect (b : List Byte) : Option Nat :=
  let h := headerOf b
  let loads := (List.range h.nloads).map fun n => (n, loadRow b h n)
  (h.badField b).orElse fun _ => (loads.findSome? fun x => x.2.bad b h x.1).orElse fun _ =>
    (loads.findSome? fun x => x.2.badTables b h).orElse fun _ =>
    ((List.range h.ncalls).findSome? fun i =>
      if field (imgDword b (h.calltab + 8 * i)) 55 0 != 0 then some (h.calltab + 8 * i) else none).orElse fun _ =>
    (List.range 32).findSome? fun i => if field (h.port b i).1 56 0 != 0 then some (h.porttab + 16 * i) else none

/-! ### Why a binding fails (R267) -/

/-- The record with which a binding fails: code, master, WHO, DETAIL and address. -/
structure BindFail where
  code   : Nat
  mkind  : Nat
  who    : Nat
  detail : Nat
  addr   : DWord
  deriving DecidableEq, Repr

/-- A failure of the dispatcher as its master. -/
def bindFail (code detail : Nat) (addr : DWord) : BindFail := ⟨code, 6, 0, detail, addr⟩

/-- Who binds: who waits for the loader's walks (R244), the die, and the context, ASID, privilege and task under which the loader
reads. -/
structure Binder where
  who  : Waiter
  die  : Nat
  ctx  : BitVec 10
  asid : BitVec 16
  user : Bool
  task : Option Nat
  deriving DecidableEq, Repr

/-- n bytes read by the loader through the engine TLB (R267). -/
def State.loaderRead (s : State) (w : Binder) (va n : Nat) : (List Byte ⊕ (Nat × Nat × Nat)) × State :=
  s.readVa w.who (.engine w.die) w.ctx w.asid w.user w.task va n

/-- Whether a failure is none: the loader waits for a walk or for the host, and the step is taken again. -/
def BindFail.waits (f : BindFail) : Bool := f.code = noFault

/-- The image read (R267, step 1): its bytes, or the failure. -/
def State.readImage (s : State) (w : Binder) (image : Nat) : (List Byte ⊕ BindFail) × State :=
  let bad (code : Nat) : BindFail := bindFail code 0 (BitVec.ofNat 64 image)
  if image % 64 != 0 then (.inr (bad 0x03), s)
  else match s.loaderRead w image 64 with
    | (.inr f, s1) => (.inr (bad f.1), s1)
    | (.inl hb, s1) =>
      if !headerSound hb then (.inr (bad 0x13), s1)
      else match s1.loaderRead w image (imgWord hb 8) with
        | (.inr f, s2) => (.inr (bad f.1), s2)
        | (.inl b, s2) => (if imageSound b then .inl b else .inr (bad 0x13), s2)

/-- The argument block read (R277): NARGS doublewords. -/
def State.readArgs (s : State) (w : Binder) (args n : Nat) : (List DWord ⊕ BindFail) × State :=
  match s.loaderRead w args (8 * n) with
  | (.inr f, s1) => (.inr (bindFail f.1 f.2.1 (BitVec.ofNat 64 f.2.2)), s1)
  | (.inl b, s1) => (.inl ((List.range n).map fun i => imgDword b (8 * i)), s1)

/-! ### Windows and ports (R267, steps 3 and 4) -/

/-- The exact base of a site's window: argument plus signed OFFSET. -/
def SiteRow.base (t : SiteRow) (argv : List DWord) : Int := ((argv[t.arg]?.getD 0).toNat : Int) + t.offset.toInt

/-- The first site whose argument is absent or whose window leaves 0 to 2^57. -/
def badWindow (ts : List SiteRow) (argv : List DWord) : Option BindFail :=
  ts.findSome? fun t =>
    let base := t.base argv
    if argv.length ≤ t.arg then some (bindFail 0x1C t.no 0)
    else if base < 0 || (2 ^ 57 : Int) < base + t.extent then some (bindFail 0x1C t.no (BitVec.ofInt 64 base))
    else none

/-- The address of a port entry. -/
def portAddr (p : DWord × DWord) (argv : List DWord) : DWord := (argv[field p.1 62 57]?.getD 0) + p.2

/-- The first port entry in use whose argument is absent or whose address is misaligned. -/
def badPort (h : Header) (b : List Byte) (argv : List DWord) : Option BindFail :=
  (List.range 32).findSome? fun i =>
    let p := h.port b i
    if !p.1.getLsbD 63 then none
    else if argv.length ≤ field p.1 62 57 then some (bindFail 0x1C (i + 64) 0)
    else if (portAddr p argv).toNat % (if i < 16 then 64 else 16) != 0 then some (bindFail 0x1C (i + 64) (portAddr p argv))
    else none

/-- The first call entry in use whose argument is absent. -/
def badCall (h : Header) (b : List Byte) (argv : List DWord) : Option BindFail :=
  ((h.calls b).zipIdx).findSome? fun x =>
    if x.1.getLsbD 63 && !x.1.getLsbD 62 && decide (argv.length ≤ field x.1 61 56) then some (bindFail 0x1C x.2 0) else none

/-- The first site whose RCLASS does not match the region-table state that decides its window's first byte (R267, step 4). -/
def badClass (ts : List SiteRow) (argv : List DWord) (rs : List RegionEntry) : Option BindFail :=
  ts.findSome? fun t =>
    let base := (t.base argv).toNat
    let st := match decidingEntry rs base with | some r => r.state.toNat | none => 3
    if t.rclass = 0 || t.rclass = st then none else some (bindFail 0x09 (t.no + 512) (BitVec.ofNat 64 base))

/-! ### Alias and shape agreement (R268, R269) -/

/-- The entries of a load in ascending (row, column, site). -/
def sortSites (ts : List SiteRow) : List SiteRow :=
  sortBy (fun a b => decide ((a.row * 128 + a.col) * 64 + a.no ≤ (b.row * 128 + b.col) * 64 + b.no)) ts

/-- The pairs of a list in order, the first member before the second. -/
def pairsOf : List SiteRow → List (SiteRow × SiteRow)
  | [] => []
  | a :: rest => (rest.map fun b => (a, b)) ++ pairsOf rest

/-- DETAIL of an alias failure: the second site in bits 31:13, the first in bits 5:0. -/
def aliasDetail (a b : SiteRow) : Nat := b.no * 2 ^ 26 + b.row * 2 ^ 20 + b.col * 2 ^ 13 + a.no

/-- The first pair of overlapping sites of which one writes and that share no group; then the first pair of one group on one
element that disagree in fill rule or line shape. `row0` and `col0` make the first site's element physical. -/
def badAlias (ts : List SiteRow) (argv : List DWord) (row0 col0 : Nat) : Option BindFail :=
  let ps := pairsOf (sortSites ts)
  let lo (a : SiteRow) : Nat := (a.base argv).toNat
  let fail (a b : SiteRow) (bit12 : Bool) (addr : Nat) : BindFail :=
    ⟨0x11, 6, (row0 + a.row) * 128 + (col0 + a.col), aliasDetail a b + (if bit12 then 4096 else 0), BitVec.ofNat 64 addr⟩
  (ps.findSome? fun p =>
    if overlaps (lo p.1) p.1.extent (lo p.2) p.2.extent && (p.1.kind != 0 || p.2.kind != 0) &&
        !(p.1.group != 0 && p.1.group = p.2.group) then some (fail p.1 p.2 false (max (lo p.1) (lo p.2))) else none).orElse fun _ =>
  ps.findSome? fun p =>
    if p.1.group != 0 && p.1.group = p.2.group && p.1.row = p.2.row && p.1.col = p.2.col &&
        (p.1.fill != p.2.fill || p.1.lbc != p.2.lbc || p.1.rows != p.2.rows || (p.1.rows != 1 && p.1.pitch != p.2.pitch)) then
      some (fail p.1 p.2 true (lo p.1)) else none

/-- The shape that an element declares for a channel: its channel-shape record, else that of its loop generator (R269). -/
def shapeOf (rs : List CfgRecord) (row col ch : Nat) : Option (BitVec 16) :=
  let mine := (rs.filter fun r => r.row = row && r.col = col).reverse
  match mine.find? fun r => r.kind = 4 && r.index = ch with
  | some r => r.words.head?.map fun w => w.extractLsb' 16 16
  | none => (mine.find? fun r => r.kind = 3).bind fun r => r.words[5]?.map fun w => w.extractLsb' 16 16

/-- The first declaration whose shape its destination does not declare (R269). -/
def badShape (ds : List StreamDecl) (rs : List CfgRecord) : Option BindFail :=
  (ds.zipIdx).findSome? fun x =>
    if (x.1.kind = 0 || x.1.kind = 3) && shapeOf rs x.1.row x.1.col x.1.ch != some x.1.shape then
      some (bindFail 0x13 (x.2 % 65536 + 65536) 0) else none

/-! ### A load bound -/

/-- Kind of a code. -/
def kindOf : Nat → SiteKind
  | 0 => .load
  | 1 => .store
  | 2 => .loadStore
  | _ => .atomic

/-- Fill rule of a code. -/
def fillOf : Nat → FillRule
  | 0 => .demand
  | 1 => .stream
  | 2 => .pinned
  | 3 => .combine
  | _ => .none

/-- Lifetime of a code. -/
def lifeOfCode : Nat → Life
  | 0 => .task
  | 1 => .load
  | _ => .resident

/-- A site-table entry as a binding (R142). -/
def SiteRow.bind (t : SiteRow) (argv : List DWord) (asid : BitVec 16) : Site :=
  { no := BitVec.ofNat 6 t.no, kind := kindOf t.kind, fill := fillOf t.fill, life := lifeOfCode t.life, lb := t.lb, rows := t.rows,
    pitch := t.pitch, boff := t.boff, blines := t.blines, group := t.group, chain := t.chain, seq := t.seq, pred := t.pred,
    base := (t.base argv).toNat, extent := t.extent, asid := asid }

/-- What a binding found: what the region will run, its records and its sites. -/
structure Bound where
  info  : LoadInfo
  recs  : List CfgRecord
  sites : List SiteRow
  deriving DecidableEq, Repr

/-- The load that a binding leads to, from the image's bytes. -/
def loadInfo (b : List Byte) (image load args : Nat) (argv : List DWord) : LoadInfo :=
  let h := headerOf b
  let at_ (i : Nat) : Option Nat := let p := h.port b i; if p.1.getLsbD 63 then some (portAddr p argv).toNat else none
  { image := image, load := load, args := args, argv := argv, trows := h.trows, tcols := h.tcols, scrhw := h.scrhw,
    retain := h.retain, calls := h.calls b, decls := (loadRow b h load).decls b, qports := (List.range 16).map at_,
    bports := (List.range 16).map fun i => at_ (16 + i) }

/-- Steps 2 to 6 of R267 for a load of an image, at an element origin. -/
def State.checkBinding (s : State) (w : Binder) (b : List Byte) (image load args row0 col0 : Nat) : (Bound ⊕ BindFail) × State :=
  let h := headerOf b
  let r := loadRow b h load
  match imageDefect b with
  | some o => (.inr (bindFail 0x13 o (BitVec.ofNat 64 image)), s)
  | none =>
    match r.records b h, s.readArgs w args h.nargs with
    | .inr o, _ => (.inr (bindFail 0x13 o (BitVec.ofNat 64 image)), s)
    | .inl _, (.inr f, s1) => (.inr f, s1)
    | .inl rs, (.inl argv, s1) =>
      let ts := r.sites b
      let fail := (badWindow ts argv).orElse fun _ => (badPort h b argv).orElse fun _ => (badCall h b argv).orElse fun _ =>
        (badClass ts argv (s1.regionTable w.die (s1.desc w.die w.ctx.toNat))).orElse fun _ =>
        (badAlias ts argv row0 col0).orElse fun _ => badShape (r.decls b) rs
      match fail with
      | some f => (.inr f, s1)
      | none => (.inl ⟨loadInfo b image load args argv, rs, ts⟩, s1)

end Sys2Proof.Machine
end

