-- ==== Sys2Proof/Machine/Configure.lean ====
section
/-! DEFINITION. The configuration tree: which words are illegal (03_encodings.md R67, R68, R70; 02_numbers.md R43;
05_fabric.md R108; 07_element_storage.md R142 to R149, R165, R167, R181 to R184, R409), and writing them (R119, R263, R270, R275). -/

namespace Sys2Proof.Machine

/-! ### Slot words (R67) -/

/-- The sources of an element instruction (R64). -/
def instrSrcs : Instr → List Src
  | .mov f | .iadd f | .isub f | .iadds f | .isubs f | .imul f | .imulh f | .imulhn f | .imad f | .imin f | .imax f
  | .nmin f | .nmax f | .iabs f | .eAnd f | .eOr f | .eXor f | .eAndn f | .eShl f | .eShr f | .eSha f | .sel f
  | .ePopc f | .eClz f | .idot4 f | .fadd f | .fsub f | .fmul f | .ffma f | .fmin f | .fmax f | .fabs f | .fneg f
  | .bfadd2 f | .bfmul2 f | .bffma2 f | .bfdot2 f | .hadd2 f | .hmul2 f | .hfma2 f | .fscale f | .icmp f | .fcmp f
  | .cvtF32I32 f | .cvtI32F32 f | .cvtBf16F32 f | .cvtF32Bf16 f | .cvtE4m3F32 f | .cvtE5m2F32 f | .cvtE2m1F32 f
  | .cvtF32E4m3 f | .cvtF32E5m2 f | .cvtF32E2m1 f | .cvtI8F32 f | .cvtF32I8 f | .sclx f | .cvtF16F32 f | .cvtF32F16 f
  | .exp2 f | .log2 f | .rcp f | .rsqrt f | .sqrt f | .rstat f | .lred f | .lscan f | .lperm f | .lbcast f
  | .lshift f => [f.a, f.b]
  | .movhi f | .iaddi f | .eAndi f | .eShli f | .eShri f => [f.a]
  | .eNop a b | .sst _ a b _ | .satm _ _ _ a b | .spf _ a b | .scln _ a b | .sinv _ a b | .xst a b _ | .fest a b _
  | .feclr a b | .hdr _ a b _ | .drop _ a b => [a, b]
  | .sld _ _ a _ _ | .xld _ a _ _ | .feld _ _ a _ | .emit _ _ a _ | .lgb a _ | .wsplit _ _ a _ | .wjoin _ _ a _ | .ptake a
  | .etrap _ a _ => [a]
  | .eenq _ _ b _ => [b]
  | .mrld at_ => at_.toList
  | _ => []

/-- Whether a trigger word is illegal by itself (R67, items 1 and 2). -/
def triggerBad (t : Word) : Bool :=
  if wfield t 26 26 = 0 then t != 0
  else wfield t 31 28 = 0 || (wfield t 17 10 &&& (255 - wfield t 25 18)) != 0 || (!t.getLsbD 5 && wfield t 4 0 != 0)

/-- Whether a trigger word has a channel hold a token: by READY or by the tag test. -/
def readies (t : Word) (c : BitVec 2) : Bool := t.getLsbD (6 + c.toNat) || (t.getLsbD 5 && t.extractLsb' 3 2 = c)

/-- Whether an operation word is illegal under its trigger word, sites apart (R67, items 3 to 6; R165). -/
def operationBad (e : ElemId) (t op : Word) : Bool :=
  if wfield t 26 26 = 0 then op != 0
  else op = 0 || (match decodeElem op.toNat with
    | .error _ => true
    | .ok i => ((instrSrcs i).filterMap chanOf).any (fun c => !readies t c) ||
        (match i with | .mrld _ => e.col % 8 != 2 | _ => false))

/-- Whether an operation word names a site with no binding, or one whose kind rules it out (R143). -/
def siteUseBad (sites : List Site) (t op : Word) : Bool :=
  wfield t 26 26 = 1 && (match decodeElem op.toNat with
    | .error _ => false
    | .ok i => match siteUsed i with
      | none => false
      | some k => match sites.find? fun x => x.no = k with
        | none => true
        | some x => !(match i, x.kind with
          | .sld .., .load | .sld .., .loadStore => true
          | .sst .., .store | .sst .., .loadStore => true
          | .satm .., .atomic => true
          | .spf .., .load | .spf .., .loadStore => true
          | .scln .., .store | .scln .., .loadStore => true
          | .sinv .., .load | .sinv .., .store | .sinv .., .loadStore => true
          | .ordt true .., _ => x.chain != 0
          | .ordt false .., _ => true
          | _, _ => false))

/-! ### Switch words (R70, R108) -/

/-- Whether a switch word is illegal at a physical row (R70). -/
def switchBad (row : Nat) (w : Word) : Bool :=
  let sel (k : Nat) : Nat := wfield w (14 - 3 * k) (12 - 3 * k)
  (List.range 5).any (fun k => sel k = 7) || (List.range 4).any (fun k => sel k = k + 1) ||
    (row = 0 && sel 0 != 0) || (row = 63 && sel 2 != 0)

/-- Whether an element takes part in a region's configuration. -/
def State.inConfig (s : State) (g : Region) (e : ElemId) : Bool :=
  (s.elem e).region = some g.id && ((s.elem e).st = .configuring || (s.elem e).st = .blocked)

/-- The seventeenth routers of the paths on a plane that enter an element's router under a source code; the fuel is how many
more routers a path may pass (R108). -/
def State.overrun (s : State) (g : Region) (pl : Plane) : Nat → ElemId → Nat → List ElemId
  | n, e, code =>
    let p := (s.elem e).pl
    let ds := p.dirs pl code
    match n with
    | 0 => if p.sel pl 4 = code || !ds.isEmpty then [e] else []
    | n + 1 =>
      if p.hopOn pl then []
      else ds.flatMap fun d => match beyond e d with
        | .elem b => if s.inConfig g b then s.overrun g pl n b (fromCode d) else []
        | _ => []

/-- The seventeenth routers of the paths that leave the outputs or the hop register of an element, or that enter it from a
stream port. -/
def State.overrunFrom (s : State) (g : Region) (pl : Plane) (e : ElemId) : List ElemId :=
  let p := (s.elem e).pl
  (if p.hopOn pl then
    (List.range 4).flatMap fun d => if p.sel pl d = 0 then [] else match beyond e d with
      | .elem b => if s.inConfig g b then s.overrun g pl 16 b (fromCode d) else []
      | _ => []
   else s.overrun g pl 17 e 5 ++ s.overrun g pl 17 e 6) ++
  (if e.col = 0 then s.overrun g pl 16 e 4 else []) ++ (if e.col = 79 then s.overrun g pl 16 e 2 else [])

/-- Whether the walk back from a router's input, over routers without a hop register, comes back to a given router and source: a
closed loop, into which no buffer can feed, since each output selects one source (R108). The fuel bounds its routers. -/
def State.loops (s : State) (g : Region) (pl : Plane) (start : ElemId × Nat) : Nat → ElemId → Nat → Bool
  | 0, _, _ => false
  | n + 1, e, code =>
    if code = 0 || 4 < code then false
    else match beyond e (code - 1) with
      | .elem b =>
        let k := (s.elem b).pl.sel pl ((code + 1) % 4)
        s.inConfig g b && !(s.elem b).pl.hopOn pl && ((b, k) = start || s.loops g pl start n b k)
      | _ => false

/-- Whether an element's switch word of a plane is that of a seventeenth router: of a path, or of a closed loop, each of whose
routers is the seventeenth on a way round it (log 89). -/
def State.pathBad (s : State) (g : Region) (pl : Plane) (e : ElemId) : Bool :=
  ((g.elems.filter fun b => s.inConfig g b).any fun b => (s.overrunFrom g pl b).contains e) ||
    [1, 2, 3, 4].any fun c => s.loops g pl (e, c) (4 * g.elems.length) e c

/-! ### Node words (R43, R181 to R184, R409) -/

/-- A node word of a plane (zero where none is written). -/
def Plane4K.nw0 (p : Plane4K) : Word := p.node 0

/-- Whether NW0 breaks R181 by itself. -/
def nw0Bad (p : Plane4K) : Bool :=
  let w := p.node 0
  let fmt := wfield w 3 0
  let mode := wfield w 7 6
  wfield w 18 8 != 0 || wfield w 5 4 != 0 || mode = 3 || decide (7 < fmt) || ((mode = 2) != (fmt = 7)) ||
    decide (Config.scratchBytes < 16 * wfield w 31 19 + blockBytes w)

/-- Whether NW1 breaks R182. -/
def nw1Bad (p : Plane4K) : Bool :=
  let w := p.node 1
  wfield w 31 8 != 0 || wfield w 7 6 = 3 || wfield w 5 4 = 3 || decide (6 < wfield w 3 0)

/-- CBASE as an offset. -/
def cBase (p : Plane4K) : Nat := 16 * wfield (p.node 3) 21 9

/-- Bytes of a ring of NW2. -/
def ringLen (p : Plane4K) : Nat := 128 * 2 ^ wfield (p.node 2) 26 23

/-- Whether a ring at an offset leaves scratch or overlaps the weight block. -/
def ringBad (p : Plane4K) (off : Nat) : Bool :=
  decide (Config.scratchBytes < off + ringLen p) ||
    overlaps off (ringLen p) (16 * wfield (p.node 0) 31 19) (blockBytes (p.node 0))

/-- Whether NW2 breaks R183, or the set breaks R43. -/
def nw2Bad (p : Plane4K) : Bool :=
  let w := p.node 2
  let ofmt := wfield w 3 0
  let path := wfield w 5 4
  let csrc := wfield w 8 6
  let sink := wfield w 9 9
  let ich := wfield (p.node 1) 7 6
  let pos := wfield (p.node 3) 1 0
  let wf := wfield (p.node 0) 3 0
  let af := wfield (p.node 1) 3 0
  let mode := wfield (p.node 0) 7 6
  let onward := pos = 1 || pos = 2
  wfield w 31 27 != 0 || decide (10 < wfield w 26 23) || path = 3 || decide (5 < csrc) ||
  (match path with
   | 0 => decide (6 < wf) || mode = 2
   | 1 => wf != 7
   | _ => decide (1 < wf) || decide (1 < af) || mode != 0) ||
  (if onward then ofmt != 0 || sink != 0 || wfield w 22 10 != 0 || wfield w 26 23 != 0
   else if path = 2 then ofmt != 9 else ofmt != 5 && ofmt != 8) ||
  ((pos = 2 || pos = 3) && csrc != 0) ||
  (ich = 0 && (csrc = 1 || csrc = 3)) || (ich = 1 && (csrc = 2 || csrc = 4)) || (ich = 2 && decide (1 ≤ csrc) && decide (csrc ≤ 4)) ||
  (path = 2 && (csrc = 1 || csrc = 2)) || (path != 2 && (csrc = 3 || csrc = 4)) ||
  (!onward && sink = 1 && ringBad p (16 * wfield w 22 10))

/-- The chain of an element: the row of its first position, if it stands in one that R184 allows. -/
def State.chainOk (s : State) (g : Region) (e : ElemId) : Bool :=
  let p := (s.elem e).pl
  let at_ (r : Nat) : Plane4K := (s.elem { e with row := r }).pl
  let pos (q : Plane4K) : Nat := wfield (q.node 3) 1 0
  let len (q : Plane4K) : Nat := wfield (q.node 3) 8 2
  let n := len p
  if pos p = 0 then n = 1
  else
    decide (2 ≤ n) && decide (n ≤ 64) && (List.range n).any fun k =>
      decide (k ≤ e.row) && (List.range n).all fun j =>
        let r := e.row - k + j
        let q := at_ r
        s.inConfig g { e with row := r } && len q = n && wfield (q.node 2) 5 4 = wfield (p.node 2) 5 4 &&
          pos q = (if j = 0 then 1 else if j + 1 = n then 3 else 2)

/-- Whether NW3 breaks R184, the place of the C ring included. -/
def State.nw3Bad (s : State) (g : Region) (e : ElemId) : Bool :=
  let p := (s.elem e).pl
  let w := p.node 3
  wfield w 31 22 != 0 || wfield w 8 2 = 0 || decide (64 < wfield w 8 2) || !s.chainOk g e ||
    (wfield (p.node 2) 8 6 = 5 && ringBad p (cBase p))

/-- The node words of an element that are illegal. -/
def State.nodesBad (s : State) (g : Region) (e : ElemId) : List Nat :=
  let p := (s.elem e).pl
  if p.inert then []
  else (if nw0Bad p then [0] else []) ++ (if nw1Bad p then [1] else []) ++ (if nw2Bad p then [2] else []) ++
    (if s.nw3Bad g e then [3] else [])

/-! ### Site bindings (R142) -/

/-- Lines of a site's window (R146). -/
def Site.lines (t : Site) : Nat :=
  if t.rows ≤ 1 then (t.extent + t.lb - 1) / t.lb
  else if t.extent ≤ t.pitch then (t.extent + t.lb - 1) / t.lb
  else ((t.extent + t.pitch - 1) / t.pitch + t.rows - 1) / t.rows * (t.pitch / t.lb)

/-- Whether a binding is illegal by itself on an element (R142, R144, R146, R266). -/
def bindingBad (e : ElemId) (t : Site) : Bool :=
  isM e ||
  (match t.fill, t.kind with
   | .none, _ => t.blines != 0
   | _, .atomic => true
   | .demand, _ => false
   | .stream, .load | .stream, .loadStore => false
   | .pinned, .load | .pinned, .loadStore => decide (t.blines < t.lines)
   | .combine, .store => false
   | _, _ => true) ||
  (decide (1 < t.rows) && (t.pitch = 0 || t.pitch % t.lb != 0)) ||
  decide (Config.siteBytes < 64 * t.boff + t.blines * t.lb)

/-- The sites of a plane whose buffers no longer fit in the site array, in the order of the bindings (R144). -/
def tooMany (p : Plane4K) : List Site :=
  (p.sites.zipIdx.filter fun x =>
    let before := (p.sites.take (x.2 + 1)).filter fun t => (p.bufSite t).no = t.no
    decide (Config.siteBytes < (before.map fun t => t.blines * t.lb).foldl (· + ·) 0)).map Prod.fst

/-- The bindings of a chain whose sequence numbers break R149. -/
def chainBad (p : Plane4K) : List Site :=
  p.sites.filter fun t => t.chain != 0 &&
    (let lower := (p.sites.filter fun u => u.chain = t.chain && decide (u.seq < t.seq)).map Site.seq
     let same := (p.sites.takeWhile fun u => u.no != t.no).any fun u => u.chain = t.chain && u.seq = t.seq
     same || t.pred != lower.foldl max 0)

/-! ### Writing (R119, R270) -/

/-- Whether a loop-generator block is illegal (R167). -/
def lgenBad (ws : List Word) : Bool :=
  ([1, 2, 3, 4].all fun j => (ws[j]?.getD 0).extractLsb' 16 16 = 0) || (ws[5]?.getD 0).extractLsb' 1 15 != 0

/-- The kind by which R68 reports a word that is illegal as it is written, if it is (R67). -/
def wordBad (e : ElemId) (kind : Nat) (ws : List Word) : Option Nat :=
  let w0 := ws[0]?.getD 0
  match kind with
  | 0 => if isM e || triggerBad w0 then some 0 else if operationBad e w0 (ws[1]?.getD 0) then some 1 else none
  | 1 => if switchBad e.row w0 then some 2 else none
  | 2 => if isM e then none else some 3
  | 3 => if isM e || lgenBad ws then some 4 else none
  | _ => none

/-- A word put in its place (R263). -/
def Plane4K.putWord (p : Plane4K) (kind index : Nat) (ws : List Word) : Plane4K :=
  let w0 := ws[0]?.getD 0
  match kind with
  | 0 => { p with slots := (p.slots.filter fun x => x.1 != index) ++ [(index, w0, ws[1]?.getD 0)] }
  | 1 => { p with sw := p.sw.set (index % 2) (w0.extractLsb' 0 16) (Nat.mod_lt _ (by decide)) }
  | 2 => { p with nw := insertD p.nw index w0 }
  | 3 => { p with lgen := some (LoopGen.make ws) }
  | _ => { p with shape := insertD p.shape index (w0.extractLsb' 16 16) }

/-- An element that has received an illegal word: BLOCKED, and the word noted (R68, R119). -/
def State.block (s : State) (id : Nat) (e : ElemId) (pos kind index : Nat) : State :=
  let s1 := if (s.elem e).st = .configuring then s.modElem e fun v => { v with st := .blocked } else s
  s1.modRegion id fun g => { g with bad := g.bad ++ [(e, pos, kind * 4096 + index)] }

/-- The place of a word or site in an element's writing order. -/
def placeOf (places : List (Nat × Nat × Nat)) (kind index : Nat) : Nat :=
  ((places.find? fun x => x.1 = kind && x.2.1 = index).map fun x => x.2.2).getD 0

/-- An element judged once every word and binding is in place. A fenced element accepts no word. -/
def State.judge (s : State) (g : Region) (e : ElemId) (places : List (Nat × Nat × Nat)) : State :=
  let p := (s.elem e).pl
  let put (s : State) (x : Nat × Nat × Nat) : State := s.block g.id e x.1 x.2.1 x.2.2
  let slots := (p.slots.filter fun x => siteUseBad p.sites x.2.1 x.2.2 && !triggerBad x.2.1).map fun x => (placeOf places 0 x.1, 1, x.1)
  let paths := ([Plane.a, Plane.b].filter fun pl => s.pathBad g pl e).map fun pl => (placeOf places 1 (planeNo pl), 2, planeNo pl)
  let nodes := if isM e then (s.nodesBad g e).map fun k => (placeOf places 2 k, 3, k) else []
  let sites := (tooMany p ++ chainBad p).map fun t => (placeOf places 5 t.no.toNat, 4, t.no.toNat)
  let fenced := if (s.elem e).st = .fenced then [(0, 4, 0)] else []
  (slots ++ paths ++ nodes ++ sites ++ fenced).foldl put s

/-- The next item of a configuration written (R270). -/
def State.writeItem (s : State) (g : Region) (i : CfgItem) : State :=
  match i with
  | .word e pos kind index ws =>
    let s1 := s.modElem e fun v => if v.st = .fenced then v else v.modPl fun p => p.putWord kind index ws
    (match wordBad e kind ws with
     | some k => s1.block g.id e pos k index
     | none => s1)
  | .site e pos t =>
    let s1 := s.modElem e fun v => if v.st = .fenced then v else v.modPl fun p =>
      { p with sites := (p.sites.filter fun u => u.no != t.no) ++ [t] }
    if bindingBad e t then s1.block g.id e pos 4 t.no.toNat else s1
  | .judge e places => s.judge g e places

/-! ### The order of writing -/

/-- The physical element of relative coordinates in a region. -/
def Region.elemAt (g : Region) (row col : Nat) : ElemId := ⟨g.die, g.row0 + row, g.col0 + col⟩

/-- The items of a configuration: the records in their order, the bindings, then every element judged. A reload writes only
the bindings (R275). -/
def itemsOf (g : Region) (b : Bound) (reload : Bool) : List CfgItem :=
  let recs := if reload then [] else b.recs.zipIdx
  let n := b.recs.length
  let words := recs.map fun x => CfgItem.word (g.elemAt x.1.row x.1.col) (x.2 + 1) x.1.kind x.1.index x.1.words
  let sites := b.sites.zipIdx.map fun x =>
    CfgItem.site (g.elemAt x.1.row x.1.col) (n + 1 + x.2) (x.1.bind b.info.argv g.asid)
  let judges := (g.rect b.info.trows b.info.tcols).map fun e =>
    CfgItem.judge e
      ((recs.reverse.filter fun x => g.elemAt x.1.row x.1.col = e).map (fun x => (x.1.kind, x.1.index, x.2 + 1)) ++
        (b.sites.zipIdx.filter fun x => g.elemAt x.1.row x.1.col = e).map fun x => (5, x.1.no, n + 1 + x.2))
  words ++ sites ++ judges

/-- An element as configuration begins (R119): its queues empty, registers and predicates zero, its arbiter reset. A reload
keeps slots, switch and node words, the loop-generator block and the weights that are latched (R275). -/
def Plane4K.fresh (p : Plane4K) (reload : Bool) : Plane4K :=
  if reload then
    { Plane4K.reset with slots := p.slots, sw := p.sw, nw := p.nw, lgen := p.lgen.map fun g => LoopGen.make g.words,
                         shape := p.shape, mel := { MElem.reset with weights := p.mel.weights } }
  else Plane4K.reset

/-- Whether a buffer survives a `cfgld` (R275): the new binding has the same window, line shape, fill rule and lifetime. -/
def keepsBuffer (old new : Site) : Bool :=
  new.life != .load && old.no = new.no && old.base = new.base && old.extent = new.extent && old.asid = new.asid &&
    old.lb = new.lb && old.rows = new.rows && (old.rows = 1 || old.pitch = new.pitch) && old.fill = new.fill && old.life = new.life

/-- The buffers of an element that the new bindings do not keep, written back and dropped (R148, R275). -/
def State.shedBuffers (s : State) (g : Region) (e : ElemId) (news : List Site) : State :=
  let v := s.elem e
  let lvl := g.levels.length
  let stays (x : SiteSector) : Bool := match v.pl.sites.find? fun t => t.no = x.site with
    | some old => news.any fun t => keepsBuffer old t
    | none => false
  if v.sectors.any fun x => x.lvl = lvl && !stays x then s.dropSectors e g.ctx fun x => x.lvl = lvl && !stays x else s

/-- A region as its configuration begins: every element of the load's rectangle CONFIGURING; the elements of the region outside
it hold no configuration; full bits of the scratch range cleared (R155, R270). -/
def State.beginConfig (s : State) (g : Region) (b : Bound) (reload : Bool) : State :=
  let inner := g.rect b.info.trows b.info.tcols
  let s1 := g.elems.foldl (fun s e =>
    s.shedBuffers g e ((b.sites.filter fun t => g.elemAt t.row t.col = e).map fun t => t.bind b.info.argv g.asid)) s
  let s2 := g.elems.foldl (fun s e => s.modElem e fun v =>
    let full := v.full.filter fun k => decide (b.info.scrhw ≤ 16 * k)
    let rest := v.posted.filter fun p => p.lvl != g.levels.length
    if v.st = .fenced then { v with full := full }
    else if inner.contains e then
      { v with st := .configuring, region := some g.id, pl := v.pl.fresh reload, full := full, gate := .awake, idleFor := 0, posted := rest }
    else { v with st := .unconfigured, region := some g.id, pl := Plane4K.reset, full := full, posted := rest }) s1
  { s2 with fab := { s2.fab with packets := s2.fab.packets.filter fun p => !(g.holds p.dst && p.lvl = g.levels.length) } }.modRegion
    g.id fun h => { h with st := .configuring, next := some b.info, items := itemsOf g b reload, bad := [], voids := [] }

/-! ### The end of configuration (R68, R270) -/

/-- The CFG_BLOCKED failure of a region with illegal words: its lowest element, and the first illegal word of it. -/
def Region.blockedFail (g : Region) : Option BindFail :=
  match g.bad with
  | [] => none
  | x :: rest =>
    let low := rest.foldl (fun a y => if elemLt y.1 a.1 || (y.1 = a.1 && decide (y.2.1 < a.2.1)) then y else a) x
    let count := min 65535 ((g.bad.map Prod.fst).eraseDups).length
    some ⟨0x12, if isM low.1 then 2 else 1, whoElem low.1, count * 65536 + low.2.2, 0⟩

/-- A sector of a pinned site filled, page by page (R144): the first access that fails, `noFault` while it waits for a walk or for
the host. -/
def State.pinSector (s : State) (g : Region) (e : ElemId) (t buf : Site) (o : Nat) : Option (Nat × Nat × Nat) × State :=
  let n := min 64 (t.extent - o)
  if s.loadHits e t buf o n then (none, s)
  else (pagesOf (t.base + o) n).foldl (fun (r : Option (Nat × Nat × Nat) × State) a =>
    match r.1 with
    | some _ => r
    | none =>
      let k := inPage (t.base + o) (t.base + o + n) a
      match r.2.translate (.region g.id) (hemOf e) g.ctx t.asid .read true g.task a k with
      | (.ok pa en, s1) =>
        (match s1.ownedIn (pageAttr en) pa k with
         | some b => (some (noFault, 0, 0), s1.snoop b)
         | none =>
           if s1.spoilt e.die none pa k then (some (0x16, 0, a), s1)
           else (none, s1.fetchSector g e t buf ⟨0, a - t.base, k, pa, pageAttr en⟩))
      | (.bad code det, s1) => (some (code, det, a), s1)
      | (.miss, s1) => (some (noFault, 0, 0), s1)) (none, s)

/-- The pinned sites of an element filled whole (R144): the first access that fails. -/
def State.pinElem (s : State) (g : Region) (e : ElemId) : Option (Nat × Nat × Nat) × State :=
  ((s.elem e).pl.sites.filter fun t => t.fill = .pinned).foldl (fun (r : Option (Nat × Nat × Nat) × State) t =>
    (rangeSectors (0, t.extent)).foldl (fun (r : Option (Nat × Nat × Nat) × State) o =>
      match r.1 with
      | some _ => r
      | none => r.2.pinSector g e t ((r.2.elem e).pl.bufSite t) o) r) (none, s)

/-- Every pinned site of a region filled. -/
def State.pinAll (s : State) (g : Region) : Option (Nat × Nat × Nat) × State :=
  g.elems.foldl (fun (r : Option (Nat × Nat × Nat) × State) e =>
    match r.1 with
    | some _ => r
    | none => r.2.pinElem g e) (none, s)

/-- Every configured element of a region RUNNING (R119). -/
def State.startElems (s : State) (g : Region) : State :=
  g.elems.foldl (fun s e => if (s.elem e).st = .configuring then s.modElem e fun v => { v with st := .running } else s) s

end Sys2Proof.Machine
end

