-- ==== Sys2Proof/Machine/SeqCopy.lean ====
section
/-! DEFINITION. Commands of the copy engine and of the memory-side units as the sequencer issues them (08_sequencer.md
R189, R190, R216; 10_pages.md R255). Their effect is that of COPY_SECTOR, BANK_SECTOR and ROW_TRANSFER. -/

namespace Sys2Proof.Machine

/-- The entries that hold for a command's range as its engine accepts it, page by page, up to the first that fails (R248): no
access is made, and no cache is filled. The fuel is the number of 64 KiB pages that remain. -/
def State.acceptPages (s : State) (acc : Access) (va endd : Nat) : Nat → List TlbEntry
  | 0 => []
  | n + 1 =>
    if endd ≤ va then []
    else
      let t := s.cur
      match (s.translateNow (.engine s.curDie) t.ctx t.asid acc (!t.sup) none va 0).1 with
      | .ok _ e => e :: s.acceptPages acc (e.va + e.size) endd n
      | _ => []

/-- The pages of several ranges: address, length, access. -/
def State.acceptRanges (s : State) (rs : List (Nat × Nat × Access)) : List TlbEntry :=
  rs.flatMap fun r => s.acceptPages r.2.2 r.1 (r.1 + r.2.1) (r.2.1 / 65536 + 2)

/-- A command issued by the acting strand (R189, R190): it stalls while a source register awaits its value or no handle
slot is free; with nothing to do it reads done at once. -/
def State.command (s : State) (q : Issue) (d : GReg) (srcs : List GReg) (cls : OpClass) (kind : CmdKind) (empty : Bool)
    (ranges : List (Nat × Nat × Access)) : Res :=
  if srcs.any s.cur.awaits || s.cur.freeSlot.isNone then .next s.stall
  else if empty then
    let t := s.cur
    let n := s.focus.strand
    let slot := t.freeSlot.getD 0
    let gen := t.nextGen slot
    .next ({ s with serial := s.serial + 1 }.done q 4 fun t =>
      (t.setHandle ⟨slot, gen, s.serial, kind, cls, .done, 0, 0⟩).result s.cycle 1 d (handleValue n slot gen))
  else .next ((s.addCmd kind cls d (s.acceptRanges ranges)).done q 4 id)

/-- `copy` (R216): gC bytes from gB to gA; a length of 0 completes done at issue. -/
def execCopy (q : Issue) (d a b c : GReg) (s : State) : Res :=
  let t := s.cur
  let n := (t.reg c).toNat
  s.command q d [a, b, c] .cp (.copy (t.reg a).toNat (t.reg b).toNat n) (n = 0)
    [((t.reg b).toNat, n, .read), ((t.reg a).toNat, n, .write)]

/-- `fill` (R216): byte x takes byte x mod 8 of gB. -/
def execFill (q : Issue) (d a b c : GReg) (s : State) : Res :=
  let t := s.cur
  let n := (t.reg c).toNat
  s.command q d [a, b, c] .cp (.fill (t.reg a).toNat n (t.reg b)) (n = 0) [((t.reg a).toNat, n, .write)]

/-- A `bankop` (R255): destination gA, sources gB and gC, the byte count in bits 39:0 of gC + 1. -/
def State.bankop (s : State) (q : Issue) (sub : Nat) (d a b c : GReg) : Res :=
  let t := s.cur
  let n := field (t.reg (c + 1)) 39 0
  let x := (t.reg a).toNat
  let y := (t.reg b).toNat
  let z := (t.reg c).toNat
  s.command q d [a, b, c, c + 1] .bk (.bankop sub x y z n) (n = 0) [(y, n, .read), (z, n, .read), (x, n, .write)]

/-- `bfadd` (R255, R257). -/
def execBfadd (q : Issue) (d a b c : GReg) (s : State) : Res := s.bankop q 0 d a b c
/-- `bfmul` (R255, R257). -/
def execBfmul (q : Issue) (d a b c : GReg) (s : State) : Res := s.bankop q 1 d a b c
/-- `iadd32` (R255, R257). -/
def execIadd32 (q : Issue) (d a b c : GReg) (s : State) : Res := s.bankop q 2 d a b c
/-- `fadd32` (R255, R257). -/
def execFadd32 (q : Issue) (d a b c : GReg) (s : State) : Res := s.bankop q 3 d a b c
/-- `bfmax` (R255, R257). -/
def execBfmax (q : Issue) (d a b c : GReg) (s : State) : Res := s.bankop q 4 d a b c

/-- `rowcp` (R255, R258): gC[39:0] bytes from gB to gA. -/
def execRowcp (q : Issue) (d a b c : GReg) (s : State) : Res :=
  let t := s.cur
  let n := field (t.reg c) 39 0
  let x := (t.reg a).toNat
  let y := (t.reg b).toNat
  s.command q d [a, b, c] .cp (.rowcp x y n) (n = 0) [(y, n, .read), (x, n, .write)]

/-- `rowzero` (R255, R259): gB[39:0] bytes at gA. -/
def execRowzero (q : Issue) (d a b : GReg) (s : State) : Res :=
  let t := s.cur
  let n := field (t.reg b) 39 0
  let x := (t.reg a).toNat
  s.command q d [a, b] .cp (.rowzero x n) (n = 0) [(x, n, .write)]

end Sys2Proof.Machine
end

