-- ==== Sys2Proof/Machine/Stream.lean ====
section
/-! DEFINITION. Streams (07_element_storage.md R178 to R180; 08_sequencer.md R214, R215): the checks of a block, the
elements in visiting order, reading and writing them, and the order in which a region takes up a strand's commands. -/

namespace Sys2Proof.Machine

/-! ### The block's own fields (R178, R179, R214) -/

/-- The offset of the first reserved or illegal field of a block, in ascending order; 0x40 stands for the target. The
offsets are those by which R178 lists the fields. -/
def StreamSt.badField (b : StreamSt) (target : DWord) : Option Nat :=
  let w := b.window
  let kh := b.fld 0x34 19 16
  let kw := b.fld 0x34 23 20
  if w && b.word 0x0C != 0 then some 0x0C
  else if w && (b.cnt 2 * b.esz % 32 != 0 || decide (b.cnt 2 < kh * kw * b.fld 0x34 15 0)) then some 0x18
  else if w && b.word 0x1C != 0 then some 0x1C
  else if decide (5 < b.fld 0x28 15 13) || b.gate = 3 || b.fld 0x28 6 0 != 0 then some 0x28
  else if b.fld 0x2C 7 0 != 0 then some 0x2C
  else if w && (kh = 0 || kw = 0 || b.fld 0x34 27 24 = 0 || b.fld 0x34 31 28 = 0) then some 0x34
  else if b.fld 0x38 31 29 != 0 || (w && (b.fld 0x38 11 8 = 0 || b.fld 0x38 15 12 = 0)) then some 0x38
  else if b.word 0x3C != 0 then some 0x3C
  else if field target 63 9 != 0 then some 0x40
  else if b.toMem && (b.kind = 1 || b.kind = 3 || w) then some 0x28
  else none

/-- Elements of a stream (R179). -/
def StreamSt.count (b : StreamSt) : Nat := b.cnt 0 * b.cnt 1 * b.cnt 2 * b.cnt 3

/-- Tokens of a stream: the last is filled with zeros (R179). -/
def StreamSt.tokens (b : StreamSt) : Nat := (b.count + b.per - 1) / b.per

/-- DROW and DCOL of a block. -/
def StreamSt.dest (b : StreamSt) : Nat × Nat := (b.fld 0x2C 31 26, b.fld 0x2C 25 19)

/-- An address from an exact sum, as 64 bits. -/
def addr64 (x : Int) : Nat := (BitVec.ofInt 64 x).toNat

/-- The address of element j in linear mode (R179). -/
def StreamSt.linAddr (b : StreamSt) (j : Nat) : Nat :=
  let i1 := j / b.cnt 0
  let i2 := i1 / b.cnt 1
  let i3 := i2 / b.cnt 2
  addr64 (b.base + (j % b.cnt 0 : Nat) * b.str 0 + (i1 % b.cnt 1 : Nat) * b.str 1 + (i2 % b.cnt 2 : Nat) * b.str 2 +
    (i3 : Nat) * b.str 3)

/-- The address of element j in window mode, or none for a zero filled in (R179). -/
def StreamSt.winAddr (b : StreamSt) (j : Nat) : Option Nat :=
  let ic := b.fld 0x34 15 0
  let kw := b.fld 0x34 23 20
  let k := j % b.cnt 2
  let r := j / b.cnt 2
  let ow := r % b.cnt 0
  let oh := r / b.cnt 0 % b.cnt 1
  let n := r / b.cnt 0 / b.cnt 1
  if b.fld 0x34 19 16 * kw * ic ≤ k then none
  else
    let h : Int := (oh * b.fld 0x34 27 24 + k / ic / kw * b.fld 0x38 11 8 : Nat) - (b.fld 0x38 3 0 : Nat)
    let w : Int := (ow * b.fld 0x34 31 28 + k / ic % kw * b.fld 0x38 15 12 : Nat) - (b.fld 0x38 7 4 : Nat)
    if h < 0 || (b.fld 0x30 15 0 : Int) ≤ h || w < 0 || (b.fld 0x30 31 16 : Int) ≤ w then none
    else some (addr64 (b.base + n * b.str 3 + h * b.str 1 + (w * ic + (k % ic : Nat)) * b.esz))

/-- The address of element j. -/
def StreamSt.addr (b : StreamSt) (j : Nat) : Option Nat := if b.window then b.winAddr j else some (b.linAddr j)

/-- The elements of the next token: number and address. -/
def StreamSt.nextElems (b : StreamSt) : List (Nat × Option Nat) :=
  (List.range (min b.per (b.total - b.at_))).map fun i => (b.at_ + i, b.addr (b.at_ + i))

/-- Whether gating lets element j through (R180). -/
def StreamSt.open_ (b : StreamSt) (j : Nat) : Bool :=
  b.gate = 0 || (match b.gates with | t :: _ => t.getLsbD (j % 256) | [] => false)

/-- Whether the next token waits for its gate token. -/
def StreamSt.gateWait (b : StreamSt) : Bool := b.gate != 0 && b.gates.isEmpty

/-- A stream past some elements; a gate token whose 256 elements are over is dropped. -/
def StreamSt.past (b : StreamSt) (n : Nat) : StreamSt :=
  { b with at_ := b.at_ + n, gates := if (b.at_ + n) % 256 = 0 then b.gates.drop 1 else b.gates }

/-- The TLB of a stream's hem tile. -/
def StreamSt.tlb (b : StreamSt) : TlbUnit := .hem b.slot.die b.slot.side b.slot.tile

/-- The source number of a slot's packets in the row network. -/
def slotSrc (h : HemSlot) : Nat := 4096 + ((h.die * 2 + (if h.side = .east then 1 else 0)) * 32 + h.tile) * 8 + h.slot

/-! ### Memory of a stream -/

/-- Pieces of a range within pages, translated: (physical address, bytes, page); or the first fault with its address, an
uncorrected error that a read meets among them (R392). `noFault` says that a walk or the host is awaited (R241, R244). -/
def State.rangePieces (s : State) (u : TlbUnit) (c : Cmd) (acc : Access) (va n : Nat) :
    (List (Nat × Nat × PageAttr) ⊕ (Nat × Nat × Nat)) × State :=
  (pagesOf va n).foldl (fun (r : (List (Nat × Nat × PageAttr) ⊕ (Nat × Nat × Nat)) × State) p =>
    match r with
    | (.inr f, s) => (.inr f, s)
    | (.inl ps, s) =>
      let k := inPage va (va + n) p
      match s.translate (.cmd c.id) u c.ctx c.asid acc c.user c.task p k with
      | (.ok pa e, s1) =>
        (match s1.ownedIn (pageAttr e) pa k with
         | some a => (.inr (noFault, 0, p), s1.snoop a)
         | none =>
           if acc = .read && s1.spoilt (tlbDie u) none pa k then (.inr (0x16, 0, p), s1)
           else (.inl (ps ++ [(pa, k, pageAttr e)]), s1))
      | (.bad code det, s1) => (.inr (code, det, p), s1)
      | (.miss, s1) => (.inr (noFault, 0, p), s1)) (.inl [], s)

/-- The translated pieces of the elements of a token, element by element; those that gating shuts or that have no address
have none. -/
def State.elemPieces (s : State) (c : Cmd) (st : StreamSt) (acc : Access) :
    List (Nat × Option Nat) → (List (Option (Nat × List (Nat × Nat × PageAttr))) ⊕ (Nat × Nat × Nat)) × State
  | [] => (.inl [], s)
  | (j, a) :: rest =>
    let go (x : Option (Nat × List (Nat × Nat × PageAttr))) (s1 : State) :=
      match s1.elemPieces c st acc rest with
      | (.inl xs, s2) => (.inl (x :: xs), s2)
      | r => r
    match if st.open_ j then a else none with
    | none => go none s
    | some va =>
      match s.rangePieces st.tlb c acc va st.esz with
      | (.inl ps, s1) => go (some (va, ps)) s1
      | (.inr f, s1) => (.inr f, s1)

/-- The mark of a stream's accesses (R253). -/
def State.streamMark (s : State) (c : Cmd) (st : StreamSt) (page : PageAttr) : Mark := s.mark c.ctx (st.fld 0x28 21 16) false page

/-- An element's bytes read from the image of the hem tile's die. -/
def State.readPieces (s : State) (c : Cmd) (st : StreamSt) (ps : List (Nat × Nat × PageAttr)) : List Byte × State :=
  ps.foldl (fun (r : List Byte × State) p =>
    let s1 := r.2.touchRead st.slot.die p.1 p.2.1 (r.2.streamMark c st p.2.2)
    (r.1 ++ s1.bytesAt st.slot.die p.1 p.2.1, s1)) ([], s)

/-- The bytes of a token's elements, with zeros for those that have none. -/
def State.gather (s : State) (c : Cmd) (st : StreamSt) (xs : List (Option (Nat × List (Nat × Nat × PageAttr)))) :
    List Byte × State :=
  xs.foldl (fun (r : List Byte × State) x =>
    match x with
    | none => (r.1 ++ List.replicate st.esz 0, r.2)
    | some (_, ps) => let q := r.2.readPieces c st ps; (r.1 ++ q.1, q.2)) ([], s)

/-- Bytes to write, by physical address, put into one masked write for each 256-byte line (R76, R97). -/
def lineWrites (bs : List (Nat × Byte)) : List (Nat × List (Option Byte)) :=
  (bs.map fun b => b.1 / 256 * 256).eraseDups.map fun l =>
    let mine := bs.filter fun b => b.1 / 256 * 256 = l
    let lo := mine.foldl (fun a b => min a b.1) (l + 255)
    let hi := mine.foldl (fun a b => max a b.1) l
    (lo, (List.range (hi + 1 - lo)).map fun i => (mine.reverse.find? fun b => b.1 = lo + i).map Prod.snd)

/-- The addresses of a piece's bytes, with their values from a list. -/
def placed : List (Nat × Nat × PageAttr) → List Byte → List (Nat × Byte)
  | [], _ => []
  | (pa, n, _) :: rest, bs => ((List.range n).zip (bs.take n)).map (fun x => (pa + x.1, x.2)) ++ placed rest (bs.drop n)

/-- The page of a translated piece that a byte lies in. -/
def pieceAttr (ps : List (Nat × Nat × PageAttr)) (pa : Nat) : PageAttr :=
  ((ps.find? fun p => decide (p.1 ≤ pa) && decide (pa < p.1 + p.2.1)).map fun p => p.2.2).getD ⟨false, false, 0⟩

/-! ### The order of a strand's commands to its region (R215) -/

/-- Whether a command is one that a region takes up in issue order. -/
def CmdKind.toRegion : CmdKind → Bool
  | .strm _ _ _ => true
  | .cfgld _ _ _ => true
  | .gcall _ _ => true
  | .sweep _ _ => true
  | _ => false

/-- Whether an earlier command of a strand has not been taken up yet. -/
def State.behind (s : State) (c : Cmd) : Bool :=
  s.engs.cmds.any fun d => d.strand = c.strand && decide (d.id < c.id) && d.kind.toRegion && !d.began && d.ended.isNone

/-- Whether a command may begin (R88): its time has come and every event with an arc into its issue has performed. -/
def State.mayBegin (s : State) (c : Cmd) : Bool :=
  c.ended.isNone && !c.paused && decide (c.due ≤ s.cycle) && s.depsMet c.strand c.deps

/-! ### `strmc` (R215) -/

/-- A stream of a strand stopped: its tokens leave its slot, its handle reads done with the count; one that has ended keeps
its count. -/
def State.stopStream (s : State) (n id : Nat) : DWord × State :=
  match s.cmd id with
  | none => (BitVec.ofNat 64 (((s.strand n).handles.find? fun h => h.cmd = id).map Handle.count |>.getD 0), s)
  | some c =>
    if c.ended.isSome then (BitVec.ofNat 64 c.count, s)
    else
      let s1 := (s.closeStream c).endCmd id 0
      (BitVec.ofNat 64 ((s1.cmd id).map Cmd.count |>.getD 0), s1)

end Sys2Proof.Machine
end

