-- ==== Sys2Proof/Machine/SeqStream.lean ====
section
/-! DEFINITION. `strm`, `strmw` and `strmc` (08_sequencer.md R214, R215): the strand hands a block to a stream slot; the
checks and the tokens are STREAM_TOKEN_TRANSFER's. -/

namespace Sys2Proof.Machine

/-- `strm` (R214). -/
def execStrm (q : Issue) (d a b : GReg) (s : State) : Res :=
  s.command q d [a, b] .tl (.strm false (s.cur.reg a).toNat (s.cur.reg b)) false []

/-- `strmw` (R215): as `strm`, but it waits while the region is CHECKING or CONFIGURING. -/
def execStrmw (q : Issue) (d a b : GReg) (s : State) : Res :=
  s.command q d [a, b] .tl (.strm true (s.cur.reg a).toNat (s.cur.reg b)) false []

/-- `strmc` (R215): counts in LD; an expired handle gives 0, and one that reads done or fault the final count. -/
def execStrmc (q : Issue) (d a : GReg) (s : State) : Res :=
  let t := s.cur
  if t.awaits a || decide (32 ≤ t.outstanding .ld) then .next s.stall
  else
    let k : OpKind := match t.lookupHandle s.focus.strand (t.reg a) with
      | none => .value 0
      | some h => match h.st, h.kind with
        | .busy, .strm _ _ _ => .stop h.cmd
        | _, _ => .value (BitVec.ofNat 64 h.count)
    .next ((s.addOp k d .ld none false false true 0).done q 4 id)

end Sys2Proof.Machine
end

