-- ==== Sys2Proof/Machine/EvEngine.lean ====
section
/-! DEFINITION. Events of the engines: tokens of streams (07_element_storage.md R178 to R180; 08_sequencer.md R214, R215),
sectors of `copy` and `fill` (R216), of `bankop`, and rows (10_pages.md R255 to R260). -/

namespace Sys2Proof.Machine

/-! ### Streams -/

/-- A stream command taken up (R215): the hem tile receives it, behind the streams that it holds already. -/
def State.receive (s : State) (c : Cmd) (st : StreamSt) : State :=
  let rest := s.engs.cmds.filter fun d => d.id != c.id
  { s with engs := { s.engs with cmds := rest ++ [{ c with began := true, strm := some st }] } }

/-- The block at an address, through a hem tile's TLB, read with stream id 63 (R253): its words, or the fault. -/
def State.readBlock (s : State) (u : TlbUnit) (c : Cmd) (va : Nat) : (List Word ⊕ (Nat × Nat × Nat)) × State :=
  match s.rangePieces u c .read va 64 with
  | (.inr f, s1) => (.inr f, s1)
  | (.inl ps, s1) =>
    let s2 := ps.foldl (fun s p => s.touchRead (tlbDie u) p.1 p.2.1 (s.mark c.ctx 63 false p.2.2)) s1
    let bs := ps.flatMap fun p => s2.bytesAt (tlbDie u) p.1 p.2.1
    (.inl ((List.range 16).map fun i => BitVec.ofNat 32 (leNat ((bs.drop (4 * i)).take 4))), s2)

/-- The channel that a block's tokens enter: the plane's for KIND 0, i2 for KIND 3 (R264, R178). -/
def StreamSt.chan (b : StreamSt) : Nat := if b.kind = 3 then 2 else b.fld 0x28 10 10

/-- The checks of R214 that need the region: code and DETAIL of the first that fails. The block's SHAPE is held against the
declarations of its destination, kind and channel (R269). -/
def StreamSt.unfit (b : StreamSt) (g : Region) (decls : List StreamDecl) (pair : Nat) : Option (Nat × Nat) :=
  let shapes := (decls.filter fun d => d.row = b.dest.1 && d.col = b.dest.2 && d.kind = b.kind && d.ch = b.chan).map StreamDecl.shape
  let dest : ElemId := ⟨g.die, g.row0 + b.dest.1, g.col0 + b.dest.2⟩
  if !b.toMem && (b.kind = 0 || b.kind = 3) && !shapes.isEmpty && !(shapes.contains ((b.word 0x28).extractLsb' 16 16)) then
    some (0x13, 0x28)
  else if 4 * g.trows ≤ 2 * pair then some (0x1C, 0)
  else if b.kind = 0 && (if b.slot.side = .west then g.tcol != 0 else g.tcol + g.tcols != 20) then some (0x1C, 32)
  else if b.kind != 0 && (!g.holds dest || (b.kind != 2 && isM dest)) then some (0x1C, 0x2C)
  else if b.kind = 2 && decide (Config.scratchBytes < 16 * b.fld 0x38 28 16 + 32 * b.tokens) then some (0x0F, 0x38)
  else none

/-- A region violation by an engine command (R225): recorded, and the command paused at the sector. -/
def State.violateCmd (s : State) (c : Cmd) (mkind who det addr : Nat) : State :=
  (s.post c.ctx c.die c.asid (recordWords 0x09 0 mkind (c.unit / 64) who c.asid 0 c.ctx det (BitVec.ofNat 64 addr)
    (s.cmdHandle c))).pauseCmd c true

/-- Whether the configuration in force is that of a callee: its region stays RUNNING for the caller's commands (R281). -/
def Region.configuresCallee (g : Region) : Bool :=
  g.st = .configuring && (match g.levels with | lv :: _ => (match lv.kind with | .call _ _ _ => true | _ => false) | [] => false)

/-- A stream command at the moment its region takes it up (R214, R215; logs 105, 106). A region violation of its block pauses it
(R225). -/
def State.takeStream (s : State) (c : Cmd) (wait : Bool) (block : Nat) (target : DWord) : State :=
  if !s.mayBegin c || s.behind c then s
  else
    let g? := (s.bound c.strand).filter fun g => (s.seenAs c.strand g).2 = c.ctx
    let st? := g?.map fun g => if g.configuresCallee && g.strand = some c.strand then RegionState.running else (s.seenAs c.strand g).1
    if wait && (st? = some .checking || st? = some .configuring) then s
    else
      let side : Side := if target.getLsbD 5 then .east else .west
      let pair := field target 4 0
      let h : HemSlot := ⟨(g?.map Region.die).getD c.die, side, ((g?.map fun g => g.row0 / 2).getD 0 + pair) % 32, field target 8 6⟩
      let fail (s : State) (code det : Nat) (addr : Nat) : State := s.failCmd c.id code 0 3 (whoHem h) det (BitVec.ofNat 64 addr)
      if block % 64 != 0 then fail s 0x03 0 block
      else match s.readBlock (.hem h.die h.side h.tile) c block with
        | (.inr f, s1) =>
          if f.1 = noFault then s.retry s1
          else if f.1 = 0x09 then s1.violateCmd c 3 (whoHem h) f.2.1 f.2.2
          else fail s1 f.1 f.2.1 f.2.2
        | (.inl ws, s1) =>
          let b : StreamSt := ⟨h, ws, (g?.map Region.id).getD 0, (g?.map fun g => g.levels.length).getD 0, 0, 0, [], false, false⟩
          match b.badField target with
          | some off => fail s1 0x13 off 0
          | none =>
            match g? with
            | none => fail s1 0x1C 0 0
            | some g =>
              if st? != some .running then fail s1 0x1C 0 0
              else match b.unfit g (((if g.configuresCallee then g.next else g.info).map LoadInfo.decls).getD []) pair with
                | some f => fail s1 f.1 f.2 0
                | none => s1.receive { c with unit := g.die * 64 } { b with total := b.count }

/-- A slot's next stream begins to run once no other holds the slot (R214). -/
def State.startStream (s : State) (c : Cmd) (st : StreamSt) : State :=
  let inSlot (d : Cmd) : Bool := d.ended.isNone && (match d.strm with | some t => t.slot = st.slot | none => false)
  match s.engs.cmds.find? inSlot with
  | some d => if d.id = c.id then s.modCmd c.id fun d => { d with strm := d.strm.map fun t => { t with started := true } } else s
  | none => s

/-- A stream past its next elements. -/
def State.pastElems (s : State) (c : Cmd) (n : Nat) : State :=
  s.modCmd c.id fun d => { d with strm := d.strm.map fun t => t.past n }

/-- Whether packets of a slot are still in the row network. -/
def State.inNetwork (s : State) (h : HemSlot) : Nat := (s.fab.packets.filter fun p => p.src = slotSrc h).length

/-- A region violation by a stream (R225): recorded once, and the region freezes; the token moves after the thaw. -/
def State.violateStream (s : State) (c : Cmd) (st : StreamSt) (g : Region) (det addr : Nat) : State :=
  ((s.post c.ctx g.die c.asid (recordWords 0x09 0 3 g.die (whoHem st.slot) c.asid 0 c.ctx det (BitVec.ofNat 64 addr)
    (s.cmdHandle c))).raiseWave g.id .freeze).markFrozen g.ctx 1 g.die g.id

/-- A fault of a stream at its next token (R214): elements already in its slot or the network are delivered first. -/
def State.streamFault (s : State) (c : Cmd) (st : StreamSt) (g : Region) (f : Nat × Nat × Nat) : State :=
  if f.1 = noFault then s
  else if f.1 = 0x09 then s.violateStream c st g f.2.1 f.2.2
  else if !st.toMem && (!(s.slotToks st.slot).isEmpty || s.inNetwork st.slot != 0) then s
  else s.failStream c f.1 (if st.at_ = 0 then 0 else flagPartial) f.2.1 (BitVec.ofNat 64 f.2.2)

/-- A site-fill token's bytes as one packet for each sector of 64 bytes of virtual memory that it touches (R180). An element that
gating shuts brings zeros. -/
def State.sendSectors (s : State) (st : StreamSt) (dst : ElemId) (no : SiteNo)
    (xs : List (Nat × Option Nat)) (bytes : List Byte) : State :=
  let at_ : List (Nat × Byte) := xs.zipIdx.flatMap fun x => match x.1.2 with
    | some va => ((bytes.drop (x.2 * st.esz)).take st.esz).zipIdx.map fun q => (va + q.2, q.1)
    | none => []
  ((at_.map fun q => q.1 / 64 * 64).eraseDups).foldl (fun s sec =>
    let bs := (List.range 64).map fun i => (at_.reverse.find? fun q => q.1 = sec + i).map Prod.snd
    s.sendRow dst (slotSrc st.slot) false (.site no sec bs) 0 none none st.level) s

/-- The destination of a block in its region. -/
def StreamSt.elem (b : StreamSt) (g : Region) : ElemId := ⟨g.die, g.row0 + b.dest.1, g.col0 + b.dest.2⟩

/-- Whether every address of a site-fill token lies in the window of its site. -/
def State.inWindow (s : State) (dst : ElemId) (no : SiteNo) (xs : List (Nat × Option Nat)) (esz : Nat) : Bool :=
  match (s.elem dst).pl.site no with
  | none => false
  | some t => xs.all fun x => match x.2 with
    | some va => decide (t.base ≤ va) && decide (va + esz ≤ t.base + t.extent)
    | none => true

/-- A token on its way out of a hem tile (R180): into the slot for a plane, or over the row network. -/
def State.sendToken (s : State) (st : StreamSt) (g : Region) (elems : List (Nat × Option Nat)) (bytes : List Byte) : State :=
  let tok : Token := ⟨BitVec.ofNat 256 (leNat bytes), st.tag, false⟩
  let dst := st.elem g
  let src := slotSrc st.slot
  match st.kind with
  | 0 => s.setSlot st.slot (s.slotToks st.slot ++ [⟨tok, s.cycle⟩])
  | 1 => s.sendSectors st dst (BitVec.ofNat 6 (st.fld 0x2C 16 11)) elems bytes
  | 2 => s.sendRow dst src false (.scratch (16 * st.fld 0x38 28 16 + 32 * (st.at_ / st.per)) tok) 0 none none st.level
  | _ => s.sendRow dst src false (.queue 2 tok) 0 none none st.level

/-- Whether a token that a stream has put on the fabric has not been delivered yet (R214): it stands in its slot, in the row
network, or in a hop register. -/
def State.undelivered (s : State) (c : Cmd) (st : StreamSt) (g : Region) : Bool :=
  !(s.slotToks st.slot).isEmpty || s.inNetwork st.slot != 0 ||
  g.elems.any fun e => (s.elem e).pl.hops.toList.any fun h => (h.map HopEntry.cmd) = some c.id

/-- One token from memory (R179, R180); none once the load ends (R175). A site fill outside its window, or of a site that the element has not bound,
faults. -/
def State.streamOut (s : State) (c : Cmd) (st : StreamSt) (g : Region) : State :=
  if st.total ≤ st.at_ then
    (if s.undelivered c st g then s else (s.modCmd c.id fun d => { d with count := st.total }).endCmd c.id 0)
  else if st.gateWait || g.ending || decide (16 ≤ (s.slotToks st.slot).length + s.inNetwork st.slot) then s
  else
    let elems := st.nextElems
    if st.kind = 1 && !s.inWindow (st.elem g) (BitVec.ofNat 6 (st.fld 0x2C 16 11)) elems st.esz then
      s.streamFault c st g (if ((s.elem (st.elem g)).pl.site (BitVec.ofNat 6 (st.fld 0x2C 16 11))).isSome then (0x0F, 0, 0)
        else (0x1C, 0x2C, 0))
    else match s.elemPieces c st .read elems with
      | (.inr f, s1) => if f.1 = noFault then s.retry s1 else s1.streamFault c st g f
      | (.inl xs, s1) =>
        let r := s1.gather c st xs
        (r.2.sendToken st g elems r.1).pastElems c elems.length

/-- The token that a stream to memory takes next: from its slot, or from two full granules of scratch (R180). -/
def State.nextToken (s : State) (st : StreamSt) (g : Region) : Option Data256 :=
  if st.kind = 0 then
    (match s.slotToks st.slot with
     | x :: _ => if x.at_ < s.cycle then some x.tok.data else none
     | [] => none)
  else
    let k := st.fld 0x38 28 16 + 2 * (st.at_ / st.per)
    let v := s.elem (st.elem g)
    if v.full.contains k && v.full.contains (k + 1) then some (BitVec.ofNat 256 (leNat (readN v.scr (16 * k) 32))) else none

/-- The token taken. -/
def State.dropToken (s : State) (st : StreamSt) (g : Region) : State :=
  if st.kind = 0 then s.setSlot st.slot ((s.slotToks st.slot).drop 1)
  else
    let k := st.fld 0x38 28 16 + 2 * (st.at_ / st.per)
    s.modElem (st.elem g) fun v => { v with full := v.full.filter fun x => !(x = k || x = k + 1) }

/-- One token to memory (R179, R180): its elements that gating lets through are written. -/
def State.streamIn (s : State) (c : Cmd) (st : StreamSt) (g : Region) : State :=
  if st.total ≤ st.at_ then (s.modCmd c.id fun d => { d with count := st.total }).endCmd c.id 0
  else if st.gateWait then s
  else match s.nextToken st g with
    | none => s
    | some data =>
      let off := 16 * (st.fld 0x38 28 16 + 2 * (st.at_ / st.per))
      if st.kind = 2 && (s.elem (st.elem g)).meetsSpoilt off 32 then s.streamFault c st g (0x16, 0, off) else
      let elems := st.nextElems
      match s.elemPieces c st .write elems with
      | (.inr f, s1) => if f.1 = noFault then s.retry s1 else s1.streamFault c st g f
      | (.inl xs, s1) =>
        let bytes := toBytes 32 data.toNat
        let out := xs.zipIdx.flatMap fun x => match x.1 with
          | some (_, ps) => placed ps ((bytes.drop (x.2 * st.esz)).take st.esz)
          | none => []
        let pieces := xs.flatMap fun x => match x with | some (_, ps) => ps | none => []
        let s2 := (lineWrites out).foldl (fun s w =>
          s.performWrite st.slot.die w.1 w.2 (s.streamMark c st (pieceAttr pieces w.1)) false) s1
        (s2.dropToken st g).pastElems c elems.length

/-- STREAM_TOKEN_TRANSFER (R179): a stream command is taken up, begins in its slot, or moves its next token. -/
def execStreamTokenTransfer (cmd : Nat) (s : State) : Res :=
  match s.cmd cmd with
  | none => .next s
  | some c =>
    match c.kind, c.strm with
    | .strm wait block target, none => .next (s.takeStream c wait block target)
    | .strm _ _ _, some st =>
      if c.ended.isSome || c.paused then .next s
      else if !st.started then .next (s.startStream c st)
      else match s.region st.region with
        | none => .next s
        | some g =>
          if st.paused || g.wave.isSome || !(g.st = .running || g.st = .ended) || g.levels.length != st.level then .next s
          else if st.toMem then .next (s.streamIn c st g)
          else .next (s.streamOut c st g)
    | _, _ => .next s

/-! ### `copy` and `fill` (R216) -/

/-- A sector of `copy` or `fill` that fails ends the command with PARTIAL and the first failing address (R216). -/
def State.copyFault (s : State) (c : Cmd) (f : Nat × Nat × Nat) : State :=
  if f.1 = 0x09 then s.violateCmd c 4 0 f.2.1 f.2.2
  else s.failCmd c.id f.1 flagPartial 4 0 f.2.1 (BitVec.ofNat 64 f.2.2)

/-- One destination sector of a command with a source or a pattern (R216): reads, then one masked write. -/
def State.copyStep (s : State) (c : Cmd) (dst len : Nat) (src : Option Nat) (pat : DWord) : State :=
  if len ≤ c.at_ then s.endCmd c.id 0
  else
    let a := dst + c.at_
    let n := min (64 - a % 64) (len - c.at_)
    let r := match src with
      | some b => s.rangePieces (.engine c.die) c .read (b + c.at_) n
      | none => (.inl [], s)
    match r with
    | (.inr f, s1) => if f.1 = noFault then s.retry s1 else s1.copyFault c f
    | (.inl ps, s1) =>
      match s1.rangePieces (.engine c.die) c .write a n with
      | (.inr f, s2) => if f.1 = noFault then s.retry s2 else s2.copyFault c f
      | (.inl qs, s2) =>
        let s3 := ps.foldl (fun s p => s.touchRead c.die p.1 p.2.1 (s.mark c.ctx 63 false p.2.2)) s2
        let bytes := match src with
          | some _ => ps.flatMap fun p => s3.bytesAt c.die p.1 p.2.1
          | none => (List.range n).map fun i => pat.extractLsb' (8 * ((a + i) % 8)) 8
        let s4 := (lineWrites (placed qs bytes)).foldl (fun s w =>
          s.performWrite c.die w.1 w.2 (s.mark c.ctx 63 false (pieceAttr qs w.1)) false) s3
        let s5 := s4.modCmd c.id fun d => { d with began := true, at_ := d.at_ + n }
        if len ≤ c.at_ + n then s5.endCmd c.id 0 else s5

/-- COPY_SECTOR (R216). -/
def execCopySector (cmd : Nat) (s : State) : Res :=
  match s.cmd cmd with
  | none => .next s
  | some c =>
    if !s.mayBegin c then .next s
    else match c.kind with
      | .copy dst src len => .next (s.copyStep c dst len (some src) 0)
      | .fill dst len pat => .next (s.copyStep c dst len none pat)
      | _ => .next s

/-! ### Memory-side units (R255 to R260) -/

/-- A page of a range of a memory-side command: the access, its first byte and its bytes, with its entry, or the code and
DETAIL of its failure where it has none. -/
abbrev UnitPage := Access × Nat × Nat × (TlbEntry ⊕ (Nat × Nat))

/-- The entry that a command's access uses for an address (R244, R248). -/
def State.entryFor (s : State) (c : Cmd) (va : Nat) : Option TlbEntry :=
  ((s.accepted (.cmd c.id) va).orElse fun _ => s.tlbFind (.engine c.die) c.asid va).orElse fun _ =>
    (s.answer? (.cmd c.id) c.asid va).bind WalkResult.entry

/-- The pages of a range at the engine TLB, or none while a walk is awaited. -/
def State.unitPages (s : State) (c : Cmd) (acc : Access) (va n : Nat) : Option (List UnitPage) × State :=
  (pagesOf va n).foldl (fun (r : Option (List UnitPage) × State) p =>
    let k := inPage va (va + n) p
    match s.translate (.cmd c.id) (.engine c.die) c.ctx c.asid acc c.user c.task p k with
    | (.miss, _) => (none, (r.2.translate (.cmd c.id) (.engine c.die) c.ctx c.asid acc c.user c.task p k).2)
    | (.ok _ e, _) => (r.1.map fun xs => xs ++ [(acc, p, k, .inl e)], r.2)
    | (.bad code det, _) =>
      (r.1.map fun xs => xs ++ [(acc, p, k,
        if code = absentCode acc then .inr (code, det) else match s.entryFor c p with | some e => .inl e | none => .inr (code, det))], r.2))
    (some [], s)

/-- The first failing check of R256 over all pages, in the order of its table, then that of R378: code, DETAIL, address. -/
def State.unitCheck (s : State) (c : Cmd) (xs : List UnitPage) : Option (Nat × Nat × Nat) :=
  let on (code : Nat) (x : UnitPage) : Option (Nat × Nat × Nat) :=
    match x.2.2.2 with
    | .inl e => (match s.linked c.die (s.check e x.1 c.user c.task x.2.1 x.2.2.1) with
      | .bad k det => if k = code then some (code, det, x.2.1) else none
      | _ => none)
    | .inr _ => none
  let absent (x : UnitPage) : Option (Nat × Nat × Nat) :=
    match x.2.2.2 with
    | .inr f => some (f.1, f.2, x.2.1)
    | .inl _ => none
  let linear (x : UnitPage) : Option (Nat × Nat × Nat) :=
    match x.2.2.2 with
    | .inl e => if leafCl e.leaf then none else some (0x08, 1, x.2.1)
    | .inr _ => none
  let channels := (xs.filterMap fun x => match x.2.2.2 with
    | .inl e => some (msuOf (leafFrame e.leaf))
    | .inr _ => none).eraseDups
  (xs.findSome? absent).orElse fun _ => (xs.findSome? (on 0x1A)).orElse fun _ => (xs.findSome? (on 0x08)).orElse fun _ =>
    (xs.findSome? linear).orElse fun _ =>
    if 1 < channels.length then some (0x08, 2, 0) else (xs.findSome? (on 0x09)).orElse fun _ => xs.findSome? (on 0x17)

/-- The ranges of a memory-side command, sources first, and its unit of transfer. -/
def CmdKind.unitRanges : CmdKind → List (Nat × Access) × Nat × Nat
  | .bankop _ d a b n => ([(a, .read), (b, .read), (d, .write)], n, 64)
  | .rowcp d a n => ([(a, .read), (d, .write)], n, 2048)
  | .rowzero d n => ([(d, .write)], n, 2048)
  | _ => ([], 0, 1)

/-- A memory-side command as its unit takes it (R256): every page is translated, and the checks are made, before any sector; one
that resumes translates what remains (R249). -/
def State.unitBegin (s : State) (c : Cmd) : State :=
  let r := c.kind.unitRanges
  match if r.2.1 % r.2.2 != 0 then some 0 else (r.1.find? fun x => x.1 % r.2.2 != 0).map Prod.fst with
  | some a => s.failCmd c.id 0x03 0 5 0 0 (BitVec.ofNat 64 a)
  | none =>
    let p := r.1.foldl (fun (p : Option (List UnitPage) × State) x =>
      let q := p.2.unitPages c x.2 (x.1 + c.at_) (r.2.1 - c.at_)
      (p.1.bind fun xs => q.1.map fun ys => xs ++ ys, q.2)) (some [], s)
    match p.1 with
    | none => s.retry p.2
    | some xs =>
      let es := xs.filterMap fun x => match x.2.2.2 with | .inl e => some e | .inr _ => none
      let unit := (es.head?.map fun e => msuOf (leafFrame e.leaf)).getD 0
      match s.unitCheck c xs with
      | some f =>
        if f.1 = 0x09 then s.violateCmd c 5 (unit % 64) f.2.1 f.2.2
        else s.failCmd c.id f.1 (if c.at_ = 0 then 0 else flagPartial) 5 (unit % 64) f.2.1 (BitVec.ofNat 64 f.2.2)
      | none => s.modCmd c.id fun d => { d with began := true, pages := es, unit := unit }

/-- The physical address of a byte of a command under the entries it was taken with. -/
def Cmd.paOf (c : Cmd) (va : Nat) : Option (Nat × PageAttr) :=
  (c.pages.find? fun e => decide (e.va ≤ va) && decide (va < e.va + e.size)).map fun e =>
    (leafFrame e.leaf + (va - e.va), pageAttr e)

/-- The operation of a `bankop` on a word (R257): two BF16 elements, or one of 32 bits. -/
def bankWord (sub : Nat) (a b : Word) : Word :=
  match sub with
  | 0 => packedAdd fmtBf16 a b 0
  | 1 => packedMul fmtBf16 a b 0
  | 2 => a + b
  | 3 => addF32 a b
  | _ => packed2 (fun x y _ => fminmax fmtBf16 true x y) a b 0

/-- A sector's result, word by word. -/
def bankSectorBytes (sub : Nat) (a b : List Byte) : List Byte :=
  (List.range 16).flatMap fun i => toBytes 4
    (bankWord sub (BitVec.ofNat 32 (leNat ((a.drop (4 * i)).take 4))) (BitVec.ofNat 32 (leNat ((b.drop (4 * i)).take 4)))).toNat

/-- A command on memory-side units past some bytes of its count. -/
def State.unitPast (s : State) (c : Cmd) (n len : Nat) : State :=
  let s1 := s.modCmd c.id fun d => { d with at_ := d.at_ + n }
  if len ≤ c.at_ + n then s1.endCmd c.id 0 else s1

/-- Whether a memory-side unit that reads a range of DRAM meets an uncorrected error (R392). -/
def State.spoiltDram (s : State) (pa n : Nat) : Bool :=
  s.mem.poison.any fun x => (match x.1 with | .msu .. => true | .dram .. => true | _ => false) && overlaps x.2 4 pa n

/-- An uncorrected error that a memory-side command meets (R256). -/
def State.unitSpoilt (s : State) (c : Cmd) (va : Nat) : State :=
  s.failCmd c.id 0x16 flagPartial 5 (c.unit % 64) 0 (BitVec.ofNat 64 va)

/-- One sector of a `bankop`: its sources are read from DRAM, the destination written there (R90, R257, R407). -/
def State.bankStep (s : State) (c : Cmd) (sub d a b len : Nat) : State :=
  match c.paOf (a + c.at_), c.paOf (b + c.at_), c.paOf (d + c.at_) with
  | some x, some y, some z =>
    match [x, y, z].find? fun p => s.snoopFirst p.2 p.1 with
    | some p => s.snoop p.1
    | none =>
      if s.spoiltDram x.1 64 then s.unitSpoilt c (a + c.at_)
      else if s.spoiltDram y.1 64 then s.unitSpoilt c (b + c.at_)
      else
        let out := bankSectorBytes sub (s.dramUnder x.1 64 (s.keyIn x.2.key)) (s.dramUnder y.1 64 (s.keyIn y.2.key))
        (s.msuWrite z.1 (out.map some) (s.keyIn z.2.key)).unitPast c 64 len
  | _, _, _ => s.modCmd c.id fun d => { d with began := false }

/-- BANK_SECTOR (R257). -/
def execBankSector (cmd : Nat) (s : State) : Res :=
  match s.cmd cmd with
  | none => .next s
  | some c =>
    if !s.mayBegin c then .next s
    else match c.kind with
      | .bankop sub d a b n => .next (if c.began && !c.pages.isEmpty then s.bankStep c sub d a b n else s.unitBegin c)
      | _ => .next s

/-- A row of 2,048 bytes of DRAM read under a key. -/
def State.rowUnder (s : State) (pa : Nat) (key : Option (Nat × Nat)) : List Byte :=
  (List.range 32).flatMap fun k => s.dramUnder (pa + 64 * k) 64 key

/-- A row written, sector by sector (R97, R258). -/
def State.putRow (s : State) (pa : Nat) (bs : List Byte) (key : Option (Nat × Nat)) : State :=
  (List.range 32).foldl (fun s k => s.msuWrite (pa + 64 * k) (((bs.drop (64 * k)).take 64).map some) key) s

/-- One row of `rowcp` or `rowzero` (R258, R259): the source row is read before the destination row is written. The zero
row of a subarray takes the key index of the page. -/
def State.rowStep (s : State) (c : Cmd) (d : Nat) (src : Option Nat) (len : Nat) : State :=
  match c.paOf (d + c.at_), src.map fun a => (a, c.paOf (a + c.at_)) with
  | some z, none =>
    (match s.ownedIn z.2 z.1 2048 with
     | some a => s.snoop a
     | none =>
       let sub := ((dramKey z.1).getD 0) >>> 21
       let s1 := s.modMem fun t => { t with rowKeys := insertD t.rowKeys sub z.2.key }
       (s1.putRow z.1 (List.replicate 2048 0) (s.keyIn z.2.key)).unitPast c 2048 len)
  | some z, some (a, some x) =>
    (match (s.ownedIn x.2 x.1 2048).orElse fun _ => s.ownedIn z.2 z.1 2048 with
     | some p => s.snoop p
     | none =>
       if s.spoiltDram x.1 2048 then s.unitSpoilt c (a + c.at_)
       else (s.putRow z.1 (s.rowUnder x.1 (s.keyIn x.2.key)) (s.keyIn z.2.key)).unitPast c 2048 len)
  | _, _ => s.modCmd c.id fun d => { d with began := false }

/-- ROW_TRANSFER (R258, R259). -/
def execRowTransfer (cmd : Nat) (s : State) : Res :=
  match s.cmd cmd with
  | none => .next s
  | some c =>
    if !s.mayBegin c then .next s
    else
      let ready := c.began && !c.pages.isEmpty
      match c.kind with
      | .rowcp d a n => .next (if ready then s.rowStep c d (some a) n else s.unitBegin c)
      | .rowzero d n => .next (if ready then s.rowStep c d none n else s.unitBegin c)
      | _ => .next s

end Sys2Proof.Machine
end

