-- ==== Sys2Proof/Machine/SeqCmo.lean ====
section
/-! DEFINITION. Cache maintenance and eviction schedules (08_sequencer.md R213, R217; 10_pages.md R253). -/

namespace Sys2Proof.Machine

/-- A range rounded outward to 64-byte sectors: first byte and length (R213). -/
def roundSectors (a n : Nat) : Nat × Nat := (a / 64 * 64, (a + n + 63) / 64 * 64 - a / 64 * 64)

/-- A `cmo` other than `pref` (R213): a length of 0 completes at issue; else it is outstanding in class ST. -/
def State.cmo (s : State) (q : Issue) (sub : Nat) (a b : GReg) : Res :=
  let t := s.cur
  let va := (t.reg a).toNat
  let n := field (t.reg b) 39 0
  if t.awaits a || t.awaits b || decide (32 ≤ t.outstanding .st) then .next s.stall
  else if sub = 3 && (va % 64 != 0 || n % 64 != 0) then .next (s.trap 0x03 (t.reg a) 0)
  else if n = 0 then .next (s.done q 4 id)
  else .next ((s.addOp (.cmo sub (!t.sup) va n) 0 .st none false false false va).done q 4 id)

/-- `clean` (R213). -/
def execClean (q : Issue) (a b : GReg) (s : State) : Res := s.cmo q 0 a b
/-- `inval` (R213). -/
def execInval (q : Issue) (a b : GReg) (s : State) : Res := s.cmo q 1 a b
/-- `flush` (R213). -/
def execFlush (q : Issue) (a b : GReg) (s : State) : Res := s.cmo q 2 a b
/-- `discard` (R213): address and length must be multiples of 64. -/
def execDiscard (q : Issue) (a b : GReg) (s : State) : Res := s.cmo q 3 a b

/-- The lines of one page's part of a range fetched into a die (R213). Lines that the host holds are left to it: the snoop goes
out, and nothing is fetched (R241; log 91). -/
def State.fetchLines (s : State) (d : Nat) (ctx : BitVec 10) (pa n : Nat) (page : PageAttr) : State :=
  match s.ownedIn page pa n with
  | some line => s.snoop line
  | none => s.touchRead d (pa / 256 * 256) ((pa + n + 255) / 256 * 256 - pa / 256 * 256) (s.mark ctx 63 false page)

/-- One page's part of a range prefetched (R213): a miss goes on when its walk ends; a page that fails its checks is passed over,
since `pref` never faults. -/
def State.prefPage (s : State) (va n : Nat) : State :=
  let t := s.cur
  match s.translate (.pref s.focus.strand (!t.sup) t.task va n) (tlbOf s.focus.strand) t.ctx t.asid .read (!t.sup) t.task va n with
  | (.ok pa e, s1) => s1.fetchLines s1.curDie t.ctx pa n (pageAttr e)
  | (_, s1) => s1

/-- `pref` (R213): no class, no wait, no fault. -/
def execPref (q : Issue) (a b : GReg) (s : State) : Res :=
  if s.cur.awaits a || s.cur.awaits b then .next s.stall
  else
    let r := roundSectors (s.cur.reg a).toNat (field (s.cur.reg b) 39 0)
    let ps := if field (s.cur.reg b) 39 0 = 0 then [] else pagesOf r.1 r.2
    .next ((ps.foldl (fun s p => s.prefPage p (inPage r.1 (r.1 + r.2) p)) s).done q 4 id)

/-- `phase` (R217): advances the release phase of schedule gA[5:0]; counts in ST. -/
def execPhase (q : Issue) (a : GReg) (s : State) : Res :=
  if s.cur.awaits a || decide (32 ≤ s.cur.outstanding .st) then .next s.stall
  else .next ((s.addOp (.phase (field (s.cur.reg a) 5 0)) 0 .st none false false false 0).done q 4 id)

/-- `evsch` (R217, supervisor): loads the table at gA as schedule gB[5:0]; counts in ST. The table is translated as a
read at issue and must be aligned to 256 (R253; log 15). -/
def execEvsch (q : Issue) (a b : GReg) (s : State) : Res :=
  let t := s.cur
  if !t.sup then .next s.trapPriv
  else if t.awaits a || t.awaits b || decide (32 ≤ t.outstanding .st) then .next s.stall
  else
    let va := t.reg a
    if va.toNat % 256 != 0 then .next (s.trap 0x03 va 0)
    else match s.curTranslate .read va.toNat 256 with
      | .miss => .next (s.curWalk va.toNat)
      | .bad c det => .next (s.memFault c det va 3 false)
      | .ok pa e => .next ((s.addOp (.evsch (field (t.reg b) 5 0) pa (pageAttr e)) 0 .st none false false false va.toNat).done q 4 id)

end Sys2Proof.Machine
end

