-- ==== Sys2Proof/Machine/SeqCsr.lean ====
section
/-! DEFINITION. The control registers and `csrr`, `csrw`, `csrs`, `csrc` (08_sequencer.md R195 to R198, R208, R218). -/

namespace Sys2Proof.Machine

/-- HERE of a strand (R17). -/
def hereOf (n : Nat) : DWord := BitVec.ofNat 64 (n % 4 * 128 + n / 4 % 16 * 8 + n / 64)

/-- TIME on a die (R195): ticks of 10 ns since the start; the dies agree to within one tick (log 3). -/
def State.time (s : State) (d : Nat) : DWord :=
  BitVec.ofNat 64 ((s.cycle + Config.timePhase d % Config.tickCycles) / Config.tickCycles)

/-- OCNT (R198). -/
def Strand.ocnt (t : Strand) : DWord :=
  BitVec.ofNat 64 (t.outstanding .bk % 64 * 2 ^ 32 + t.outstanding .tl % 64 * 2 ^ 24 + t.outstanding .cp % 64 * 2 ^ 16 +
    t.outstanding .st % 64 * 2 ^ 8 + t.outstanding .ld % 64)

/-- LCNT of an entry (R208). -/
def Strand.lcnt (t : Strand) (k : Nat) : DWord :=
  match t.loops[k]? with
  | some e => e.count.setWidth 64
  | none => 0

/-- The value of a control register as the acting strand reads it (R195). -/
def State.csrRead (s : State) (n : Nat) : DWord :=
  let t := s.cur
  match n with
  | 0x000 => t.status
  | 0x001 => t.epc
  | 0x002 => t.ecause
  | 0x003 => t.eaddr
  | 0x004 => t.einfo
  | 0x005 => t.tvec
  | 0x006 => t.scratch
  | 0x010 => hereOf s.focus.strand
  | 0x011 => t.ctx.setWidth 64
  | 0x012 => t.asid.setWidth 64
  | 0x013 => t.prio.setWidth 64
  | 0x020 => BitVec.ofNat 64 s.cycle
  | 0x021 => s.time s.curDie
  | 0x022 => t.ocnt
  | 0x030 => t.lcnt 0
  | 0x031 => t.lcnt 1
  | 0x032 => t.lcnt 2
  | 0x033 => t.lcnt 3
  | 0x034 => BitVec.ofNat 64 t.ldepth
  | 0x040 => t.faultq
  | 0x041 => t.probecyc.setWidth 64
  | _ => 0

/-- STATUS as a write leaves it (R196): PRV and reserved bits keep their values. -/
def writeStatus (old v : DWord) : DWord := (v &&& 0xFD60) ||| (old &&& 0x80)

/-- A control register written (R195): bits that are zero or reserved ignore writes, PROBECYC is clamped. -/
def Strand.csrWrite (t : Strand) (n : Nat) (v : DWord) : Strand :=
  match n with
  | 0x000 => { t with status := writeStatus t.status v }
  | 0x001 => { t with epc := v }
  | 0x002 => { t with ecause := v &&& 0xE0FF }
  | 0x003 => { t with eaddr := v }
  | 0x004 => { t with einfo := v }
  | 0x005 => { t with tvec := v &&& ~~~3#64 }
  | 0x006 => { t with scratch := v }
  | 0x013 => { t with prio := v.setWidth 2 }
  | 0x040 => { t with faultq := v &&& ~~~0x3F#64 }
  | 0x041 => { t with probecyc := BitVec.ofNat 32 (max 1024 (min 16777216 v.toNat)) }
  | _ => t

/-- Whether a user strand may read a control register (R195). -/
def csrUserRead (n : Nat) : Bool := decide (0x010 ≤ n)

/-- An access to a control register (R218): the old value into gD with latency 1, then the write, if there is one. A user
strand without the access traps PRIV (R195). -/
def State.csr (s : State) (q : Issue) (d : GReg) (csr : BitVec 11) (write : Option (DWord → DWord)) : Res :=
  let n := csr.toNat
  if !s.cur.sup && (write.isSome || !csrUserRead n) then .next s.trapPriv
  else
    let old := s.csrRead n
    .next (s.done q 4 fun t =>
      let t1 := t.result s.cycle 1 d old
      match write with
      | some f => t1.csrWrite n (f old)
      | none => t1)

/-- `csrr` (R218). -/
def execCsrr (q : Issue) (d : GReg) (csr : BitVec 11) (s : State) : Res := s.csr q d csr none

/-- `csrw` (R218): CSR ← gA. -/
def execCsrw (q : Issue) (d a : GReg) (csr : BitVec 11) (s : State) : Res :=
  let v := s.cur.reg a
  s.csr q d csr (some fun _ => v)

/-- `csrs` (R218): CSR ← CSR | gA. -/
def execCsrs (q : Issue) (d a : GReg) (csr : BitVec 11) (s : State) : Res :=
  let v := s.cur.reg a
  s.csr q d csr (some fun o => o ||| v)

/-- `csrc` (R218): CSR ← CSR & ~gA. -/
def execCsrc (q : Issue) (d a : GReg) (csr : BitVec 11) (s : State) : Res :=
  let v := s.cur.reg a
  s.csr q d csr (some fun o => o &&& ~~~v)

end Sys2Proof.Machine
end

