-- ==== Sys2Proof/Machine/Task.lean ====
section
/-! DEFINITION. The task tables (13_tasks_groups.md R296 to R314): task words, conflicts, priorities, the pool. -/

namespace Sys2Proof.Machine

/-- STATE of a task word (R314). -/
def stateCode : TaskState → Nat
  | .waiting => 0
  | .ready => 1
  | .running => 2
  | .preempted => 3
  | .retiring => 4
  | .retired => 5
  | .failed => 6

/-- Arcs into a task that are not released: tasks, and pin breaks that are due (R300, R303). -/
def State.arcsOf (s : State) (t : Task) : Nat := t.arcs.length + (s.tasks.breaks.filter fun b => b.task = t.no).length

/-- The task word of a task (R314). -/
def State.taskWordOf (s : State) (t : Task) : DWord :=
  BitVec.ofNat 64 (t.no % 2 ^ 24 * 2 ^ 40 + (if t.st = .failed || t.st = .retiring then t.status % 256 else 0) * 2 ^ 32 +
    min 65535 (s.arcsOf t) * 65536 + stateCode t.st)

/-- The task word that `tstat` writes (R314): of the strand's own task, or of the task launched under a handle. -/
def State.taskWord (s : State) (n : Nat) (cmd : Option Nat) : DWord :=
  let t? := match cmd with
    | none => (s.strand n).task.bind s.taskNo
    | some id => s.tasks.tasks.find? fun t => t.launch = some id
  match t? with
  | some t => s.taskWordOf t
  | none => 7

/-- The dispatcher of a die. -/
def State.disp (s : State) (d : Nat) : Dispatcher := (s.tasks.disps.find? fun x => x.die = d).getD (Dispatcher.reset d)

/-- The state with a dispatcher replaced. -/
def State.setDisp (s : State) (x : Dispatcher) : State :=
  { s with tasks := { s.tasks with disps := (s.tasks.disps.filter fun y => y.die != x.die) ++ [x] } }

/-- Tasks of a die in its table (R301). -/
def State.table (s : State) (d : Nat) : List Task := s.tasks.tasks.filter fun t => t.die = d && t.held

/-- Whether two tasks' ranges conflict (R300): a write of either overlaps a range of the other. -/
def conflicts (a b : List (Nat × Nat × Bool)) : Bool :=
  a.any fun x => b.any fun y => (x.2.2 || y.2.2) && overlaps x.1 x.2.1 y.1 y.2.1

/-- The tasks with an arc into a new task (R300). -/
def State.arcsFor (s : State) (t : Task) : List Nat :=
  ((s.table t.die).filter fun e => e.asid = t.asid && !(t.group != 0 && e.group = t.group) && conflicts e.ranges t.ranges).map
    Task.no

/-- The launch of its stream that a task follows (R299): the one admitted just before it, while it is in the table. -/
def State.followsFor (s : State) (t : Task) : Option Nat :=
  if t.overlap then none
  else match (s.tasks.tasks.filter fun e => e.die = t.die && e.ctx = t.ctx && e.lq = t.lq).reverse.head? with
    | some e => if e.held then some e.no else none
    | none => none

/-- A range word (R298): first byte and length. -/
def rangeOf (w : DWord) : Nat × Nat :=
  let unit := match field w 14 13 with | 0 => 256 | 1 => 65536 | 2 => 16777216 | _ => 4294967296
  (field w 63 15 * 256, field w 12 0 * unit)

/-- A group by its id. -/
def State.group (s : State) (id : Nat) : Option Group := s.tasks.groups.find? fun g => g.id = id

/-- The state with a group changed. -/
def State.modGroup (s : State) (id : Nat) (f : Group → Group) : State :=
  { s with tasks := { s.tasks with groups := s.tasks.groups.map fun g => if g.id = id then f g else g } }

/-- Tasks of a die in its ready pool (R304). -/
def State.pool (s : State) (d : Nat) : List Task := s.tasks.tasks.filter fun t => t.die = d && t.pooled && t.st = .ready

/-- The free workers of a die: strands that wait under `tdone` and that the dispatcher has not chosen (R305, R313). -/
def State.workers (s : State) (d : Nat) : List Nat :=
  (s.seqs.strands.filter fun p => dieOf p.1 = d && p.2.worker && p.2.run = .idle && !p.2.killed &&
    !(s.tasks.tasks.any fun t => t.strand = some p.1 && t.st = .running)).map Prod.fst

/-- Effective priority of a task: its own, less one for every 2^20 cycles in the pool (R304). -/
def Task.eff (t : Task) : Nat := t.prio - t.aged

/-- A task's region given back as its strand or its dispatcher leaves it (R309, R313): to the dispatcher, or, where tasks that
were pre-empted lie below, to them. -/
def State.returnLevel (s : State) (g : Region) (failed : Bool) : State :=
  if g.below = 0 then s.returnRegion g failed
  else
    let s1 := match g.strand with | some n => s.setStrand n { s.strand n with region := none } | none => s
    (s1.dropConfig false g 0x1C 0 0).modRegion g.id fun h => { h with strand := none, task := none }

/-! ### Entries that the device enqueues (R227, R310) -/

/-- The physical address of a control block at a virtual address with its page, once block and ring pass the checks of an
enqueue; else the fault with its address. -/
def State.queueAt (s : State) (who : Waiter) (d : Nat) (ctx : BitVec 10) (asid : BitVec 16) (user : Bool) (va : Nat) :
    ((Nat × PageAttr) ⊕ (Nat × Nat × Nat)) × State :=
  if va % 64 != 0 then (.inr (0x03, 0, va), s)
  else match s.translate who (.engine d) ctx asid .atomic user none va 64 with
    | (.bad c det, s1) => (.inr (c, det, va), s1)
    | (.miss, s1) => (.inr (noFault, 0, va), s1)
    | (.ok pa e, s1) =>
      if (s1.ownedIn (pageAttr e) pa 64).isSome then (.inr (noFault, 0, va), s1.snoop pa)
      else
        let b := s1.qblock d pa
        match s1.translate who (.engine d) ctx asid .write user none b.ring (b.esize * b.cap) with
        | (.bad c det, s2) => (.inr (c, det, b.ring), s2)
        | (.miss, s2) => (.inr (noFault, 0, b.ring), s2)
        | (.ok _ _, s2) => (.inl (pa, pageAttr e), s2)

/-- What an enqueue by the device comes to. -/
inductive DevEnq where
  | done
  | later
  | bad (code detail addr : Nat)
  deriving DecidableEq, Repr

/-- An entry enqueued by a die with release semantics (R93, R310): later while the queue is full, its home die does not cover
the clock, or a walk or the host is awaited. -/
def State.deviceEnq (s : State) (who : Waiter) (d : Nat) (ctx : BitVec 10) (asid : BitVec 16) (user : Bool) (va : Nat) (clock : Clock)
    (bytes : List Byte) : DevEnq × State :=
  match s.queueAt who d ctx asid user va with
  | (.inr f, s1) => if f.1 = noFault then (.later, s.retry s1) else (.bad f.1 f.2.1 f.2.2, s1)
  | (.inl (pa, page), s1) =>
    let b := s1.qblock (homeDie pa) pa
    if !(s1.clock (homeDie pa)).covers clock then (.later, s1)
    else if b.pmode = 2 then (.bad 0x08 4 va, s1)
    else if b.unsound pa = 0 && !b.corrupt && b.esize != bytes.length then (.bad 0x0A 0 va, s1)
    else match s1.enqStep ⟨.strand Config.strands, pa, .producer, bytes.length, bytes, 0, 0, 0, 0, s1.mark ctx 63 false page⟩ false with
      | (s2, .ok _ _ _) => (.done, s2)
      | (s2, .full) => (.later, s2)
      | (s2, .closed) => (.bad 0x0B 0 va, s2)
      | (s2, .corrupt det) => (.bad 0x0A det va, s2)
      | (s2, _) => (.later, s2)

end Sys2Proof.Machine
end

