-- ==== Sys2Proof/Machine/EvOrder.lean ====
section
/-! DEFINITION. Steps of the ordering machine that strands' operations take (04_ordering.md R78 to R83, R91, R94; 08 R188, R213,
R217), the application of pending writes (R80), and the acceptance of write-backs (10_pages.md R252). -/

namespace Sys2Proof.Machine

/-! ### Operations of a strand -/

/-- An operation of a strand by its event number. -/
def State.op (s : State) (n ev : Nat) : Option Op := (s.strand n).ops.find? fun o => o.id = ev

/-- The state with an operation changed. -/
def State.modOp (s : State) (n ev : Nat) (f : Op → Op) : State :=
  let t := s.strand n
  s.setStrand n { t with ops := t.ops.map fun o => if o.id = ev then f o else o }

/-- An operation that has completed leaves; an IDLE strand sees it (R230). -/
def State.dropOp (s : State) (n ev : Nat) : State :=
  let t := s.strand n
  s.setStrand n { t with ops := t.ops.filter fun o => o.id != ev, woken := t.woken || t.run = .idle }

/-- The path from a strand's die to the memory of an operation. -/
def State.opPath (s : State) (n : Nat) (o : Op) : Reach :=
  match o.kind with
  | .load pa .. | .store pa .. | .atomic _ pa .. | .evsch _ pa _ => s.reachPa (dieOf n) pa
  | _ => .open_

/-- Whether an operation may perform (R78, R79): it has not, its time has come, every event with an arc into it has, and no link
on its way holds traffic back. -/
def State.mayPerform (s : State) (n : Nat) (o : Op) : Bool :=
  o.result.isNone && decide (o.due ≤ s.cycle) && s.depsMet n o.deps && s.opPath n o != .waits

/-- An issued operation that fails (R201, R378): its destination is unchanged and nothing is written; a record with the
operation's PC goes out, and the strand traps before its next issue. -/
def State.failOp (s : State) (n : Nat) (o : Op) (code : Nat) : State :=
  let r := o.kind.range
  let size := if r.2 = 1 then 0 else if r.2 = 2 then 1 else if r.2 = 4 then 2 else 3
  let s1 := (s.postStrand n code 0 0 (BitVec.ofNat 64 o.va) o.pc).dropOp n o.id
  let t := s1.strand n
  s1.setStrand n { t with late := t.late.orElse fun _ => some (code, o.va, memInfo size (!(match o.kind with | .load .. => true | _ => false))) }

/-- The mark of a strand's access (R253). -/
def State.strandMark (s : State) (n : Nat) (nt : Bool) (page : PageAttr) : Mark := s.mark (s.strand n).ctx 63 nt page

/-- The value of n bytes in a line of a data L1 cache. -/
def lineVal (l : Data512) (pa n : Nat) : Nat := (l.toNat >>> (8 * (pa % 64))) % 2 ^ (8 * n)

/-- Whether a core bypasses its L1 data cache: a wring test of it runs, or has fenced it (R393, R394). -/
def State.bypassL1 (s : State) (n : Nat) : Bool :=
  let u : ErrUnit := .l1 (dieOf n) (coreOf n % 16)
  (s.outer.wrings.any fun w => w.running && w.unit = u) || s.outer.mgmt.dead.contains u

/-- The line of a core's data L1 cache that a load of a strand finds. -/
def State.inL1 (s : State) (n pa : Nat) : Option L1Line :=
  if s.bypassL1 n then none else (s.core (coreOf n)).d1.find? fun l => l.pa = pa / 64 * 64

/-- A load's bytes (R78, R319): from the core's data L1 cache if it holds the line, else from the image, allocating the
line, with no error of what stood there before. -/
def State.loadVal (s : State) (n pa k : Nat) (nt : Bool) (page : PageAttr) : Nat × State :=
  let d := dieOf n
  match s.inL1 n pa with
  | some l => (lineVal l.data pa k, s)
  | none =>
    let s1 := s.touchRead d pa k (s.strandMark n nt page)
    let mine (x : ErrUnit × Nat) : Bool := x.1 = .l1 d (coreOf n % 16) && x.2 / 64 = pa / 64
    let s2 := s1.modMem fun t => { t with poison := t.poison.filter fun x => !mine x }
    (s1.valAt d pa k, if s.bypassL1 n then s1 else s2.setCore (coreOf n) ((s2.core (coreOf n)).allocD1 pa (s2.lineData d pa)))

/-- Whether a load meets an uncorrected error where it reads its bytes (R392): in the L1 cache that holds them, else below it. -/
def State.spoiltLoad (s : State) (n pa k : Nat) : Bool :=
  match s.inL1 n pa with
  | some _ => s.mem.poison.any fun x => x.1 = .l1 (dieOf n) (coreOf n % 16) && overlaps x.2 4 pa k
  | none => s.spoilt (dieOf n) none pa k

/-- A loaded value in a register (R209). -/
def loadExt (sx : Bool) (k v : Nat) : DWord := if sx then (BitVec.ofNat (8 * k) v).signExtend 64 else BitVec.ofNat 64 v

/-- A load performed. -/
def State.performLoad (s : State) (n : Nat) (o : Op) (pa k : Nat) (sx nt : Bool) (page : PageAttr) : State :=
  if s.snoopFirst page pa then s.snoop pa
  else if s.spoiltLoad n pa k then s.failOp n o 0x16
  else
    let r := s.loadVal n pa k nt page
    r.2.modOp n o.id fun p => { p with result := some (loadExt sx k r.1) }

/-- Whether an acquiring and releasing atomic may take its step (R91, R94): its home covers the clock of its die as it stood
when the atomic reached the head, and at scopes dev and sys the fence's condition holds. -/
def State.atomicReady (s : State) (n : Nat) (o : Op) (pa : Nat) (before : Clock) : Bool :=
  !o.acq ||
    ((isHostPa pa || (s.clock (homeDie pa)).covers before) &&
      (match o.scope with | some sc => s.scopeMet (dieOf n) sc before o.id | none => true))

/-- An atomic at the head of its list: the clock of its die is taken once (R94). -/
def State.performAtomic (s : State) (n : Nat) (o : Op) (aop : AOp) (pa k : Nat) (v expect : DWord) (page : PageAttr) : State :=
  let before := o.before.getD (s.clock (dieOf n))
  let s1 := if o.before.isSome then s else s.modOp n o.id fun p => { p with before := some before }
  if !s1.atomicReady n o pa before then s1
  else if s1.snoopFirst page pa then s1.snoop pa
  else if s1.spoilt (homeDie pa) none pa k then s1.failOp n o 0x16
  else
    let r := s1.atomicStep aop pa k (v.toNat % 2 ^ (8 * k)) (expect.toNat % 2 ^ (8 * k)) (s1.strandMark n false page)
    r.2.modOp n o.id fun p =>
      { p with result := some (BitVec.ofNat 64 r.1),
               stamp := if o.acq && !isHostPa pa then some (r.2.clock (homeDie pa)) else none }

/-- ORDER_READ_PERFORM (R78): a load, an atomic, or the read of another operation whose value a register takes. -/
def execOrderReadPerform (strand ev : Nat) (s : State) : Res :=
  match s.op strand ev with
  | none => .next s
  | some o =>
    if !s.mayPerform strand o then .next s
    else if s.opPath strand o = .lost then .next (s.failOp strand o 0x17)
    else match o.kind with
      | .load pa k sx nt page => .next (s.performLoad strand o pa k sx nt page)
      | .atomic aop pa k v x page => .next (s.performAtomic strand o aop pa k v x page)
      | .value v => .next (s.modOp strand ev fun p => { p with result := some v })
      | .taskWord cmd =>
        let w := s.taskWord strand cmd
        .next (s.modOp strand ev fun p => { p with result := some w })
      | .stop cmd =>
        let r := s.stopStream strand cmd
        .next (r.2.modOp strand ev fun p => { p with result := some r.1 })
      | _ => .next s

/-! ### Stores -/

/-- A store performed (R79): the core's own data L1 line is updated, every other copy of the die dropped (R319, R220). -/
def State.performStore (s : State) (n pa k : Nat) (v : DWord) (nt : Bool) (page : PageAttr) : State :=
  let c := coreOf n
  let mine := (s.core c).storeD1 pa k (v.toNat % 2 ^ (8 * k))
  let s1 := s.performWrite (dieOf n) pa ((toBytes k v.toNat).map some) (s.strandMark n nt page) true
  s1.setCore c { s1.core c with d1 := mine.d1 }

/-! ### Cache maintenance (R213) -/

/-- Whether a write of the range has not reached its home: its bytes are still dirty in a gateway cache. -/
def State.onTheWay (s : State) (pa n : Nat) : Bool :=
  s.mem.pending.any fun w => !w.on.contains w.home && overlaps w.pa w.bytes.length pa n

/-- Data L1 lines of every die dropped in a range; with `code`, instruction L1 lines too (R220). -/
def State.dropLines (s : State) (pa n : Nat) (code : Bool) : State :=
  (List.range 8).foldl (fun s d => s.dropL1 d (fun l => overlaps l 64 pa n) code) s

/-- Sectors whose dirty bytes are lost, in every die: what DRAM holds shows in every image, and what other dies have still to
apply goes. -/
def State.loseRange (s : State) (pa n : Nat) : State := ((s.dropRange pa n).discardPending pa n true).showDram pa n

/-- A `cmo` on the physical sectors of one page's part of its range (R213); `va` is the virtual address of the part and
`lo`, `hi` bound the unrounded range. -/
def State.cmoPart (s : State) (sub va pa n lo hi : Nat) : State :=
  match sub with
  | 0 => s.cleanRange pa n
  | 2 => ((s.cleanRange pa n).dropRange pa n).dropLines pa n false
  | _ =>
    let s0 := if sub = 3 then s.modMem fun t => { t with wbs := t.wbs.filter fun w => !(overlaps w.pa 64 pa n) }
      else s.acceptRange pa n
    let one (s : State) (k : Nat) : State :=
      let a := va + 64 * k
      let p := pa + 64 * k
      if lo ≤ a && a + 64 ≤ hi then s.loseRange p 64 else (s.cleanRange p 64).dropRange p 64
    ((List.range (n / 64)).foldl one s0).dropLines pa n (sub = 1)

/-- The pages of a `cmo` in ascending order: the parts before the first that fails its checks, and that failure, `noFault` while a
walk is awaited. -/
def State.cmoPages (s : State) (n : Nat) (o : Op) (acc : Access) (user : Bool) (hi : Nat) :
    List Nat → List (Nat × Nat × Nat) × Option (Nat × Nat × Nat) × State
  | [] => ([], none, s)
  | p :: rest =>
    let t := s.strand n
    let k := inPage o.va hi p
    match s.translate (.op n o.id) (tlbOf n) t.ctx t.asid acc user t.task p k with
    | (.ok pa _, s1) =>
      let r := s1.cmoPages n o acc user hi rest
      ((p, pa, k) :: r.1, r.2)
    | (.bad code det, s1) => ([], some (code, det, p), s1)
    | (.miss, s1) => ([], some (noFault, 0, p), s1)

/-- A `cmo` whose page violates the region table (R225): a record, and the strand halts; the operation waits, and acts on its range
again once the strand has thawed. -/
def State.violateOp (s : State) (n : Nat) (o : Op) (f : Nat × Nat × Nat) : State :=
  let s1 := ((s.postStrand n f.1 flagPartial f.2.1 (BitVec.ofNat 64 f.2.2) o.pc).modOp n o.id fun p =>
    { p with before := some (s.clock (dieOf n)) }).cancelOp (.strand n)
  { s1.setStrand n { s1.strand n with run := .halted } with ctxs := { s1.ctxs with
      frozen := s1.ctxs.frozen ++ [⟨(s1.strand n).ctx, 0, dieOf n, whoStrand n⟩] } }

/-- Whether a `cmo` that met a region violation still waits for the thaw of its strand. -/
def State.cmoHeld (s : State) (n : Nat) (o : Op) : Bool :=
  o.before.isSome && ((s.strand n).run = .halted || (s.strand n).run = .frozen)

/-- A `cmo` performed (R213): the parts before a failing page are acted on, and the failure sends one record with PARTIAL; after a
region violation the whole range is acted on once more (log 107). -/
def State.performCmo (s : State) (n : Nat) (o : Op) (sub : Nat) (user : Bool) (va bytes : Nat) : State :=
  let r := if sub = 3 then (va, bytes) else roundSectors va bytes
  let acc : Access := if sub = 0 || sub = 2 then .read else .write
  let x := s.cmoPages n { o with va := r.1 } acc user (r.1 + r.2) (pagesOf r.1 r.2)
  if s.cmoHeld n o then (if (s.strand n).killed then s.dropOp n o.id else s)
  else if (x.2.1.map Prod.fst) = some noFault then s.retry x.2.2
  else if x.1.any fun p => s.onTheWay p.2.1 p.2.2 then s
  else
    let s1 := x.1.foldl (fun s p => s.cmoPart sub p.1 p.2.1 p.2.2 va (va + bytes)) s
    match x.2.1 with
    | some f =>
      if f.1 = 0x09 then s1.violateOp n o f
      else (s1.postStrand n f.1 flagPartial f.2.1 (BitVec.ofNat 64 f.2.2) o.pc).dropOp n o.id
    | none => s1.dropOp n o.id

/-- A release phase advanced (R217, R253). -/
def State.advancePhase (s : State) (d no : Nat) : State :=
  let e := s.evict d no
  s.modMem fun t => { t with evict := (t.evict.filter fun x => !(x.die = d && x.no = no)) ++ [{ e with phase := e.phase + 1 }] }

/-- An eviction schedule loaded (R217, R253): the word of stream id k is at offset 4k. -/
def State.loadSched (s : State) (d no pa : Nat) (m : Mark) : State :=
  let s1 := s.touchRead d pa 256 m
  let e := s1.evict d no
  let table := (List.range 64).map fun k => BitVec.ofNat 32 (s1.valAt d (pa + 4 * k) 4)
  s1.modMem fun t => { t with evict := (t.evict.filter fun x => !(x.die = d && x.no = no)) ++ [{ e with table := table }] }

/-- An `evsch` performed, once the host has given up the lines of its table (R241). -/
def State.performSched (s : State) (n : Nat) (o : Op) (no pa : Nat) (page : PageAttr) : State :=
  match s.ownedIn page pa 256 with
  | some line => s.snoop line
  | none =>
    if s.spoilt (dieOf n) none pa 256 then s.failOp n o 0x16
    else (s.loadSched (dieOf n) no pa (s.strandMark n false page)).dropOp n o.id

/-- ORDER_WRITE_PERFORM (R79): a store, or an operation that counts with stores; it completes as it performs (R83). -/
def execOrderWritePerform (strand ev : Nat) (s : State) : Res :=
  match s.op strand ev with
  | none => .next s
  | some o =>
    if !s.mayPerform strand o then .next s
    else if s.opPath strand o = .lost then .next (s.failOp strand o 0x17)
    else match o.kind with
      | .store pa k v nt page =>
        if s.snoopFirst page pa then .next (s.snoop pa)
        else .next ((s.performStore strand pa k v nt page).dropOp strand ev)
      | .cmo sub user va n => .next (s.performCmo strand o sub user va n)
      | .phase no => .next ((s.advancePhase (dieOf strand) no).dropOp strand ev)
      | .evsch no pa page => .next (s.performSched strand o no pa page)
      | _ => .next s

/-! ### Between dies and DRAM -/

/-- ORDER_APPLY_PENDING (R80): a die applies the next write of another die, if it may and the links between them carry it. -/
def execOrderApplyPending (die src : Nat) (s : State) : Res :=
  match s.mem.pending.find? fun w => w.src = src && s.mayApply die w && s.reach src die = .open_ with
  | some w => .next (s.applyWrite die w)
  | none => .next s

/-- WRITEBACK_ACCEPT (R252): a memory-side unit queues a write-back of a sector. -/
def execWritebackAccept (die pa : Nat) (s : State) : Res :=
  match s.mem.wbs.find? fun w => w.die = die && w.pa = pa with
  | some w => .next (s.acceptWb w)
  | none => .next s

end Sys2Proof.Machine
end

