-- ==== Sys2Proof/Machine/SeqSys.lean ====
section
/-! DEFINITION. The `sys` functions and `trap` (08_sequencer.md R200, R219; 09_contexts.md R229 to R233; 10_pages.md R247
to R249). -/

namespace Sys2Proof.Machine

/-- `nop` (R219): no effect. -/
def execNop (q : Issue) (s : State) : Res := .next (s.done q 4 id)

/-- `trap` (R219, R199): CODE TRAP, EPC at the next instruction, EINFO the code. -/
def execTrap (_q : Issue) (code : BitVec 18) (s : State) : Res :=
  .next (s.trapAt s.focus.strand (s.cur.pc + 4) 0x18 0 (code.setWidth 64))

/-- `eret` (R200, supervisor). -/
def execEret (q : Issue) (s : State) : Res :=
  if !s.cur.sup then .next s.trapPriv
  else
    let t := s.cur.leave
    .next ((s.setCur { t with readyAt := s.cycle + 1 + q.gap.toNat, atTvec := false, progress := none, walked := none }).issued q)

/-- `halt` (R230): once the fixed-latency results are written the strand is HALTED at the next instruction. -/
def execHalt (q : Issue) (s : State) : Res :=
  if !s.cur.writes.isEmpty then .next s.stall
  else .next (s.done q 4 fun t => { t with run := .halted })

/-- `idle` (R230): IDLE at the next instruction; with an event pending it acts as `nop`. -/
def execIdle (q : Issue) (s : State) : Res :=
  .next (s.done q 4 fun t => if t.events.isEmpty then { t with run := .idle, woken := false } else t)

/-- `yield` (R230): not ready until every other ready strand of the core has issued once, or for 4 cycles. -/
def execYield (q : Issue) (s : State) : Res :=
  let n := s.focus.strand
  let others := ((List.range 4).map fun k => n / 4 * 4 + k).filter fun m => m != n && s.ready m
  let s1 := s.done q 4 id
  .next (s1.setCur { s1.cur with yieldTo := some (s.cycle + 5, others) })

/-! ### Shootdown (R247, R248) -/

/-- A range rounded outward to 64 KiB (R248). -/
def roundPages (a n : Nat) : Nat × Nat := (a / 65536 * 65536, (a + n + 65535) / 65536 * 65536 - a / 65536 * 65536)

/-- Every die's cached entries of an ASID in a range dropped, walks of it restarted, results of walks that have not been used
discarded, and every site buffer of the ASID there written back and dropped (R246, R248). -/
def State.shoot (s : State) (asid : BitVec 16) (a n : Nat) : State :=
  let again (w : Walk) : Walk :=
    if w.asid = asid && overlaps w.va 1 a n then { w with due := s.cycle + 1 + Config.latency s.serial } else w
  let stale (w : WalkResult) : Bool := w.asid = asid && overlaps (w.va * 65536) 65536 a n
  let s1 := { s with seqs := { s.seqs with
    tlbs := s.seqs.tlbs.filter fun x => !(x.2.asid = asid && overlaps x.2.va x.2.size a n),
    walks := s.seqs.walks.map again,
    answers := s.seqs.answers.filter fun x => !stale x.2.1,
    strands := s.seqs.strands.map fun (p : Nat × Strand) => (p.1, { p.2 with walked := p.2.walked.filter fun w => !stale w }) } }
  s1.tasks.regions.foldl (fun s g => s.dropAll g fun _ x => x.asid = asid && overlaps x.va 64 a n)
    { s1 with serial := s1.serial + 1 }

/-- The virtual ranges of an engine command (R248). -/
def CmdKind.ranges : CmdKind → List (Nat × Nat)
  | .copy d a n => [(d, n), (a, n)]
  | .fill d n _ => [(d, n)]
  | .bankop _ d a b n => [(d, n), (a, n), (b, n)]
  | .rowcp d a n => [(d, n), (a, n)]
  | .rowzero d n => [(d, n)]
  | .launch rec _ => [(rec, 128)]
  | .sweep table _ => [(table, 64)]
  | _ => []

/-- The virtual ranges of a sweep that is under way: its table, pages, bitmaps and outputs. -/
def Sweep.ranges (w : Sweep) : List (Nat × Nat) :=
  (w.pages.flatMap fun p => [(p.entry, 32), (p.kaddr, 32 * w.hdt * p.ntok), (p.vaddr, 32 * w.hdt * p.ntok), (p.subs, 32)]) ++
    w.queries.map fun x => (x.out, 32 * w.hdt)

/-- What a command may still access in virtual memory (R248): a `cfgld` the pages of its image and arguments, until its region has
taken them; a launch its record, until it is admitted; a sweep all of its ranges. -/
def State.openRanges (s : State) (c : Cmd) : List (Nat × Nat) :=
  match c.kind with
  | .cfgld _ _ _ =>
    let read : Bool := s.tasks.regions.any fun g => g.cfgCmd = some c.id && g.st != .checking
    if read then [] else c.pages.map fun e => (e.va, e.size)
  | .launch _ _ => if c.began then [] else c.kind.ranges
  | .sweep _ _ => c.kind.ranges ++ (s.engs.sweeps.filter fun w => w.cmd = c.id).flatMap Sweep.ranges
  | k => k.ranges

/-- Whether a site operation in flight has translated and not completed (R248). -/
def InFlight.translated (f : InFlight) (before : Nat) : Bool :=
  isSiteOp f.instr && decide (f.id < before) &&
    (match f.wait with | .fill | .reply => true | _ => false)

/-- Whether the drain of a shootdown that dropped entries at a serial number has ended (R248, R249; logs 102, 103). -/
def State.drained (s : State) (asid : BitVec 16) (a n before : Nat) : Bool :=
  (s.seqs.strands.all fun p => p.2.asid != asid || p.2.ops.all fun o =>
    decide (before ≤ o.id) || s.opDone (dieOf p.1) o || (o.before.isSome && (match o.kind with | .cmo .. => true | _ => false)) ||
      !(overlaps (o.kind.vrange o.va).1 (o.kind.vrange o.va).2 a n)) &&
  (s.seqs.strands.all fun (p : Nat × Strand) => p.2.asid != asid || match p.2.progress with
    | some r => r.stage != 1 || decide (before < r.id) || !(r.spans.any fun x => overlaps x.va x.n a n)
    | none => true) &&
  (s.engs.cmds.all fun c => c.asid != asid || decide (before ≤ c.id) || c.ended.isSome || c.paused ||
    !((s.openRanges c).any fun r => overlaps r.1 r.2 a n)) &&
  (s.tasks.regions.all fun g => g.asid != asid ||
    (!(s.fab.updates.any fun u => u.region = g.id && decide (u.id < before)) &&
      g.elems.all fun e =>
        ((s.elem e).pl.ctxs.toList.all fun t => match t.fly with | some f => !f.translated before | none => true) &&
        !(s.mem.held.any fun h => h.e = e)))

/-- A shootdown (R248): stage 0 waits as `fence.dev` from the clock at its request, then drops; stage 2 waits for the
drain, which SHOOTDOWN_ACK ends with stage 3. Its spans are the range and, with no bytes, the ASID. -/
def State.shootdown (s : State) (q : Issue) (asid : BitVec 16) (a n : Nat) : Res :=
  match s.stage with
  | 3 => .next (s.done q 4 id)
  | 2 => .next s.stall
  | _ =>
    if !(s.unperformed s.focus.strand).isEmpty then .next s.stall
    else if !s.devCovers s.reqClock then .next (s.setProgress 1 0)
    else if n = 0 then .next (s.done q 4 id)
    else
      let before := s.serial
      let s1 := s.shoot asid a n
      let span (va n : Nat) : Span := ⟨va, 0, n, ⟨false, false, 0⟩⟩
      let p : Progress := ⟨s.serial, s.reqClock, 2, BitVec.ofNat 64 before, [span a n, span asid.toNat 0]⟩
      .next (s1.setCur { s1.cur with progress := some p })

/-- `tlbi` (R247, supervisor). -/
def execTlbi (q : Issue) (d a b : GReg) (s : State) : Res :=
  if !s.cur.sup then .next s.trapPriv
  else
    let x := (s.cur.reg a).toNat
    let n := (s.cur.reg b).toNat
    if 2 ^ 57 ≤ x || decide (2 ^ 57 < x + n) then .next (s.trap 0x03 (s.cur.reg a) 0)
    else
      let r := if n = 0 then (x, 0) else roundPages x n
      s.shootdown q ((s.cur.reg d).setWidth 16) r.1 r.2

/-- `tlbia` (R247, supervisor): the whole address space. -/
def execTlbia (q : Issue) (d : GReg) (s : State) : Res :=
  if !s.cur.sup then .next s.trapPriv else s.shootdown q ((s.cur.reg d).setWidth 16) 0 (2 ^ 57)

/-! ### `freeze`, `thaw`, `kill` (R231, R232) -/

/-- A target that a selector names (R231). -/
inductive Target where
  | strand (n : Nat)
  | region (id : Nat)
  | cmd (id : Nat)
  | ctx (n : Nat)
  | bad (status : Nat)
  deriving DecidableEq, Repr

/-- A region as a target: one that is RESERVED and saves no level has no configuration, and so no master (R274). -/
def Region.asTarget (g : Region) : Target := if g.st = .reserved && g.levels.isEmpty then .bad 1 else .region g.id

/-- The target of a selector and a handle on the acting strand (R231). -/
def State.target_ (s : State) (sel handle : DWord) : Target :=
  let mk := field sel 63 60
  let die := field sel 59 57
  let who := field sel 31 0
  if field sel 56 32 != 0 || (11 ≤ mk && mk ≤ 14) then .bad 4
  else if mk = 0 then
    (if 64 ≤ who then .bad 1
     else if die * 64 + who = s.focus.strand then .bad 3
     else if (s.strand (die * 64 + who)).killed then .bad 1
     else .strand (die * 64 + who))
  else if mk = 1 || mk = 2 then
    (match (s.elem ⟨die, who / 128, who % 128⟩).region.bind s.region with
     | some g => g.asTarget
     | none => (match s.tasks.regions.find? fun g => g.holds ⟨die, who / 128, who % 128⟩ with
       | some g => g.asTarget
       | none => .bad 1))
  else if mk = 3 || mk = 4 || mk = 5 then
    (match (s.cur.lookupHandle s.focus.strand handle).bind fun h => s.cmd h.cmd with
     | some c => if c.ended.isSome then .bad 1 else .cmd c.id
     | none => .bad 1)
  else if mk = 15 then
    (let ctx := field sel 9 0
     if !(s.desc s.curDie ctx).v || s.ctxs.dying.contains ctx then .bad 1 else .ctx ctx)
  else .bad 1

/-- The status written and the instruction complete. -/
def State.status (s : State) (q : Issue) (d : GReg) (v : Nat) : Res :=
  .next (s.done q 4 fun t => t.result s.cycle 1 d (BitVec.ofNat 64 v))

/-- `freeze` on a region (R231, R286): raised once, complete when no wave spreads over it. -/
def State.freezeRegionAt (s : State) (q : Issue) (d : GReg) (id : Nat) : Res :=
  match s.region id with
  | none => s.status q d (if s.stage = 0 then 1 else 0)
  | some g =>
    if s.stage = 1 then (if g.wave.isNone then s.status q d 0 else .next s.stall)
    else if g.st = .frozen then s.status q d 2
    else if g.st = .checking then .next s.stall
    else if g.st = .running || g.st = .configuring then .next ((s.raiseWave id .freeze).setProgress 1 0)
    else s.status q d 0

/-- `freeze` (R231, supervisor). -/
def execFreeze (q : Issue) (d a b : GReg) (s : State) : Res :=
  if !s.cur.sup then .next s.trapPriv
  else match s.target_ (s.cur.reg a) (s.cur.reg b) with
    | .bad v => s.status q d (if s.stage = 0 then v else 0)
    | .strand n =>
      if (s.strand n).run = .frozen then s.status q d 2 else (s.freezeStrand n).status q d 0
    | .region id => s.freezeRegionAt q d id
    | .cmd id =>
      (match s.cmd id with
       | none => s.status q d 1
       | some c => if c.paused then s.status q d 2 else (s.pauseCmd c true).status q d 0)
    | .ctx n =>
      if s.stage = 0 then
        (if s.ctxs.frozenCtx.contains n then s.status q d 2
         else .next ((s.freezeCtx n s.focus.strand).setProgress 1 0))
      else if s.ctxFrozen n then
        (let s1 := s.done q 4 fun t => t.result s.cycle 1 d 0
         if s1.cur.ctx.toNat = n then .next (s1.freezeStrand s.focus.strand) else .next s1)
      else .next s.stall

/-- `thaw` (R231, supervisor). -/
def execThaw (q : Issue) (d a b : GReg) (s : State) : Res :=
  if !s.cur.sup then .next s.trapPriv
  else match s.target_ (s.cur.reg a) (s.cur.reg b) with
    | .bad v => s.status q d v
    | .strand n =>
      (match (s.strand n).run with
       | .frozen | .halted => (s.thawStrand n).status q d 0
       | .idle => if (s.strand n).worker then s.status q d 2 else (s.thawStrand n).status q d 0
       | .running => s.status q d 2)
    | .region id =>
      (match s.region id with
       | none => s.status q d 1
       | some g =>
         if g.st != .frozen then s.status q d 2
         else (match g.levels with
           | lv :: _ =>
             if !lv.isFreeze then s.status q d 2
             else if lv.place = .pleat 1 then (s.thawRegion g).status q d 0
             else .next s.stall
           | [] => s.status q d 2))
    | .cmd id =>
      (match s.cmd id with
       | none => s.status q d 1
       | some c => if c.paused then (s.pauseCmd c false).status q d 0 else s.status q d 2)
    | .ctx n =>
      if !(s.ctxs.frozenCtx.contains n) then s.status q d 2
      else if s.mayThaw n then (s.thawCtx n s.curDie).status q d 0
      else .next s.stall

/-- `kill` (R232, supervisor). -/
def execKill (q : Issue) (d a b : GReg) (s : State) : Res :=
  if !s.cur.sup then .next s.trapPriv
  else match s.target_ (s.cur.reg a) (s.cur.reg b) with
    | .bad v => s.status q d v
    | .strand n => (s.killStrand n).status q d 0
    | .region id =>
      (match s.region id with
       | none => s.status q d 1
       | some g => (s.killRegion g).status q d 0)
    | .cmd id =>
      (match s.cmd id with
       | none => s.status q d 1
       | some c => (s.killCmd c).status q d 0)
    | .ctx n =>
      let s1 := s.killCtx n
      if s1.cur.killed then .next (s1.issued q) else s1.status q d 0

/-- `ctxsw` (R233, supervisor): waits until the fixed-latency results are written and no load or store is open. -/
def execCtxsw (q : Issue) (d a : GReg) (s : State) : Res :=
  let t := s.cur
  let all1 : DWord := 0xFFFFFFFFFFFFFFFF
  if !t.sup then .next s.trapPriv
  else if field (t.reg a) 63 10 != 0 then .next (s.done q 4 fun t => t.result s.cycle 1 d all1)
  else if !t.writes.isEmpty || t.outstanding .ld != 0 || t.outstanding .st != 0 then .next s.stall
  else
    let n := field (t.reg a) 9 0
    match s.readDesc s.curDie n with
    | (c, s1) =>
      if !c.v then .next (s1.done q 4 fun t => t.result s.cycle 1 d all1)
      else .next (s1.done q 4 fun t =>
        { t.result s.cycle 1 d (t.ctx.setWidth 64) with
          ctx := BitVec.ofNat 10 n, asid := c.asid, prio := BitVec.ofNat 2 c.prio, faultq := c.faultq &&& ~~~0x3F#64,
          loops := [], status := statusOf 0 0 (t.status.getLsbD 8) t.sup t.ae (t.status.getLsbD 5) })

end Sys2Proof.Machine
end

