-- ==== Sys2Proof/Machine/SeqCfg.lean ====
section
/-! DEFINITION. The configuration instructions (11_kernels_images.md R276 to R278; 12_kernels_calls.md R294, R295). -/

namespace Sys2Proof.Machine

/-- The bytes of an image at an address and of its argument block, as its header gives them now: SIZE and NARGS (R261). -/
def State.imageRanges (s : State) (image args : Nat) : List (Nat × Nat × Access) :=
  let t := s.cur
  match (s.translateNow (.engine s.curDie) t.ctx t.asid .read (!t.sup) none image 64).1 with
  | .ok pa _ => [(image, max 64 (s.valAt s.curDie (pa + 8) 4), .read), (args, 8 * min 64 (s.valAt s.curDie (pa + 0x38) 4), .read)]
  | _ => [(image, 64, .read)]

/-- `cfgld` (R277): BIND_CHECK and PLACER_SERVE carry it out. -/
def execCfgld (q : Issue) (d a b c : GReg) (s : State) : Res :=
  let t := s.cur
  s.command q d [a, b, c] .tl (.cfgld (t.reg a).toNat (t.reg b) (t.reg c).toNat) false
    (s.imageRanges (t.reg a).toNat (t.reg c).toNat)

/-- `place` (R276): counts in LD; PLACER_SERVE gives its result. -/
def execPlace (q : Issue) (d a b : GReg) (s : State) : Res :=
  let t := s.cur
  if t.awaits a || t.awaits b || decide (32 ≤ t.outstanding .ld) then .next s.stall
  else .next ((s.addOp (.place (t.reg a).toNat (t.reg b)) d .ld none false false true 0).done q 4 id)

/-- Whether an earlier command of the acting strand to its region has not been taken up. -/
def State.queuedBefore (s : State) : Bool :=
  s.engs.cmds.any fun c => c.strand = s.focus.strand && c.kind.toRegion && !c.began && c.ended.isNone

/-- The configuration of a region dropped for `cfgdrop` (R278): it stays RESERVED with KEEP, or if the dispatcher bound it. -/
def State.dropFor (s : State) (q : Issue) (d : GReg) (g : Region) (keep : Bool) : Res :=
  let s1 := s.dropConfig false g 0x18 flagKilled 1
  (if keep || g.byDisp then s1 else s1.freeRegion g.id).status q d 0

/-- `cfgdrop` (R278): it stalls until the drop is complete. A RUNNING region fires no more, its streams stop, and it is dropped
once the site operations that it fired have completed. -/
def execCfgdrop (q : Issue) (d a : GReg) (s : State) : Res :=
  let n := s.focus.strand
  let x := s.cur.reg a
  if s.stage = 0 && field x 63 1 != 0 then s.status q d 4
  else match s.bound n with
    | none => s.status q d (if s.stage = 0 then 1 else 0)
    | some g =>
      if s.stage = 0 && s.queuedBefore then .next s.stall
      else match (s.seenAs n g).1 with
        | .frozen => if s.stage = 0 && g.wave.isNone then s.status q d 3 else .next s.stall
        | .reserved =>
          if s.stage != 0 then s.status q d 0
          else (if x.getLsbD 0 || g.byDisp then s else s.freeRegion g.id).status q d 2
        | .ended => if g.wave.isSome then .next s.stall else s.dropFor q d g (x.getLsbD 0)
        | .running =>
          if g.wave.isSome then .next s.stall
          else if s.stage = 1 && g.ending && s.quiet g then s.dropFor q d g (x.getLsbD 0)
          else
            let s1 := (s.stopStreams false g g.below).modRegion g.id fun h => { h with ending := true, dropBy := some n }
            .next (s1.setProgress 1 0)
        | _ => .next s.stall

/-- `gcall` (R294): CALLEE_BIND takes it up. -/
def execGcall (q : Issue) (d a b : GReg) (s : State) : Res :=
  let t := s.cur
  s.command q d [a, b] .tl (.gcall (t.reg a) (t.reg b).toNat) false []

/-- `gret` (R295): the innermost call of the bound region returns without results; it stalls until the caller's level has
thawed. -/
def execGret (q : Issue) (d : GReg) (s : State) : Res :=
  let n := s.focus.strand
  match s.bound n with
  | none => s.status q d (if s.stage = 0 then 1 else 0)
  | some g =>
    if s.stage = 1 then
      (if g.depth < ((s.cur.progress.map Progress.value).getD 0).toNat then s.status q d 0 else .next s.stall)
    else if (s.seenAs n g).1 = .frozen then s.status q d 2
    else if g.depth = 0 then s.status q d 1
    else if g.st != .running || g.wave.isSome || g.call.isSome || g.ret.isSome then .next s.stall
    else
      let s1 := s.modRegion g.id fun h => { h with ret := some none, ending := true }
      .next (s1.setProgress 1 (BitVec.ofNat 64 g.depth))

end Sys2Proof.Machine
end

