-- ==== Sys2Proof/Machine/EvConfig.lean ====
section
/-! DEFINITION. Events of regions: the placer (11_kernels_images.md R271, R272, R276), the binding checks (R267, R277), the
configuration tree (R270), and the end of a load (07_element_storage.md R175; 20 R351). -/

namespace Sys2Proof.Machine

/-! ### The placer (R271, R272) -/

/-- Whether a tile takes no region: it is fenced, or a wring test is due or runs on one of its elements (R393, R394). -/
def State.tileOut (s : State) (d r c : Nat) : Bool :=
  let here (e : ElemId) : Bool := e.die = d && e.row / 4 = r && e.col / 4 = c
  s.outer.mgmt.fencedT.any here || s.outer.wrings.any fun w => match w.unit with | .elem e => here e | _ => false

/-- Whether a region shares a tile with a rectangle. -/
def Region.meets (g : Region) (d a b trows tcols : Nat) : Bool :=
  g.die = d && overlaps g.trow g.trows a trows && overlaps g.tcol g.tcols b tcols

/-- Whether an origin satisfies R271 for an image; `taken` says which regions count as occupied. -/
def State.fits (s : State) (h : Header) (d a b : Nat) (taken : Region → Bool) : Bool :=
  b % 2 = 0 && decide (a + h.trows ≤ 16) && decide (b + h.tcols ≤ 20) && (!h.edgew || b = 0) &&
  (!h.edgee || b + h.tcols = 20) &&
  ((List.range h.trows).all fun r => (List.range h.tcols).all fun c => !s.tileOut d (a + r) (b + c)) &&
  !(s.tasks.regions.any fun g => taken g && g.meets d a b h.trows h.tcols)

/-- The origins of a die in ascending tile row, then tile column. -/
def origins : List (Nat × Nat) := (List.range 16).flatMap fun a => (List.range 20).map fun b => (a, b)

/-- The origin that the placer chooses among some (R272): without HELD regions first, else freeing them. -/
def State.chooseOrigin (s : State) (h : Header) (d : Nat) (among : List (Nat × Nat)) : Option (Nat × Nat) :=
  (among.find? fun o => s.fits h d o.1 o.2 fun _ => true).orElse fun _ =>
    among.find? fun o => s.fits h d o.1 o.2 fun g => g.st != .held

/-- The HELD regions that a rectangle overlaps freed (R272). -/
def State.freeHeld (s : State) (d a b trows tcols : Nat) : State :=
  (s.tasks.regions.filter fun g => g.st = .held && g.meets d a b trows tcols).foldl
    (fun s g => (s.dropConfig false g 0x1C 0 0).freeRegion g.id) s

/-- A region reserved at an origin; its number is the serial number. -/
def State.reserve (s : State) (h : Header) (d a b : Nat) (ctx : BitVec 10) (asid : BitVec 16) (task : Option Nat) : Nat × State :=
  let s1 := s.freeHeld d a b h.trows h.tcols
  let g : Region :=
    { id := s1.serial, die := d, trow := a, tcol := b, trows := h.trows, tcols := h.tcols, st := .reserved, strand := none,
      task := task, ctx := ctx, asid := asid, byDisp := false, info := none, next := none, cfgCmd := none, items := [], bad := [],
      probe := 0, depth := 0, levels := [], wave := none, call := none, seqCall := none, ret := none, ending := false,
      dropBy := none, failed := none, voids := [] }
  (g.id, { s1 with tasks := { s1.tasks with regions := s1.tasks.regions ++ [g] }, serial := s1.serial + 1 })

/-- A region bound to a strand (R274). -/
def State.bindStrand (s : State) (n id : Nat) : State :=
  (s.setStrand n { s.strand n with region := some id }).modRegion id fun g => { g with strand := some n }

/-- The result of `place` (R276). -/
def placeResult (ok : Bool) (reason die a b : Nat) : DWord :=
  BitVec.ofNat 64 (ok.toNat * 2 ^ 63 + reason * 65536 + die % 8 * 8192 + a % 16 * 512 + b % 32 * 16)

/-- `place` performed (R276). -/
def State.placeFor (s : State) (n : Nat) (o : Op) (image : Nat) (req : DWord) : State :=
  let t := s.strand n
  let d := dieOf n
  let say (s : State) (w : DWord) : State := s.modOp n o.id fun p => { p with result := some w }
  let no (s : State) (k : Nat) : State := say s (placeResult false k d 0 0)
  if field req 63 16 != 0 || field req 14 9 != 0 then no s 4
  else if t.region.isSome then no s 2
  else match s.readImage ⟨.op n o.id, d, t.ctx, t.asid, !t.sup, t.task⟩ image with
    | (.inr f, s1) => if f.waits then s.retry s1 else no s1 3
    | (.inl b, s1) =>
      let h := headerOf b
      if (h.badField b).isSome then no s1 3
      else
        let among := if req.getLsbD 15 then [(field req 8 5, field req 4 0)] else origins
        match s1.chooseOrigin h d among with
        | none => no s1 1
        | some (x, y) =>
          let r := s1.reserve h d x y t.ctx t.asid t.task
          say (r.2.bindStrand n r.1) (placeResult true 0 d x y)

/-- A command ended with a binding failure. -/
def State.failFor (s : State) (id : Nat) (f : BindFail) : State := s.failCmd id f.code 0 f.mkind f.who f.detail f.addr

/-- A `cfgld` of a strand that has no region: one is reserved (R277); the command goes on at BIND_CHECK. -/
def State.placeLoad (s : State) (c : Cmd) (image : Nat) : State :=
  match s.readImage ⟨.cmd c.id, c.die, c.ctx, c.asid, c.user, c.task⟩ image with
  | (.inr f, s1) => if f.waits then s.retry s1 else s1.failFor c.id f
  | (.inl b, s1) =>
    let h := headerOf b
    if (h.badField b).isSome then s1.failFor c.id (bindFail 0x13 ((h.badField b).getD 0) (BitVec.ofNat 64 image))
    else match s1.chooseOrigin h c.die origins with
      | none => s1.failFor c.id (bindFail 0x1C 0 0)
      | some (x, y) =>
        let r := s1.reserve h c.die x y c.ctx c.asid c.task
        r.2.bindStrand c.strand r.1

/-- A request that the placer of a die may serve: its number, and what it is. -/
inductive PlaceReq where
  | place (n : Nat) (o : Op) (image : Nat) (req : DWord)
  | load (c : Cmd) (image : Nat)
  deriving DecidableEq, Repr

/-- Number of a request. -/
def PlaceReq.id : PlaceReq → Nat
  | .place _ o _ _ => o.id
  | .load c _ => c.id

/-- The requests that have reached the placer of a die. -/
def State.placeReqs (s : State) (d : Nat) : List PlaceReq :=
  ((s.seqs.strands.filter fun p => dieOf p.1 = d).flatMap fun p => p.2.ops.filterMap fun o =>
    match o.kind with
    | .place image req => if s.mayPerform p.1 o then some (.place p.1 o image req) else none
    | _ => none) ++
  s.engs.cmds.filterMap fun c =>
    match c.kind with
    | .cfgld image _ _ => if c.die = d && (s.bound c.strand).isNone && !c.began && s.mayBegin c && !s.behind c then some (.load c image) else none
    | _ => none

/-- PLACER_SERVE (R272): the oldest request of a die is served. -/
def execPlacerServe (die : Nat) (s : State) : Res :=
  match sortBy (fun a b => decide (a.id ≤ b.id)) (s.placeReqs die) with
  | .place n o image req :: _ => .next (s.placeFor n o image req)
  | .load c image :: _ => .next (s.placeLoad c image)
  | [] => .next s

/-! ### Binding (R267, R277) -/

/-- The failure of a binding told to whom it concerns: the `cfgld` in force, or the task that the dispatcher binds (R309). -/
def State.bindFailed (s : State) (g : Region) (f : BindFail) : State :=
  match g.cfgCmd with
  | some c => s.failFor c f
  | none =>
    match g.task.bind s.taskNo with
    | some t =>
      if t.open_ then
        (s.post g.ctx g.die g.asid (recordWords f.code 0 f.mkind g.die f.who g.asid 0 g.ctx f.detail f.addr t.item)).beginRetire
          t.no f.code
      else s
    | none => s

/-- A region that a failed check leaves RESERVED, without a configuration (R274). No element changes state, and its buffers stay
until the next binding or the end of the region (R267; log 44). -/
def State.unloaded (s : State) (id : Nat) : State :=
  s.modRegion id fun h => { h with st := .reserved, info := none, next := none, cfgCmd := none, items := [], bad := [], ending := false,
                                   failed := none, voids := [] }

/-- A binding failed at its checks. -/
def State.bindOff (s : State) (g : Region) (f : BindFail) : State := (s.bindFailed g f).unloaded g.id

/-- What stops a `cfgld` before its checks (R277): SHAPE_MISMATCH with DETAIL. -/
def loadUnfit (g : Region) (h : Header) (load : DWord) : Option Nat :=
  if field load 63 8 != 0 || decide (h.nloads ≤ load.toNat) then some 0
  else if g.trows < h.trows || g.tcols < h.tcols then some 0x20000
  else if (h.edgew && g.tcol != 0) || (h.edgee && g.tcol + g.tcols != 20) then some 0x40000
  else none

/-- The `cfgld` that a region takes up next. -/
def State.nextLoad (s : State) (g : Region) : Option (Cmd × Nat × DWord × Nat) :=
  s.engs.cmds.findSome? fun c => match c.kind with
    | .cfgld image load args =>
      if (s.strand c.strand).region = some g.id && !c.began && s.mayBegin c && !s.behind c then some (c, image, load, args) else none
    | _ => none

/-- A `cfgld` taken up (R277): the region passes to CHECKING, or the command fails. -/
def State.takeLoad (s : State) (g : Region) (c : Cmd) (image : Nat) (load : DWord) : State :=
  let seen := s.seenAs c.strand g
  if seen.2 != c.ctx then s.failFor c.id (bindFail 0x1C 0 0)
  else if !(seen.1 = .reserved || seen.1 = .ended) || g.wave.isSome then s
  else if field load 63 8 != 0 then s.failFor c.id (bindFail 0x13 0 (BitVec.ofNat 64 image))
  else match s.readImage ⟨.cmd c.id, g.die, g.ctx, g.asid, c.user, c.task⟩ image with
    | (.inr f, s1) => if f.waits then s.retry s1 else (s1.failFor c.id f).unloaded g.id
    | (.inl b, s1) =>
      match loadUnfit g (headerOf b) load with
      | some det => s1.failFor c.id (bindFail 0x13 det (BitVec.ofNat 64 image))
      | none =>
        (s1.modCmd c.id fun c => { c with began := true, unit := g.die * 64 }).modRegion g.id fun h =>
          { h with st := .checking, cfgCmd := some c.id, probe := (s1.strand c.strand).probecyc.toNat }

/-- What a region that is CHECKING binds: image, load, arguments, privilege and task. -/
def State.binding (s : State) (g : Region) : Option (Nat × Nat × Nat × Bool × Option Nat) :=
  match g.cfgCmd.bind s.cmd with
  | some c => (match c.kind with
    | .cfgld image load args => some (image, load.toNat, args, c.user, c.task)
    | _ => none)
  | none => (g.task.bind s.taskNo).map fun t => (t.image, 0, t.args, t.user, some t.no)

/-- The checks of R267 run: the region passes to CONFIGURING, or back to RESERVED. -/
def State.runChecks (s : State) (g : Region) : State :=
  match s.binding g with
  | none => s.dropConfig false g 0x1C 0 0
  | some (image, load, args, user, task) =>
    let w : Binder := ⟨.region g.id, g.die, g.ctx, g.asid, user, task⟩
    match s.readImage w image with
    | (.inr f, s1) => if f.waits then s.retry s1 else s1.bindOff g f
    | (.inl b, s1) =>
      match s1.checkBinding w b image load args g.row0 g.col0 with
      | (.inr f, s2) => if f.waits then s.retry s2 else s2.bindOff g f
      | (.inl x, s2) =>
        s2.beginConfig g x (match g.info with | some i => i.image = image && i.load = load | none => false)

/-- BIND_CHECK (R267, R277): a region takes up a `cfgld`, or runs the checks of a binding. -/
def execBindCheck (region : Nat) (s : State) : Res :=
  match s.region region with
  | none => .next s
  | some g =>
    if g.st = .checking then .next (s.runChecks g)
    else match s.nextLoad g with
      | some (c, image, load, _) => .next (s.takeLoad g c image load)
      | none => .next s

/-! ### The configuration tree (R270) -/

/-- Whether the active level of a region is that of a call. -/
def Region.inCall (g : Region) : Bool := match g.own with | lv :: _ => (match lv.kind with | .call _ _ _ => true | _ => false) | [] => false

/-- CONFIG_WORD_WRITE (R68, R270): the next word, binding or judgement of a configuration. A freeze stops it, but not that of
a callee (R292). -/
def execConfigWordWrite (region : Nat) (s : State) : Res :=
  match s.region region with
  | none => .next s
  | some g =>
    if g.st != .configuring || (g.wave.isSome && !g.inCall) then .next s
    else match g.items with
      | [] => .next s
      | i :: rest =>
        let s1 := s.modRegion region fun h => { h with items := rest }
        .next (s1.writeItem { g with items := rest } i)

/-! ### A call that fails (R285) -/

/-- The caller's level thawed after a call that failed: one record, and for an element a token in i3 with tag 6. The argument
tokens stay out of the restored outputs. -/
def State.callFailed (s : State) (g : Region) (f : BindFail) : State :=
  match g.levels with
  | [] => s
  | lv :: _ =>
    match lv.kind with
    | .call _ by_ cmd =>
      let s1 := match cmd with
        | some c => s.failFor c { f with mkind := 6 }
        | none => s.post g.ctx g.die g.asid (recordWords f.code 0 6 g.die 0 g.asid 0 g.ctx f.detail f.addr 0)
      let k := g.levels.length
      let s2 := ((s1.stopStreams false g k).failSweeps false g k).clearElems g k
      let s3 := s2.restoreLevel g.id
      (match by_ with
       | some e =>
         let args (o : OutEntry) : Bool := match o with | .filled x => x.tok.tag = 7 | _ => false
         s3.modElem e fun v => v.modPl fun p =>
           let q := (p.setOut false ((p.outq false).filter fun o => !args o)).setOut true ((p.outq true).filter fun o => !args o)
           q.pushIn 3 ⟨lanes fun l => if l = 0 then BitVec.ofNat 32 f.code else 0, 6, false⟩ s.cycle
       | none => s3)
    | _ => s

/-- The end of a configuration that failed (R68, R270): the configuration is dropped (R274). -/
def State.configFailed (s : State) (g : Region) (f : BindFail) : State :=
  if g.inCall then s.callFailed g f else (s.bindFailed g f).dropConfig false g f.code 0 f.detail

/-- CONFIG_END (R68, R270): with a BLOCKED element the binding fails; else pinned sites are filled and the load starts. The load
that the dispatcher binds is at once ENDED (R305). -/
def execConfigEnd (region : Nat) (s : State) : Res :=
  match s.region region with
  | none => .next s
  | some g =>
    if g.st != .configuring || !g.items.isEmpty || (g.wave.isSome && !g.inCall) then .next s
    else match g.blockedFail with
      | some f => .next (s.configFailed g f)
      | none =>
        match s.pinAll g with
        | (some (code, det, addr), s1) =>
          if code = 0 then .next s1 else .next (s1.configFailed g (bindFail code det (BitVec.ofNat 64 addr)))
        | (none, s1) =>
          let rest := g.byDisp && g.cfgCmd.isNone && !g.inCall
          .next ((s1.startElems g).modRegion region fun h =>
            { h with st := if rest then RegionState.ended else RegionState.running, info := h.next, next := none, ending := rest })

/-! ### The end of a load (R175, R351) -/

/-- The elements that a region's load covers. -/
def Region.loaded (g : Region) : List ElemId :=
  match g.info with | some i => g.rect i.trows i.tcols | none => []

/-- Whether a context of an element has halted (R175). -/
def Plane4K.halted (p : Plane4K) (c : Nat) : Bool :=
  (p.ctx c).stopped || !(p.slots.any fun x => wfield x.2.1 26 26 = 1 && x.2.1.getLsbD (28 + c % 4))

/-- Whether every context of every T-element of a region has halted. -/
def State.allHalted (s : State) (g : Region) : Bool :=
  g.loaded.all fun e => isM e || (List.range 4).all fun c => (s.elem e).pl.halted c

/-- Whether the operations that a region's active level has fired are complete: site operations, posted port operations and
rows (R175, R351). -/
def State.settledLoad (s : State) (g : Region) : Bool :=
  s.quiet g && g.loaded.all fun e =>
    let v := s.elem e
    v.pl.mel.fired.isEmpty && v.posted.all fun p => p.lvl != g.levels.length

/-- Whether a stream is the first of those that its slot holds. -/
def State.firstInSlot (s : State) (c : Cmd) (st : StreamSt) : Bool :=
  ((s.engs.cmds.find? fun d => d.ended.isNone && (match d.strm with | some t => t.slot = st.slot | none => false)).map Cmd.id) = some c.id

/-- Whether a stream, the first of its slot, of a load that ends has still something to move (R175, R351): to memory, the token that
it takes next; to the fabric, a token that it has read and that has room where it goes. -/
def State.streamGoes (s : State) (g : Region) (c : Cmd) (st : StreamSt) : Bool :=
  if !st.started then st.toMem
  else if st.toMem then
    decide (st.total ≤ st.at_) || (!st.gateWait && ((st.kind = 0 && !(s.slotToks st.slot).isEmpty) || (s.nextToken st g).isSome))
  else
    (decide (st.total ≤ st.at_) && (s.slotToks st.slot).isEmpty && s.inNetwork st.slot = 0) ||
    (s.fab.packets.any fun p => p.src = slotSrc st.slot && (match p.load with | .queue ch _ => s.queueTakes p ch | _ => true)) ||
    (st.kind = 0 && (match s.slotToks st.slot with
      | x :: _ => decide (s.cycle ≤ x.at_) || (match s.heading (.hem st.slot) with | some (_, ds) => s.forwards (.hem st.slot) ds | none => false)
      | [] => false))

/-- A stream stopped as its load ends (R351), its tokens on the row network with it. -/
def State.cutEnding (s : State) (c : Cmd) (st : StreamSt) : State :=
  let s1 := s.cutStream false c
  { s1 with fab := { s1.fab with packets := s1.fab.packets.filter fun p => !(p.by_ = 0 && p.src = slotSrc st.slot) } }

/-- The streams of a load that ends: of each slot, the first stops if it can move nothing more, and makes way for the next (R351). -/
def State.cutEnded (s : State) (g : Region) : State :=
  (s.streamsOf g g.levels.length).foldl (fun s1 c => match c.strm with
    | some st => if s.firstInSlot c st && !s.streamGoes g c st then s1.cutEnding c st else s1
    | none => s1) s

/-- The load of a region ended (R175), its streams being over: sweeps that have more to do fail (R366), buffers of lifetime load are
dropped, parked port operations withdrawn, and the handle is done. -/
def State.finishLoad (s : State) (g : Region) : State :=
  let k := g.levels.length
  let s1 := s.failSweeps false g k
  let s3 := (s1.dropAll g fun e x => x.lvl = k && (s1.elem e).lifeOf x = .load).dropParked g (· = k)
  let s4 := match g.cfgCmd with | some c => s3.endCmd c 0 | none => s3
  s4.modRegion g.id fun h => { h with st := .ended, cfgCmd := none }

/-- LOAD_END (R175, R281): a load ends by `ehalt.load` or `gret`, or when every context has halted; a callee's end is its
return. -/
def execLoadEnd (region : Nat) (s : State) : Res :=
  match s.region region with
  | none => .next s
  | some g =>
    if g.st != .running || g.dropBy.isSome || g.failed.isSome || !(g.ending || s.allHalted g) then .next s
    else if g.inCall then
      (if g.ret.isSome then .next s
       else .next (s.modRegion region fun h => { h with ending := true, ret := some (some ⟨g.die, g.row0, g.col0⟩) }))
    else if !g.ending then .next (s.modRegion region fun h => { h with ending := true })
    else if !s.settledLoad g then .next s
    else if (s.streamsOf g g.levels.length).isEmpty then .next (s.finishLoad g)
    else .next (s.cutEnded g)

end Sys2Proof.Machine
end

