-- ==== Sys2Proof/Machine/EvMelem.lean ====
section
/-! DEFINITION. M-elements: weight reload, row assembly, row firing and output (05_fabric.md R111 to R116;
07_element_storage.md R181 to R184, R409; 02_numbers.md R29). -/

namespace Sys2Proof.Machine

/-! ### Node words (R181 to R184) -/

/-- AFMT. -/
def Plane4K.afmt (p : Plane4K) : Nat := wfield (p.node 1) 3 0
/-- ICH. -/
def Plane4K.ich (p : Plane4K) : Nat := wfield (p.node 1) 7 6
/-- OFMT. -/
def Plane4K.ofmt (p : Plane4K) : Nat := wfield (p.node 2) 3 0
/-- PATH. -/
def Plane4K.path (p : Plane4K) : Nat := wfield (p.node 2) 5 4
/-- CSRC. -/
def Plane4K.csrc (p : Plane4K) : Nat := wfield (p.node 2) 8 6
/-- Bytes of the output ring and of the C ring. -/
def Plane4K.ringBytes (p : Plane4K) : Nat := 128 * 2 ^ wfield (p.node 2) 26 23
/-- POS. -/
def Plane4K.pos (p : Plane4K) : Nat := wfield (p.node 3) 1 0
/-- CLEN. -/
def Plane4K.clen (p : Plane4K) : Nat := wfield (p.node 3) 8 2

/-- The state of an M-element changed. -/
def State.modMel (s : State) (e : ElemId) (f : MElem → MElem) : State :=
  s.modElem e fun v => v.modPl fun p => { p with mel := f p.mel }

/-- An M-element stops firing and its region's task fails with SHAPE_MISMATCH; DETAIL holds the header word (R29, R389). -/
def State.melFault (s : State) (e : ElemId) (word : Word) : State :=
  (s.elemFault e 0 0x13 word.toNat 0).modMel e fun m => { m with stopped := true }

/-- A read of scratch by an M-element that meets a spoilt word (R392): the element faults with ECC_UNCORRECTED at its offset. -/
def State.melSpoilt (s : State) (e : ElemId) (off : Nat) : State :=
  (s.elemFault e 0 0x16 0 off).modMel e fun m => { m with stopped := true }

/-- Whether an M-element may take tokens and fire rows: it runs, and its region neither ends nor freezes. -/
def State.melRuns (s : State) (e : ElemId) : Bool := s.mayRun e && !(s.elem e).pl.inert && !(s.elem e).pl.mel.stopped

/-! ### Weights (R111) -/

/-- The granules that a read of n bytes at an offset needs. -/
def readGranules (off n : Nat) : List Nat := (List.range ((off + n + 15) / 16 - off / 16)).map fun k => off / 16 + k

/-- WEIGHT_LATCH (R111): a reload reads 128 bytes a cycle, each once its granules are full; 4 cycles after the last it latches
planes, format and scales. The first read falls in the cycle in which `mrld` fires, and a row may fire in the fourth cycle after
the last read (log 93). -/
def execWeightLatch (e : ElemId) (s : State) : Res :=
  let v := s.elem e
  match v.pl.mel.reload with
  | none => .next s
  | some r =>
    match r.ends with
    | some t =>
      if t ≤ s.cycle then
        .next (s.modMel e fun m => { m with reload := none, weights := some ⟨v.pl.node 0, r.got⟩ })
      else .next s
    | none =>
      let total := blockBytes (v.pl.node 0)
      let n := min 128 (total - r.got.length)
      if !((readGranules (r.off + r.got.length) n).all v.full.contains) then .next s
      else if v.meetsSpoilt (r.off + r.got.length) n then .next (s.melSpoilt e (r.off + r.got.length))
      else
        let got := r.got ++ readN v.scr (r.off + r.got.length) n
        .next (s.modMel e fun m =>
          { m with reload := some ⟨r.off, got, if total ≤ got.length then some (s.cycle + 4) else none⟩ })

/-! ### Row assembly (R112) -/

/-- Tokens of an A row. -/
def Plane4K.rowTokens (p : Plane4K) : Nat := formatBits p.afmt * 64 / 256

/-- The channel of the next token of a row (R112). -/
def Plane4K.nextChan (p : Plane4K) : Nat :=
  match p.ich with
  | 0 => 0
  | 1 => 1
  | _ => if p.rowTokens = 1 then p.mel.onI1.toNat else p.mel.part.length % 2

/-- Whether a header word is one that an M-element of an activation format takes (R28, R29). -/
def scaleHeader (afmt : Nat) (w : Word) : Bool :=
  wfield w 31 28 = 0 && wfield w 27 17 = 0 && wfield w 16 13 = afmt && decide (wfield w 11 8 < 3)

/-- The scales of a header token (R29). -/
def scalesOf (t : Token) : Scales :=
  let w := laneOf t.data 0
  ⟨w.extractLsb' 8 4, [0, 1, 2, 3].map fun b => (laneOf t.data b).extractLsb' 0 8⟩

/-- One token taken by row assembly from a channel, if it may be taken there and then (R112). -/
def State.assemble (s : State) (e : ElemId) (ch : Nat) : State :=
  let p := (s.elem e).pl
  let m := p.mel
  match p.inq ch with
  | [] => s
  | x :: _ =>
    if s.cycle ≤ x.at_ || p.nextChan != ch || decide (4 ≤ m.rowq.length) || m.stopped then s
    else
      let s1 := s.modElem e fun v => v.modPl fun q => q.popIn ch
      if x.tok.k then
        (if m.part.isEmpty && scaleHeader p.afmt (laneOf x.tok.data 0) then
          s1.modMel e fun m => { m with scales := some (scalesOf x.tok) }
         else s1.melFault e (laneOf x.tok.data 0))
      else
        let row := m.part ++ [x.tok]
        if row.length = p.rowTokens then
          s1.modMel e fun m => { m with part := [], rowq := m.rowq ++ [(row, m.scales)], onI1 := !m.onI1 }
        else s1.modMel e fun m => { m with part := row }

/-- ROW_ASSEMBLY (R112): in a cycle at most one token from each channel. -/
def execRowAssembly (e : ElemId) (s : State) : Res :=
  if !s.melRuns e then .next s
  else
    let first := (s.elem e).pl.nextChan
    .next ((s.assemble e first).assemble e (1 - first))

/-! ### Firing rows (R113, R114) -/

/-- Cycles between rows, or the rows of one cycle, that the planes of the weights allow (R42, R114). -/
def State.rateAllows (s : State) (e : ElemId) (w : Weights) : Bool :=
  let p := (s.elem e).pl
  let m := p.mel
  let planes := planesOf (wfield w.nw0 3 0)
  if m.lastRow = 0 then true
  else if m.lastRow = s.cycle + 1 then
    decide (planes ≤ 4) && decide (m.rowsNow < 2) && !(p.path = 2 && p.clen != 1)
  else if 9 ≤ planes then decide (m.lastRow + 1 ≤ s.cycle) else true

/-- The input channel of a C row, if NW2 takes C from one. -/
def Plane4K.cChan (p : Plane4K) : Option Nat :=
  match p.csrc with
  | 1 | 3 => some 0
  | 2 | 4 => some 1
  | _ => none

/-- The scratch offset of the next C row (R183, R184). -/
def Plane4K.cOff (p : Plane4K) : Nat := 16 * wfield (p.node 3) 21 9 + p.mel.cAt

/-- Bytes of a result row in the output ring. -/
def Plane4K.rowBytes (p : Plane4K) : Nat := if p.ofmt = 5 then 64 else 128

/-- The scratch offset of the result row that comes k rows after the next. -/
def Plane4K.ringOff (p : Plane4K) (k : Nat) : Nat :=
  16 * wfield (p.node 2) 22 10 + (p.mel.ringAt + k * p.rowBytes) % p.ringBytes

/-- Whether the output sink has room for a row, `k` fired rows being ahead of it, each of which has its place (R113, R183;
log 94). -/
def State.sinkRoom (s : State) (e : ElemId) (k : Nat) : Bool :=
  let v := s.elem e
  let p := v.pl
  if wfield (p.node 2) 9 9 = 1 then
    (readGranules (p.ringOff k) p.rowBytes).all fun g => !v.full.contains g
  else
    let need := if p.ofmt = 5 then 1 else 2
    decide ((p.outq false).length + (k + 1) * need ≤ 2) && decide ((p.outq true).length + (k + 1) * need ≤ 2)

/-- The element below in the weave column. -/
def below (e : ElemId) : ElemId := { e with row := e.row + 1 }

/-- The C row that a row takes: 32 values, with the state after it is taken; none if it is not there (R44, R113, R183). -/
def State.takeC (s : State) (e : ElemId) : Option (List Int × State) :=
  let v := s.elem e
  let p := v.pl
  let int := p.path = 2
  let val (w : Word) : Int := if int then w.toInt else w.toNat
  if p.pos = 2 || p.pos = 3 then
    match p.mel.seam with
    | x :: rest => if x.due ≤ s.cycle then some (x.vals, s.modMel e fun m => { m with seam := rest }) else none
    | [] => none
  else match p.cChan with
    | some ch =>
      let q := p.inq ch
      if decide (4 ≤ q.length) && (q.take 4).all (fun x => decide (x.at_ < s.cycle)) then
        some ((q.take 4).flatMap fun x => (List.range 8).map fun l => val (laneOf x.tok.data l),
              s.modElem e fun v => v.modPl fun r => (((r.popIn ch).popIn ch).popIn ch).popIn ch)
      else none
    | none =>
      if p.csrc = 5 then
        let gs := readGranules p.cOff 128
        if gs.all v.full.contains then
          some ((List.range 32).map fun n => val (BitVec.ofNat 32 (readVal v.scr (p.cOff + 4 * n) 4)),
                (s.setElem e { v with full := v.full.filter fun g => !gs.contains g }).modMel e
                  fun m => { m with cAt := (m.cAt + 128) % p.ringBytes })
        else none
      else some (List.replicate 32 0, s)

/-- Whether the C of the next row comes from scratch and meets a spoilt word there (R392). -/
def Plane4K.cSpoilt (p : Plane4K) (v : Elem) : Bool :=
  p.pos != 2 && p.pos != 3 && p.cChan.isNone && p.csrc = 5 && v.meetsSpoilt p.cOff 128

/-- Whether a channel carries the first token of an A row (R112). -/
def Plane4K.carriesFirst (p : Plane4K) (ch : Nat) : Bool :=
  match p.ich with
  | 0 => ch = 0
  | 1 => ch = 1
  | _ => ch = 0 || p.rowTokens = 1

/-- A header token that has arrived on a channel that carries no first token of a row (R112): its word. -/
def State.headerAstray (s : State) (e : ElemId) : Option Word :=
  let p := (s.elem e).pl
  [0, 1].findSome? fun ch => if p.carriesFirst ch then none else (p.inq ch).findSome? fun x =>
    if x.tok.k && decide (x.at_ < s.cycle) then some (laneOf x.tok.data 0) else none

/-- The number of a block's bytes from an offset on. -/
def Weights.nat (w : Weights) : Nat := leNat w.block

/-- The 32 results of a row: the seam's values at a first or middle position, else the outputs before their format (R45, R47,
R48). -/
def rowResults (p : Plane4K) (w : Weights) (toks : List Token) (sc : Option Scales) (c : List Int) : List Int :=
  let wfmt := wfield w.nw0 3 0
  let wb := formatBits wfmt
  let all := w.nat
  let scaleAt := 64 * wb * 4
  let aNat := leNat (toks.flatMap fun t => toBytes 32 t.data.toNat)
  let as := (List.range 64).map fun k => packedAt (formatBits p.afmt) aNat k
  let blen := match sc with | some x => x.blen.toNat | none => 2
  let sb := match sc with | some x => x.s.map BitVec.toNat | none => [127]
  (List.range 32).map fun n =>
    let ws := (List.range 64).map fun k => packedAt wb all (32 * k + n)
    let cn := (c.drop n).headD 0
    match p.path with
    | 0 =>
      let sw := if wfield w.nw0 7 6 = 1 then e8m0 ((all >>> (8 * (scaleAt + n))) % 256) else some 0
      ((windowColumn p.afmt wfmt as ws blen sb sw (f32 (BitVec.ofInt 32 cn))).toNat : Int)
    | 1 =>
      let q := (all >>> (8 * (scaleAt + n))) % 256
      let sup := BitVec.ofNat 32 (all >>> (8 * (scaleAt + 32 + 4 * n)))
      ((scaledColumn p.afmt as ws blen sb q sup (BitVec.ofInt 32 cn)).toNat : Int)
    | _ => integerColumn p.afmt wfmt as ws cn

/-- Whether the seam below has a free entry (R113): a row on its way there takes an entry only as it arrives, so that the seam
carries the rows of R114 (log 94). -/
def State.seamRoom (s : State) (e : ElemId) : Bool :=
  decide (((s.elem (below e)).pl.mel.seam.filter fun r => decide (r.due < s.cycle)).length < 2)

/-- MROW_FIRE (R113): the next A row fires when its weights, its C, its seam and its sink allow it. -/
def execMrowFire (e : ElemId) (s : State) : Res :=
  let p := (s.elem e).pl
  match s.headerAstray e with
  | some w => if s.melRuns e then .next (s.melFault e w) else .next s
  | none =>
    match p.mel.rowq, p.mel.weights with
    | (toks, sc) :: rest, some w =>
      let onward := p.pos = 1 || p.pos = 2
      let room := if onward then s.seamRoom e else s.sinkRoom e p.mel.fired.length
      if !s.melRuns e || p.mel.reload.isSome || !room || !s.rateAllows e w then .next s
      else match s.takeC e with
        | none => .next s
        | some (c, s1) =>
          if p.cSpoilt (s.elem e) then .next (s.melSpoilt e p.cOff) else
          let slow := decide (9 ≤ planesOf (wfield w.nw0 3 0))
          let vals := rowResults p w toks sc c
          let s2 := s1.modMel e fun m =>
            { m with rowq := rest, rowsNow := if m.lastRow = s.cycle + 1 then m.rowsNow + 1 else 1, lastRow := s.cycle + 1 }
          if onward then .next (s2.modMel (below e) fun m =>
            { m with seam := m.seam ++ [⟨vals, s.cycle + (if slow then 5 else 4)⟩] })
          else .next (s2.modMel e fun m => { m with fired := m.fired ++ [⟨vals, s.cycle + (if slow then 6 else 5)⟩] })
    | _, _ => .next s

/-! ### Output (R49, R115) -/

/-- A result in its output format, as bytes (R48, R49). -/
def outBytes (p : Plane4K) (v : Int) : List Byte :=
  if p.ofmt = 5 then toBytes 2 (fmtBf16.narrow false (f32 (BitVec.ofInt 32 v)))
  else if p.path = 2 then toBytes 4 (satS32 v).toNat
  else toBytes 4 (BitVec.ofInt 32 v).toNat

/-- The results of the oldest fired row put out, if its time has come and it finds room; else it waits. -/
def State.outputRow (s : State) (e : ElemId) : State :=
  let p := (s.elem e).pl
  match p.mel.fired with
  | [] => s
  | r :: rest =>
    if s.cycle < r.due || !s.sinkRoom e 0 then s
    else
      let bs := r.vals.flatMap (outBytes p)
      let s1 := s.modMel e fun m => { m with fired := rest }
      if wfield (p.node 2) 9 9 = 1 then
        (s1.modElem e fun v => v.engineWrite (p.ringOff 0) (bs.map some)).modMel e
          fun m => { m with ringAt := (m.ringAt + p.rowBytes) % p.ringBytes }
      else
        let tok (j : Nat) : OutEntry := .filled ⟨tokenOf (bs.drop (32 * j)) 0, s.cycle⟩
        let n := bs.length / 32
        let evens := ((List.range n).filter fun j => j % 2 = 0).map tok
        let odds := ((List.range n).filter fun j => j % 2 = 1).map tok
        s1.modElem e fun v => v.modPl fun q =>
          (q.setOut false (q.outq false ++ evens)).setOut true (q.outq true ++ odds)

/-- MROW_OUTPUT (R115): the results of the fired rows whose time has come, at most two in a cycle, reach the outputs or the scratch
ring. -/
def execMrowOutput (e : ElemId) (s : State) : Res := .next ((s.outputRow e).outputRow e)

end Sys2Proof.Machine
end

