-- ==== Sys2Proof/Machine/EvFreeze.lean ====
section
/-! DEFINITION. Events of grid calls and freezes (12_kernels_calls.md R280 to R293): the wave, the freeze point, callees, returns,
spills and refills; and the end of a task at an element's fault (R389). -/

namespace Sys2Proof.Machine

/-! ### The wave and the freeze point (R286, R287) -/

/-- FREEZE_WAVE (R286, R326): the parked queue operations of a freezing region's contexts are cancelled. -/
def execFreezeWave (region : Nat) (s : State) : Res :=
  match s.region region with
  | none => .next s
  | some g =>
    if g.wave.isNone then .next s
    else
      let ps := (s.ports.parked.filter fun w => w.side != .barrier && (match w.party with | .elem e _ => g.holds e | _ => false)).map
        Parked.party
      .next (ps.foldl State.cancelOp s)

/-- Whether a firing is one that a freeze saves, to issue again (R177, R287). -/
def InFlight.saved (f : InFlight) : Bool :=
  match f.wait with
  | .turn | .granule | .port | .nest | .performed | .permit | .latch | .page => true
  | .pieces _ => f.o0.isNone && f.o1.isNone
  | _ => false

/-- Whether an element has finished the steps of R286. -/
def State.elemStill (s : State) (e : ElemId) : Bool :=
  let p := (s.elem e).pl
  (p.ctxs.toList.all fun t => match t.fly with | none => true | some f => f.saved) &&
  (p.mel.fired.isEmpty || !s.sinkRoom e 0) &&
  (match p.mel.reload with
   | none => true
   | some r => r.ends.isNone &&
      !((readGranules (r.off + r.got.length) (min 128 (blockBytes (p.node 0) - r.got.length))).all (s.elem e).full.contains))

/-- Whether a packet must be delivered before the freeze point (R287, R326): one for scratch or a buffer, or one, due or not, whose
queue has an entry or a landing slot for it. The control class of an element that calls is held in the network (R283). -/
def State.owed (s : State) (g : Region) (p : RowPacket) : Bool :=
  g.holds p.dst && p.lvl = g.levels.length &&
  (match p.load with
   | .queue ch _ =>
     let v := (s.elem p.dst).pl
     !(p.control && (g.call.map Prod.fst) = some p.dst) && decide ((v.inq ch).length + (v.landq ch).length < 6)
   | _ => true)

/-- Whether every element of a region has finished the wave (R287). -/
def State.still (s : State) (g : Region) : Bool :=
  g.elems.all s.elemStill && !(s.fab.updates.any fun u => u.region = g.id) && !(s.fab.packets.any (s.owed g))

/-- Whether a cause is a call. -/
def LevelKind.isCall : LevelKind → Bool
  | .call _ _ _ => true
  | _ => false

/-- Whether a cause is a pre-emption. -/
def LevelKind.isPreempt : LevelKind → Bool
  | .preempt _ => true
  | _ => false

/-- The causes of a wave that count (R292): a call that reaches a region for which a pre-emption has raised the wave already counts as
unfired, and its slot is ready again after the thaw. -/
def liveCauses (ks : List LevelKind) : List LevelKind :=
  if ((ks.filter fun k => k.isCall || k.isPreempt).head?.map LevelKind.isPreempt) = some true then ks.filter fun k => !k.isCall else ks

/-- What the causes of a wave come to (R292): the kind of the level taken, what is met after its thaw, and the causes of the next
wave. A `freeze` or a violation takes its level with the other causes noted, but a pre-emption goes before it; a call whose wave
spreads already goes before a pre-emption. -/
def waveKind (causes : List LevelKind) : LevelKind × List LevelKind × List LevelKind :=
  let ks := liveCauses causes
  if ks.contains .freeze then
    (match ks.find? LevelKind.isPreempt with
     | some p => if ks.any LevelKind.isCall then (.freeze, ks.filter fun k => k.isCall || k.isPreempt, []) else (p, [.freeze], [])
     | none => (.freeze, ks.filter LevelKind.isCall, []))
  else match ks.find? LevelKind.isCall with
    | some c => (c, [], ks.filter LevelKind.isPreempt)
    | none => (ks.head?.getD .freeze, [], [])

/-- What stands for the load of a region that holds none. -/
def LoadInfo.none : LoadInfo :=
  { image := 0, load := 0, args := 0, argv := [], trows := 0, tcols := 0, scrhw := 0, retain := false, calls := [], decls := [],
    qports := [], bports := [] }

/-- A level as the newer one takes its pleat. -/
def Level.down (l : Level) : Level := match l.place with | .pleat 1 => { l with place := .pleat 2 } | _ => l

/-- The snapshot (R287, R288): the active level moves to pleat 1, its streams pause and its probes are discarded (R391). -/
def State.snapshot (s : State) (g : Region) (w : Wave) : State :=
  let ks := waveKind w.causes
  let k := g.levels.length
  let saved := g.elems.map fun e => let v := s.elem e; (⟨e, v.st, v.pl, v.scr, v.full⟩ : Saved)
  let lv : Level :=
    { kind := ks.1, place := .pleat 1, info := g.info.getD LoadInfo.none, next := g.next, items := g.items, bad := g.bad,
      more := ks.2.1, depth := g.depth, cmd := g.cfgCmd, saved := saved, ctx := g.ctx, was := g.st, failed := g.failed,
      voids := g.voids, saveBytes := 0, frameLen := 0 }
  let s1 := g.elems.foldl (fun s e => s.modElem e fun v =>
    { v with st := if v.st = .fenced then .fenced else .frozen, pl := Plane4K.reset, gate := .awake, idleFor := 0 }) s
  let pause (c : Cmd) : Cmd := { c with strm := c.strm.map fun st =>
    if st.region = g.id && st.level = k then { st with paused := true } else st }
  let s2 := { s1 with engs := { s1.engs with cmds := s1.engs.cmds.map pause } }
  let s3 := { s2 with outer := { s2.outer with probes := s2.outer.probes.filter fun p => !g.holds p.e } }
  let s4 := s3.modRegion g.id fun h =>
    { h with st := .frozen, info := none, next := none, items := [], bad := [], cfgCmd := none, failed := none, ret := none,
             call := none, seqCall := none, ending := false, voids := [], levels := lv :: g.levels.map Level.down,
             wave := if ks.2.2.isEmpty then none else some ⟨ks.2.2, s.cycle⟩ }
  if ks.1 = .freeze then s4.markFrozen g.ctx 1 g.die g.id else s4

/-- FREEZE_POINT (R287): the first cycle in which every element has finished. It waits for a binding and for a load that ends, for
a callee that is being configured (R292), and for the spill of the older pleat (R290). -/
def execFreezePoint (region : Nat) (s : State) : Res :=
  match s.region region with
  | none => .next s
  | some g =>
    match g.wave with
    | none => .next s
    | some w =>
      if g.st = .checking || (g.ending && g.st = .running) || (g.inCall && (g.st = .configuring || g.st = .frozen)) then .next s
      else if g.st != .running && g.st != .configuring && w.causes.all (· = .freeze) then
        .next (s.modRegion region fun h => { h with wave := none })
      else if g.levels.any (fun l => l.place = .pleat 2) || !s.still g then .next s
      else .next (s.snapshot g w)

/-! ### Callees (R280, R283, R294) -/

/-- Site-array lines of a binding's buffer, as bytes. -/
def Site.lineRange (t : Site) : Nat × Nat := (64 * t.boff, t.blines * t.lb)

/-- Whether the buffers of two bindings share a site-array line. -/
def Site.shares (a b : Site) : Bool := overlaps a.lineRange.1 a.lineRange.2 b.lineRange.1 b.lineRange.2

/-- The first callee site whose buffer shares a line with a streamed or pinned buffer of the caller (R280). -/
def sharesPinned (g : Region) (lv : Level) (b : Bound) : Option Nat :=
  (sortSites b.sites).findSome? fun t =>
    let e := g.elemAt t.row t.col
    let old := ((lv.saved.find? fun x => x.e = e).map fun x => x.pl.sites).getD []
    if old.any fun u => (u.fill = .stream || u.fill = .pinned) && u.shares (t.bind b.info.argv g.asid) then some t.no else none

/-- The tag-7 tokens of a plane's outputs: those of o0, then those of o1 (R283, R284). -/
def Plane4K.tagged (p : Plane4K) : List Token :=
  (p.outq false ++ p.outq true).filterMap fun o => match o with
    | .filled x => if x.tok.tag = 7 then some x.tok else none
    | .reserved _ => none

/-- Tokens put into an input queue in order. -/
def State.give (s : State) (e : ElemId) (ch : Nat) (ts : List Token) : State :=
  ts.foldl (fun s t => s.modElem e fun v => v.modPl fun p => p.pushIn ch t s.cycle) s

/-- The caller's buffers that share a line with a callee's written back and dropped (R289). -/
def State.shedCaller (s : State) (g : Region) (lv : Level) (b : Bound) : State :=
  let k := g.levels.length - 1
  lv.saved.foldl (fun s x =>
    let news := (b.sites.filter fun t => g.elemAt t.row t.col = x.e).map fun t => t.bind b.info.argv g.asid
    let hit := (x.pl.sites.filter fun u => news.any u.shares).map Site.no
    if hit.isEmpty then s else s.dropSectors x.e g.ctx fun y => y.lvl = k && hit.contains y.site) s

/-- A callee whose checks have passed loaded over the frozen caller (R280, R283): its entry element takes the argument tokens. -/
def State.loadCallee (s : State) (g : Region) (lv : Level) (by_ : Option ElemId) (b : Bound) : State :=
  let args := match by_ with
    | some e => ((lv.saved.find? fun x => x.e = e).map fun x => x.pl.tagged).getD []
    | none => []
  let taken (x : Saved) : Saved := if by_ = some x.e then { x with pl := x.pl.untagged } else x
  let s1 := (s.shedCaller g lv b).beginConfig g b false
  let s2 := s1.modRegion g.id fun h =>
    { h with depth := lv.depth + 1, levels := { lv with saved := lv.saved.map taken } :: g.levels.drop 1 }
  match by_ with
  | some e => if (g.rect b.info.trows b.info.tcols).contains e then s2.give e 0 args else s2
  | none => s2

/-- The checks of R280 on a call whose caller is frozen: what is to be loaded, or the failure. -/
def State.checkCallee (s : State) (g : Region) (lv : Level) (f : Nat) (cmd : Option Cmd) : (Bound ⊕ BindFail) × State :=
  let entry := lv.info.calls[f]?.getD 0
  let args := match cmd with
    | some c => (match c.kind with | .gcall _ a => a | _ => 0)
    | none => lv.info.args
  let user := match cmd with | some c => c.user | none => true
  let w : Binder := ⟨.region g.id, g.die, g.ctx, g.asid, user, g.task⟩
  if !entry.getLsbD 63 then (.inr (bindFail 0x1C (f + 128) 0), s)
  else
    let image := if entry.getLsbD 62 then lv.info.image else (lv.info.argv[field entry 61 56]?.getD 0).toNat
    match s.readImage w image with
    | (.inr x, s1) => (.inr x, s1)
    | (.inl b, s1) =>
      let h := headerOf b
      if h.scalar || g.trows < h.trows || g.tcols < h.tcols then (.inr (bindFail 0x13 0x20000 0), s1)
      else if (h.edgew && g.tcol != 0) || (h.edgee && g.tcol + g.tcols != 20) then (.inr (bindFail 0x13 0x40000 0), s1)
      else match s1.checkBinding w b image 0 args g.row0 g.col0 with
        | (.inr x, s2) => (.inr x, s2)
        | (.inl x, s2) =>
          match sharesPinned g lv x with
          | some k => (.inr (bindFail 0x13 (k + 0x80000) 0), s2)
          | none => if 255 ≤ lv.depth then (.inr (bindFail 0x14 lv.depth 0), s2) else (.inl x, s2)

/-- A `gcall` of a strand taken up (R294): the freeze of its region is raised, or the command fails. -/
def State.takeCall (s : State) (g : Region) (c : Cmd) (entry : DWord) (args : Nat) : State :=
  let seen := (s.seenAs c.strand g).1
  if g.inCall && (seen = .frozen || seen = .configuring) && g.strand = some c.strand then s
  else if seen != .running && seen != .ended then s.failFor c.id (bindFail 0x1C 0 0)
  else if field entry 63 5 != 0 then s.failFor c.id (bindFail 0x13 0 0)
  else if g.wave.isSome || g.call.isSome || g.ret.isSome then s
  else
    let f := field entry 4 0
    let s1 := s.modCmd c.id fun c => { c with began := true, unit := g.die * 64 }
    (s1.raiseWave g.id (.call f none (some c.id))).modRegion g.id fun h => { h with seqCall := some (c.id, f, args) }

/-- The `gcall` that may be taken up next, of a strand with a region, or with none for 0. -/
def State.nextCall (s : State) (region : Nat) : Option (Cmd × DWord × Nat) :=
  s.engs.cmds.findSome? fun c => match c.kind with
    | .gcall entry args =>
      let mine := match s.bound c.strand with | some g => g.id = region | none => region = 0
      if mine && !c.began && s.mayBegin c && !s.behind c then some (c, entry, args) else none
    | _ => none

/-- CALLEE_BIND (R280, R285, R294): the callee of a frozen caller is checked and its configuration begins, or the call fails; a
`gcall` of a strand is taken up. -/
def execCalleeBind (region : Nat) (s : State) : Res :=
  match s.region region with
  | none =>
    (match s.nextCall 0 with
     | some (c, _, _) => .next (s.failFor c.id (bindFail 0x1C 0 0))
     | none => .next s)
  | some g =>
    match g.st, g.levels with
    | .frozen, lv :: _ =>
      (match lv.kind with
       | .call f by_ cmd =>
         (match s.checkCallee g lv f (cmd.bind s.cmd) with
          | (.inr x, s1) => .next (if x.waits then s.retry s1 else s1.callFailed g x)
          | (.inl b, s1) => .next (s1.loadCallee g lv by_ b))
       | _ => (match s.nextCall region with
         | some (c, entry, args) => .next (s.takeCall g c entry args)
         | none => .next s))
    | _, _ =>
      (match s.nextCall region with
       | some (c, entry, args) => .next (s.takeCall g c entry args)
       | none => .next s)

/-! ### Returns (R281, R284, R289) -/

/-- A callee's end: its buffers, streams and sweeps go, the caller's level is restored, and the results enter i3 of the element
that called. -/
def State.returnCall (s : State) (g : Region) (lv : Level) (from_ : Option ElemId) : State :=
  let k := g.levels.length
  let results := match from_ with | some e => (s.elem e).pl.tagged | none => []
  let s1 := ((s.stopStreams false g k).failSweeps false g k).clearElems g k
  let s2 := s1.restoreLevel g.id
  match lv.kind with
  | .call _ (some e) _ => s2.give e 3 results
  | .call _ none (some c) => s2.endCmd c 0
  | _ => s2

/-- GRID_RETURN (R284): once what the callee fired is complete and the caller's level stands in pleat 1. -/
def execGridReturn (region : Nat) (s : State) : Res :=
  match s.region region with
  | none => .next s
  | some g =>
    match g.ret, g.levels with
    | some from_, lv :: _ =>
      if !g.inCall || g.st != .running || g.failed.isSome || g.dropBy.isSome || !g.ending || lv.place != .pleat 1 ||
          !s.settledLoad g then .next s
      else if (s.streamsOf g g.levels.length).isEmpty then .next (s.returnCall g lv from_)
      else .next (s.cutEnded g)
    | _, _ => .next s

/-! ### Pleats and the hamper (R290, R291) -/

/-- Scratch bytes S that a level saves (R289): the lesser of its own mark and the newer level's. -/
def Region.savedBytes (g : Region) (i : Nat) : Nat :=
  let own := (g.levels[i]?.map fun l => l.info.scrhw).getD 0
  let newer := if i = 0 then (g.info.map LoadInfo.scrhw).getD own else (g.levels[i - 1]?.map fun l => l.info.scrhw).getD own
  min own newer

/-- Bytes of an element's record of a level. -/
def recordBytes (sBytes : Nat) : Nat := (4096 + sBytes + sBytes / 16 + 63) / 64 * 64

/-- Bytes of the frame of a level that is spilt; those of a level that has a sweep carry 131,072 more for each hem tile (R365). -/
def State.frameBytes (s : State) (g : Region) (i : Nat) : Nat :=
  64 + 16 * g.trows * g.tcols * recordBytes (g.savedBytes i) +
    if s.engs.sweeps.any fun w => s.sweepLive w && w.region = g.id && w.level = g.levels.length - 1 - i then 64 * 131072 else 0

/-- Where the frame of a level that is spilt goes: above the older frames of its context in the region's hamper slot. -/
def State.frameAt (s : State) (g : Region) (i : Nat) : Nat :=
  let ctx := (g.levels[i]?.map Level.ctx).getD 0
  let base := (s.desc g.die ctx.toNat).hamper.toNat + (g.die * 320 + g.trow * 20 + g.tcol) * 2 ^ 40
  (g.levels.drop (i + 1)).foldl (fun a l => match l.place with
    | .hamper va => if l.ctx = ctx then max a (va + l.frameLen) else a
    | _ => a) base

/-- Full bits of the first S bytes of scratch, packed low first, in S / 16 bytes. -/
def fullBytes (full : List Nat) (sBytes : Nat) : List Byte :=
  (List.range (sBytes / 16)).map fun i => BitVec.ofNat 8 ((List.range 8).foldl (fun a j =>
    if full.contains (8 * i + j) && decide (16 * (8 * i + j) < sBytes) then a + 2 ^ j else a) 0)

/-- A level's frame (R291). The layout of a plane is not architectural (log 6). -/
def State.frame (s : State) (g : Region) (lv : Level) (i no : Nat) : List Byte :=
  let n := g.savedBytes i
  let head := toBytes 8 lv.info.image ++
    toBytes 8 (lv.info.load % 256 * 2 ^ 56 + lv.depth % 256 * 2 ^ 48 + g.trows * 2 ^ 40 + g.tcols * 2 ^ 32 + n) ++
    toBytes 8 (s.frameBytes g i) ++ toBytes 8 lv.info.args ++ List.replicate 32 0
  let sweep := s.frameBytes g i - (64 + lv.saved.length * recordBytes n)
  head ++ (lv.saved.zipIdx.flatMap fun x =>
    let body := (List.range 4096).map (fun j => Config.frameByte no (x.2 * 4096 + j)) ++ readN x.1.scr 0 n ++ fullBytes x.1.full n
    body ++ List.replicate (recordBytes n - body.length) 0) ++
      (List.range sweep).map fun j => Config.frameByte no (lv.saved.length * 4096 + j)

/-- The pieces of a frame's bytes in memory, or the code of the first fault; frames are moved by the region's die with supervisor
privilege under the level's context. `noFault` says that a walk or the host is awaited. -/
def State.framePieces (s : State) (g : Region) (lv : Level) (acc : Access) (va n : Nat) :
    (List (Nat × Nat × PageAttr) ⊕ Nat) × State :=
  if 2 ^ 57 < va + n then (.inr 0x19, s)
  else (pagesOf va n).foldl (fun (r : (List (Nat × Nat × PageAttr) ⊕ Nat) × State) p =>
    match r with
    | (.inr f, s) => (.inr f, s)
    | (.inl ps, s) =>
      let k := inPage va (va + n) p
      match s.translate (.region g.id) (.engine g.die) lv.ctx (s.desc g.die lv.ctx.toNat).asid acc false none p k with
      | (.ok pa e, s1) =>
        (match s1.ownedIn (pageAttr e) pa k with
         | some line => (.inr noFault, s1.snoop line)
         | none =>
           if acc = .read && s1.spoilt g.die none pa k then (.inr 0x16, s1) else (.inl (ps ++ [(pa, k, pageAttr e)]), s1))
      | (.miss, s1) => (.inr noFault, s1)
      | (.bad _ _, s1) => (.inr 0x19, s1)) (.inl [], s)

/-- The level of a number in the list changed. -/
def State.modLevel (s : State) (id i : Nat) (f : Level → Level) : State :=
  s.modRegion id fun g => { g with levels := g.levels.zipIdx.map fun x => if x.2 = i then f x.1 else x.1 }

/-- A call that a failed spill ends before its caller has frozen (R285, R290). -/
def State.callUnspilt (s : State) (g : Region) : State :=
  let rest (w : Wave) : Option Wave :=
    let ks := w.causes.filter fun k => match k with | .call _ _ _ => false | _ => true
    if ks.isEmpty then none else some { w with causes := ks }
  let s1 := s.modRegion g.id fun h => { h with wave := h.wave.bind rest, call := none, seqCall := none }
  match (g.wave.map Wave.causes).getD [] |> elemCall, (g.wave.map Wave.causes).getD [] |> strandCall with
  | some (e, _), _ =>
    let s2 := s1.post g.ctx g.die g.asid (recordWords 0x19 0 6 g.die 0 g.asid 0 g.ctx 0 0 0)
    (s2.modElem e fun v => v.modPl Plane4K.untagged).give e 3 [⟨lanes fun l => if l = 0 then 0x19 else 0, 6, false⟩]
  | none, some (c, _) => s1.failFor c (bindFail 0x19 0 0)
  | none, none => s1

/-- PLEAT_SPILL (R290): a freeze that finds the older pleat occupied moves it to the hamper first. -/
def execPleatSpill (region : Nat) (s : State) : Res :=
  match s.region region with
  | none => .next s
  | some g =>
    match g.wave, g.levels.zipIdx.find? fun x => x.1.place = .pleat 2 with
    | some w, some (lv, i) =>
      let va := s.frameAt g i
      let len := s.frameBytes g i
      (match s.framePieces g lv .write va len with
       | (.inl ps, s1) =>
         let s2 := (lineWrites (placed ps (s.frame g lv i s1.serial))).foldl (fun s x =>
           s.performWrite g.die x.1 x.2 (s.mark lv.ctx 63 false (pieceAttr ps x.1)) false) s1
         .next (s2.modLevel region i fun l => { l with place := .hamper va, saveBytes := g.savedBytes i, frameLen := len })
       | (.inr code, s1) =>
         if code = noFault then .next (s.retry s1)
         else if (elemCall w.causes).isSome || (strandCall w.causes).isSome then .next (s1.callUnspilt g)
         else .next (s1.modLevel region i fun l => { l with
           place := .hamper va, saveBytes := g.savedBytes i, frameLen := len, failed := l.failed.orElse fun _ => some 0x19 }))
    | _, _ => .next s

/-- A saved element with what its record in memory holds. -/
def Saved.refilled (x : Saved) (n : Nat) (rec : List Byte) : Saved :=
  let bits := (rec.drop (4096 + n)).take (n / 16)
  let full := (List.range (n / 16)).filter fun k => (bits[k / 8]?.getD 0).getLsbD (k % 8)
  { x with scr := joinScratch n (writeN [] 0 ((rec.drop 4096).take n)) x.scr,
           full := full ++ x.full.filter fun k => decide (n ≤ 16 * k) }

/-- The level that a return wants refilled: the newest of the two uppermost that lies in the hamper (R290). -/
def Region.wanted (g : Region) : Option (Level × Nat × Nat) :=
  (g.levels.zipIdx.take 2).findSome? fun x => match x.1.place with | .hamper va => some (x.1, x.2, va) | _ => none

/-- A refill that fails (R290, R389): the level's task fails. -/
def State.refillFailed (s : State) (g : Region) (lv : Level) (i code : Nat) : State :=
  let s1 := s.post lv.ctx g.die (s.desc g.die lv.ctx.toNat).asid
    (recordWords code 0 6 g.die 0 (s.desc g.die lv.ctx.toNat).asid 0 lv.ctx 0 0 0)
  let s2 := s1.modLevel g.id i fun l => { l with place := .pleat (i + 1), failed := l.failed.orElse fun _ => some code }
  if i < g.own.length then s2.modRegion g.id fun h => { h with failed := h.failed.orElse fun _ => some code } else s2

/-- PLEAT_REFILL (R290): a pleat that a return has freed takes the newest frame. -/
def execPleatRefill (region : Nat) (s : State) : Res :=
  match s.region region with
  | none => .next s
  | some g =>
    match g.wave, g.wanted with
    | none, some (lv, i, va) =>
      (match s.framePieces g lv .read va lv.frameLen with
       | (.inl ps, s1) =>
         let s2 := ps.foldl (fun s p => s.touchRead g.die p.1 p.2.1 (s.mark lv.ctx 63 false p.2.2)) s1
         let bs := ps.flatMap fun p => s2.bytesAt g.die p.1 p.2.1
         let n := lv.saveBytes
         let fill (x : Saved × Nat) : Saved := x.1.refilled n ((bs.drop (64 + x.2 * recordBytes n)).take (recordBytes n))
         .next (s2.modLevel region i fun l => { l with place := .pleat (i + 1), saved := l.saved.zipIdx.map fill })
       | (.inr code, s1) => .next (if code = noFault then s.retry s1 else s1.refillFailed g lv i code))
    | _, _ => .next s

/-! ### The end of a task at an element's fault (R389) -/

/-- TASK_FAULT_END (R389): the load of a region whose element has faulted stops as `cfgdrop` stops it, and its task fails. -/
def execTaskFaultEnd (region : Nat) (s : State) : Res :=
  match s.region region with
  | none => .next s
  | some g =>
    match g.failed with
    | none => .next s
    | some code =>
      if !(g.st = .running || g.st = .ended) || g.dropBy.isSome || (g.wave.isSome && !g.ending) then .next s
      else if !g.ending then .next ((s.stopStreams false g g.below).modRegion region fun h => { h with ending := true })
      else if !s.quiet g then .next s
      else .next (s.failLoad g code 0)

end Sys2Proof.Machine
end

