-- ==== Sys2Proof/Machine/SeqTask.lean ====
section
/-! DEFINITION. `launch`, `tdone` and `tstat` (13_tasks_groups.md R312 to R314). -/

namespace Sys2Proof.Machine

/-- `launch` (R312): LAUNCH_ADMIT reads the record. -/
def execLaunch (q : Issue) (d a : GReg) (s : State) : Res :=
  let t := s.cur
  s.command q d [a] .tl (.launch (t.reg a).toNat t.prio.toNat) false [((t.reg a).toNat, 128, .read)]

/-- The acting strand's task ended with a status, its region returned (R309, R313). -/
def State.leaveTask (s : State) (status : Nat) : State :=
  let t := s.cur
  let s1 := match t.task with
    | none => s
    | some no => if status = 0 then s.beginRetire no 0 else s.failTask no status 0 0 0
  match s1.bound s1.focus.strand with
  | some g => s1.returnLevel g (t.task.isSome && status != 0)
  | none => s1

/-- `tdone` (R313): it waits as `wait` with every count 0 does; the strand becomes a free worker. Its status is the CODE of the
task's record as it stands, one that R387 does not list too (log 90). -/
def execTdone (q : Issue) (a : GReg) (s : State) : Res :=
  let t := s.cur
  if !t.sup && t.task.isNone then .next s.trapPriv
  else if !(t.waitMet 0 0 0 0 0) then .next s.stall
  else .next ((s.leaveTask (field (t.reg a) 7 0)).done q 4 fun t =>
    { t with worker := true, run := .idle, task := none, region := none, woken := false })

/-- `tstat` (R314): counts in LD. -/
def execTstat (q : Issue) (d a : GReg) (s : State) : Res :=
  let t := s.cur
  if t.awaits a || decide (32 ≤ t.outstanding .ld) then .next s.stall
  else
    let k : OpKind := if t.reg a = 0 then .taskWord none
      else match t.lookupHandle s.focus.strand (t.reg a) with
        | some h => (match h.kind with | .launch _ _ => .taskWord (some h.cmd) | _ => .value 7)
        | none => .value 7
    .next ((s.addOp k d .ld none false false true 0).done q 4 id)

end Sys2Proof.Machine
end

