-- ==== Sys2Proof/Machine/EvTask.lean ====
section
/-! DEFINITION. Events of the dispatchers (13_tasks_groups.md R297 to R311): admission, readiness, binding, pre-emption and
retirement. -/

namespace Sys2Proof.Machine

/-! ### Launch records (R297, R298, R312) -/

/-- A launch record. -/
structure LaunchRec where
  image   : DWord
  args    : DWord
  src2    : DWord
  w18     : DWord
  w20     : DWord
  w28     : DWord
  cq      : DWord
  handle  : DWord
  ranges  : List DWord
  deriving DecidableEq, Repr

/-- The record in 128 bytes. -/
def launchRec (b : List Byte) : LaunchRec :=
  let w (o : Nat) : DWord := imgDword b o
  ⟨w 0, w 8, w 0x10, w 0x18, w 0x20, w 0x28, w 0x30, w 0x38, (List.range 8).map fun i => w (0x40 + 8 * i)⟩

/-- GROUP. -/
def LaunchRec.group (r : LaunchRec) : Nat := field r.w18 63 32
/-- MEMBERS. -/
def LaunchRec.members (r : LaunchRec) : Nat := field r.w18 31 16
/-- BOP. -/
def LaunchRec.bop (r : LaunchRec) : Nat := field r.w20 23 20
/-- KIND. -/
def LaunchRec.kind (r : LaunchRec) : Nat := field r.w20 19 18
/-- DETACH. -/
def LaunchRec.detach (r : LaunchRec) : Bool := r.w20.getLsbD 14
/-- COUNT. -/
def LaunchRec.count (r : LaunchRec) : Nat := field r.w28 39 0

/-- The offset of the first field of a record that is reserved or out of range (R312). -/
def LaunchRec.bad (r : LaunchRec) : Option Nat :=
  let bank := r.kind = 2
  firstBad ([
    (0x10, r.src2 != 0 && !(bank && decide (r.bop ≤ 4))),
    (0x18, field r.w18 15 0 != 0 || (if r.group = 0 then r.members != 0 else decide (r.members < 2) || decide (1024 < r.members))),
    (0x20, field r.w20 63 24 != 0 || field r.w20 13 10 != 0 || r.kind = 3 || (if bank then decide (7 ≤ r.bop) else r.bop != 0)),
    (0x28, field r.w28 63 40 != 0 || (!bank && r.count != 0))] ++
    r.ranges.zipIdx.map fun x => (0x40 + 8 * x.2,
      if bank then x.1 != 0 else (rangeOf x.1).2 != 0 && decide (2 ^ 57 < (rangeOf x.1).1 + (rangeOf x.1).2)))

/-- The ranges of a record: first byte, bytes, written or only read. A bank task's are those of its command. -/
def LaunchRec.spans (r : LaunchRec) : List (Nat × Nat × Bool) :=
  if r.kind = 2 then
    (if r.bop = 6 then [] else [(r.args.toNat, r.count, false)]) ++ (if r.bop ≤ 4 then [(r.src2.toNat, r.count, false)] else []) ++
      [(r.image.toNat, r.count, true)]
  else (r.ranges.zipIdx.map fun x => ((rangeOf x.1).1, (rangeOf x.1).2, decide (4 ≤ x.2))).filter fun x => x.2.1 != 0

/-! ### Admission (R299 to R303) -/

/-- The level of a region by its number, counted from the oldest; none for the active level. -/
def Region.frozenAt (g : Region) (l : Nat) : Option Level := if l < g.levels.length then g.levels[g.levels.length - 1 - l]? else none

/-- The planes of a level of a region, with their elements. -/
def State.planesAt (s : State) (g : Region) (l : Nat) : List (ElemId × Plane4K) :=
  match g.frozenAt l with
  | some v => v.saved.map fun x => (x.e, x.pl)
  | none => if l = g.levels.length then g.elems.map fun e => (e, (s.elem e).pl) else []

/-- The resident buffers of a region of a die whose windows overlap the write ranges of a task of the same ASID (R303). -/
def State.breaksFor (s : State) (t : Task) : List PinBreakDue :=
  (s.tasks.regions.filter fun g => g.die = t.die).flatMap fun g =>
    (List.range (g.levels.length + 1)).flatMap fun l => (s.planesAt g l).flatMap fun x =>
      (x.2.sites.filter fun u => u.life = .resident && u.asid = t.asid &&
        t.ranges.any fun r => r.2.2 && overlaps r.1 r.2.1 u.base u.extent).map fun u => ⟨g.id, l, x.1, u.no, t.no⟩

/-- A task admitted to the table of its die: its number, its arcs, its place in its stream, and the pin breaks that it is held
back by. -/
def State.addTask (s : State) (t : Task) : Task × State :=
  let k := s.disp t.die
  let no := t.die % 8 * 2 ^ 21 + k.counter % 2 ^ 21
  let t1 := { t with no := no, since := s.cycle }
  let t2 := { t1 with arcs := s.arcsFor t1, follows := s.followsFor t1 }
  let s1 := s.setDisp { k with counter := k.counter + 1 }
  (t2, { s1 with tasks := { s1.tasks with tasks := (s1.tasks.tasks.filter fun x => x.no != no || x.held) ++ [t2],
                                          breaks := s1.tasks.breaks ++ s1.breaksFor t2 } })

/-- What a group admits (R306): false for a launch that breaks its rules. -/
def State.groupAdmits (s : State) (r : LaunchRec) (ctx : BitVec 10) : Bool :=
  r.group = 0 || (r.kind != 2 && match s.group r.group with
    | none => true
    | some g => g.st = .forming && g.members = r.members && g.ctx = ctx && decide (g.tasks.length < g.members))

/-- A member entered in its group. -/
def State.joinGroup (s : State) (r : LaunchRec) (ctx : BitVec 10) (no : Nat) : State :=
  if r.group = 0 then s
  else match s.group r.group with
    | some _ => s.modGroup r.group fun g => { g with tasks := g.tasks ++ [no] }
    | none => { s with tasks := { s.tasks with groups := s.tasks.groups ++ [⟨r.group, r.members, ctx, [no], .forming, s.cycle⟩] } }

/-- A task as a record gives it; `prio` is the least priority number it may have, `item` the handle of its launch. -/
def LaunchRec.task (r : LaunchRec) (die : Nat) (ctx : BitVec 10) (asid : BitVec 16) (user : Bool) (prio : Nat) (launch : Option Nat)
    (item : DWord) : Task :=
  { no := 0, die := die, kind := r.kind, ctx := ctx, asid := asid, image := r.image.toNat, args := r.args.toNat,
    src2 := r.src2.toNat, bop := r.bop, count := r.count, prio := max (field r.w20 17 16) prio, lq := field r.w20 9 0,
    overlap := r.w20.getLsbD 15, cq := r.cq.toNat, handle := r.handle, group := r.group, ranges := r.spans, arcs := [],
    follows := none, st := .waiting, since := 0, pooled := false, aged := 0, waitAt := none, status := 0, launch := launch,
    user := user, strand := none, region := none, bank := none, bound := 0, above := none, packet := none, item := item, pc := 0,
    place := none, opsDue := [], cmdsDue := [] }

/-- A launch with its record read: its checks (R312), then its admission. -/
def State.admitTask (s : State) (c : Cmd) (prio : Nat) (r : LaunchRec) : State :=
  let fail (code det : Nat) : State := s.failCmd c.id code 0 6 0 det 0
  match r.bad with
  | some off => fail 0x13 off
  | none =>
    if !(s.desc c.die c.ctx.toNat).v || s.ctxs.dying.contains c.ctx.toNat then fail 0x1C 0
    else if !s.groupAdmits r c.ctx then fail 0x13 0x100000
    else
      let a := s.addTask (r.task c.die c.ctx c.asid c.user prio (some c.id) (s.cmdHandle c))
      let s1 := (a.2.joinGroup r c.ctx a.1.no).modCmd c.id fun c => { c with began := true }
      if r.detach then s1.endCmd c.id 0 else s1

/-- The launch that stands first at a die's dispatcher. -/
def State.nextLaunch (s : State) (d : Nat) : Option (Cmd × Nat × Nat) :=
  s.engs.cmds.findSome? fun c => match c.kind with
    | .launch rec prio =>
      let behind := s.engs.cmds.any fun b => b.strand = c.strand && decide (b.id < c.id) && b.ended.isNone && !b.began &&
        (match b.kind with | .launch _ _ => true | _ => false)
      if c.die = d && !c.began && s.mayBegin c && !behind then some (c, rec, prio) else none
    | _ => none

/-- LAUNCH_ADMIT (R301, R312): the launch at the head is admitted while the table has room. -/
def execLaunchAdmit (die : Nat) (s : State) : Res :=
  match s.nextLaunch die with
  | none => .next s
  | some (c, rec, prio) =>
    if 4096 ≤ (s.table die).length then .next s
    else if rec % 64 != 0 then .next (s.failCmd c.id 0x03 0 6 0 0 (BitVec.ofNat 64 rec))
    else match s.readVa (.cmd c.id) (.engine die) c.ctx c.asid c.user c.task rec 128 with
      | (.inr f, s1) => .next (if f.1 = noFault then s.retry s1 else s1.failCmd c.id f.1 0 6 0 f.2.1 (BitVec.ofNat 64 f.2.2))
      | (.inl b, s1) => .next (s1.admitTask c prio (launchRec b))

/-- PIN_BREAK (R303): the breaks due on a region that is neither RUNNING nor FROZEN: its buffers are written back and dropped, each
at its own level. A break whose write-back waits for the host stays due (R241). -/
def execPinBreak (region : Nat) (s : State) : Res :=
  let mine := s.tasks.breaks.filter fun b => b.region = region
  let clear (s : State) : State := { s with tasks := { s.tasks with breaks := s.tasks.breaks.filter fun b => b.region != region } }
  match s.region region with
  | none => .next (clear s)
  | some g =>
    if g.st = .running || g.st = .frozen || mine.isEmpty then .next s
    else
      let one (s : State) (b : PinBreakDue) : State :=
        match (s.planesAt g b.lvl).find? fun x => x.1 = b.e with
        | some (_, p) =>
          (match p.site b.site with
           | some t => s.dropSectors b.e ((g.frozenAt b.lvl).map Level.ctx |>.getD g.ctx) fun x => x.lvl = b.lvl && x.site = (p.bufSite t).no
           | none => s)
        | none => s
      let s1 := mine.foldl one s
      .next (if mine.any fun b => s1.holdsBack b.e then s1 else clear s1)

/-! ### Readiness and aging (R304) -/

/-- TASK_READY (R304, R309): a task whose arcs are released is READY; it enters the pool while there is room, in the order in
which tasks became ready. -/
def execTaskReady (task : Nat) (s : State) : Res :=
  match s.taskNo task with
  | none => .next s
  | some t =>
    if t.st = .waiting then
      (if s.arcsOf t = 0 && t.follows.isNone then .next (s.modTask task fun t => { t with st := .ready, since := s.cycle })
       else .next s)
    else if t.st = .ready && !t.pooled then
      (let first := !(s.tasks.tasks.any fun u => u.die = t.die && u.st = .ready && !u.pooled && decide (u.since < t.since))
       if first && decide ((s.pool t.die).length < 1024) then
         .next (s.modTask task fun t => { t with pooled := true, since := s.cycle, aged := 0 })
       else .next s)
    else .next s

/-- AGING_TICK (R304): the priority number falls by one for every 2^20 cycles in the pool. -/
def execAgingTick (task : Nat) (s : State) : Res :=
  match s.taskNo task with
  | none => .next s
  | some t =>
    if t.pooled && decide (t.aged < (s.cycle - t.since) / 2 ^ 20) then .next (s.modTask task fun t => { t with aged := t.aged + 1 })
    else .next s

/-! ### Binding (R305) -/

/-- Where a kernel task's region comes from. -/
inductive Spot where
  | held (id : Nat)
  | origin (a b : Nat)
  | above (id : Nat)
  deriving DecidableEq, Repr

/-- The region that a kernel task would take: over a level that it has pre-empted, by affinity once a pin break due there is
complete (R315), or from the placer. -/
def State.spotFor (s : State) (t : Task) (h : Header) : Option Spot :=
  match t.above.bind s.region with
  | some g =>
    (match g.levels with
     | lv :: _ => if (g.st = .frozen || g.st = .reserved) && g.wave.isNone && lv.isPreempt then some (.above g.id) else none
     | [] => none)
  | none =>
    match s.tasks.regions.find? fun g => g.st = .held && g.die = t.die && g.ctx = t.ctx &&
        (match g.info with | some i => i.image = t.image | none => false) with
    | some g => if s.tasks.breaks.any fun b => b.region = g.id then none else some (.held g.id)
    | none => (s.chooseOrigin h t.die origins).map fun o => .origin o.1 o.2

/-- A region taken for a task: it passes to CHECKING for load 0 under the dispatcher (R305). -/
def State.takeSpot (s : State) (t : Task) (h : Header) (n : Option Nat) (spot : Spot) : Nat × State :=
  let r := match spot with
    | .held id => (id, s)
    | .above id => (id, s)
    | .origin a b => s.reserve h t.die a b t.ctx t.asid (some t.no)
  (r.1, r.2.modRegion r.1 fun g =>
    { g with st := .checking, strand := n, task := some t.no, ctx := t.ctx, asid := t.asid, byDisp := true, cfgCmd := none, depth := 0,
             probe := (n.map fun k => (s.strand k).probecyc.toNat).getD 65536 })

/-- A task bound: RUNNING, out of the pool, with its worker, where that starts, and its region; its stream was served last (R304). Its
place in the pool is kept until it has begun (R313). -/
def State.boundTask (s : State) (t : Task) (n region bank : Option Nat) (pc : Nat) : State :=
  let last := (s.disp t.die).last
  let s1 := s.modTask t.no fun t =>
    { t with st := .running, pooled := false, strand := n, region := region, bank := bank, since := s.cycle, bound := s.cycle,
             waitAt := none, pc := pc, place := some (t.since, t.waitAt, last) }
  s1.setDisp { s1.disp t.die with last := (t.ctx, t.lq) }

/-- The command of a bank task (R297). -/
def Task.bankKind (t : Task) : CmdKind :=
  if t.bop = 5 then .rowcp t.image t.args t.count
  else if t.bop = 6 then .rowzero t.image t.count
  else .bankop t.bop t.image t.args t.src2 t.count

/-- A bank task bound: its command goes to its memory-side unit (R305). -/
def State.bindBank (s : State) (t : Task) : State :=
  let c : Cmd := { id := s.serial, kind := t.bankKind, strand := Config.strands, slot := none, die := t.die, ctx := t.ctx,
                   asid := t.asid, user := t.user, task := some t.no, deps := [], due := s.cycle + 1 + Config.latency s.serial,
                   at_ := 0, began := false, pages := [], writes := [], strm := none, ended := none, paused := false,
                   unit := t.die * 64, count := 0 }
  let s1 := { s with engs := { s.engs with cmds := s.engs.cmds ++ [c] }, serial := s.serial + 1 }
  let s2 := s1.boundTask t none none (some c.id) 0
  if t.count = 0 then s2.endCmd c.id 0 else s2

/-- Who reads a task's image for its dispatcher. -/
def Task.binder (t : Task) : Binder := ⟨.task t.no, t.die, t.ctx, t.asid, t.user, some t.no⟩

/-- What a task's binding waits for, a walk or the host under its image: the state with that requested (R241, R244). -/
def State.imageWait (s : State) (t : Task) : Option State :=
  if t.kind = 2 then none
  else match s.readImage t.binder t.image with
    | (.inr f, s1) => if f.waits then some (s.retry s1) else none
    | _ => none

/-- A task bound to a free worker, if it can be (R305); an image that fails its check ends it. -/
def State.tryBind (s : State) (t : Task) : Option State :=
  if t.kind = 2 then some (s.bindBank t)
  else match (s.workers t.die).head? with
    | none => none
    | some n =>
      match s.readImage t.binder t.image with
      | (.inr f, s1) => some (if f.waits then s.retry s1 else s1.failTask t.no f.code 0 f.detail f.addr)
      | (.inl b, s1) =>
        let h := headerOf b
        let addr := BitVec.ofNat 64 t.image
        match h.badField b with
        | some off => some (s1.failTask t.no 0x13 0 off addr)
        | none =>
          if h.scalar != (t.kind = 1) then some (s1.failTask t.no 0x13 0 0 addr)
          else if t.kind = 1 then some (s1.boundTask t (some n) none none (t.image + h.text + h.entry))
          else (s1.spotFor t h).map fun spot =>
            let r := s1.takeSpot t h (some n) spot
            r.2.boundTask t (some n) (some r.1) none (t.image + h.text + h.entry)

/-! ### Starting on a worker (R305, R313) -/

/-- Whether a bound task has started on its strand. -/
def State.begun (s : State) (t : Task) : Bool := match t.strand with | some n => (s.strand n).task = some t.no | none => true

/-- Whether a bound task could start: its context is not frozen (R226), its worker is free, its region ENDED under it. -/
def State.startable (s : State) (t : Task) : Bool :=
  !s.ctxs.frozenCtx.contains t.ctx.toNat &&
  (match t.strand with | some n => (s.strand n).worker && (s.strand n).run = .idle | none => true) &&
  (match t.region.bind s.region with | some g => g.st = .ended && g.wave.isNone && g.task = some t.no | none => t.kind != 0)

/-- The members of a task's group that are RUNNING, or the task alone. -/
def State.mates (s : State) (t : Task) : List Task :=
  if t.group = 0 then [t] else s.tasks.tasks.filter fun u => u.group = t.group && u.st = .running

/-- g3 of a worker (R305). -/
def regionWord (g : Option Region) : DWord := match g with | some g => placeResult true 0 g.die g.trow g.tcol | none => 0

/-- A bound task started on its worker (R305). -/
def State.startWorker (s : State) (t : Task) : State :=
  match t.strand with
  | none => s
  | some n =>
    match s.readDesc t.die t.ctx.toNat with
    | (c, s1) =>
      let u := s1.strand n
      let word := s1.taskWordOf t
      let g := t.region.bind s1.region
      let regs := (((Vector.replicate 32 (0 : DWord)).set 1 (BitVec.ofNat 64 t.args)).set 2 word).set 3 (regionWord g)
      (s1.modTask t.no fun t => { t with place := none }).setStrand n
        { u with g := regs, pc := BitVec.ofNat 64 t.pc, run := .running,
                 status := statusOf 0 0 (u.status.getLsbD 8) false false (u.status.getLsbD 5), ctx := t.ctx, asid := t.asid,
                 prio := BitVec.ofNat 2 c.prio, faultq := c.faultq &&& ~~~0x3F#64, loops := [], writes := [], readyAt := s.cycle + 1,
                 progress := none, got := none, walked := none, atTvec := false, worker := false, woken := false,
                 region := t.region, task := some t.no }

/-- A task taken back from a strand that has left the pool (R313): READY in its place, as though it had not been picked, its region
given back. -/
def State.unpick (s : State) (t : Task) : State :=
  let s1 : State := match t.region.bind s.region with | some g => s.returnLevel g false | none => s
  let place := t.place.getD (t.since, none, (s.disp t.die).last)
  let later := s.tasks.tasks.any fun u => u.die = t.die && u.no != t.no && u.ctx = t.ctx && u.lq = t.lq && decide (t.bound < u.bound)
  let s2 := s1.modTask t.no fun t =>
    { t with st := .ready, pooled := true, strand := none, region := none, since := place.1, waitAt := place.2.1, place := none }
  if (s2.disp t.die).last = (t.ctx, t.lq) && !later then s2.setDisp { s2.disp t.die with last := place.2.2 } else s2

/-- A task taken back, and with it every member of its group, which is PENDING again and binds as one (R306, R307). -/
def State.unpickAll (s : State) (t : Task) : State :=
  let s1 := ((s.mates t).filter fun u => !s.begun u).foldl State.unpick s
  if t.group = 0 then s1 else s1.modGroup t.group fun g => { g with st := .pending }

/-- A bound task of a die that has not started looked at: the members of a group start together (R307). -/
def State.startStep (s : State) (t0 : Task) : State :=
  match s.taskNo t0.no with
  | none => s
  | some t =>
    match t.strand with
    | none => s
    | some n =>
      if t.st != .running || s.begun t then s
      else if !((s.strand n).worker && ((s.strand n).run = .idle || (s.strand n).run = .frozen)) then s.unpickAll t
      else if (s.mates t).all fun u => s.begun u || s.startable u then
        ((s.mates t).filter fun u => !s.begun u).foldl State.startWorker s
      else s

/-! ### Selection (R304, R307) -/

/-- The oldest member of a group in the pool. -/
def State.oldest (s : State) (g : Group) : Option Task :=
  ((g.tasks.filterMap s.taskNo).filter Task.pooled).foldl (fun a t => match a with
    | none => some t
    | some b => if t.since < b.since || (t.since = b.since && decide (t.no < b.no)) then some t else some b) none

/-- All members of a group bound in one step, if they all can be. -/
def State.bindAll (s : State) (g : Group) : Option State :=
  (g.tasks.filterMap s.taskNo).foldl (fun a t => a.bind fun s => if t.st = .ready then s.tryBind t else none) (some s)

/-- What the binding of a group waits for, a walk or the host under a member's image, once every die has workers enough. -/
def State.groupWait (s : State) (g : Group) : Option State :=
  let ts := (g.tasks.filterMap s.taskNo).filter fun t => t.st = .ready
  if ts.all fun t => decide ((ts.filter fun u => u.die = t.die).length ≤ (s.workers t.die).length) then ts.findSome? s.imageWait else none

/-- When a task of the pool came, or comes, to priority number 0 (R304, R311). -/
def Task.zeroAt (t : Task) : Nat := t.since + t.prio * 2 ^ 20

/-- Place of a launch stream in the rotation that begins after the one served last. -/
def State.turnOf (s : State) (t : Task) : Nat :=
  let key (x : BitVec 10 × Nat) : Nat := x.1.toNat * 1024 + x.2
  (key (t.ctx, t.lq) + 2 ^ 20 - key (s.disp t.die).last - 1) % 2 ^ 20

/-- The pool of a die in the order of selection: priority number; at priority 0, who came to it first (R311, log 95); rotation of
streams; age. A group stands for its oldest member. -/
def State.selection (s : State) (d : Nat) : List Task :=
  let mine := (s.pool d).filter fun t => t.group = 0 || (match s.group t.group with
    | some g => g.st = .pending && (s.oldest g).map Task.no = some t.no
    | none => false)
  let zero (t : Task) : Nat := if t.eff = 0 then t.zeroAt else 0
  let turn (a b : Task) : Bool := decide (s.turnOf a < s.turnOf b) || (s.turnOf a = s.turnOf b && decide (a.since ≤ b.since))
  sortBy (fun a b => decide (a.eff < b.eff) ||
    (a.eff = b.eff && (decide (zero a < zero b) || (zero a = zero b && turn a b)))) mine

/-- Whether a task of the selection can bind now. -/
def State.canBind (s : State) (t : Task) : Bool :=
  if t.group = 0 then (s.tryBind t).isSome
  else match s.group t.group with | some g => (s.groupWait g).isSome || (s.bindAll g).isSome | none => false

/-- The task that a die's dispatcher picks. -/
def State.pick (s : State) (d : Nat) : Option Task := (s.selection d).find? s.canBind

/-! ### Pre-empted work (R293, R308) -/

/-- Whether the level of a pre-empted task can come back: no task is to bind over it, and it stands on top in pleat 1. -/
def State.liftable (s : State) (v : Task) : Bool :=
  match v.region.bind s.region with
  | none => true
  | some g =>
    (match g.levels with
     | lv :: _ => lv.kind = .preempt v.no && lv.place = .pleat 1
     | [] => false) &&
    g.wave.isNone && (g.st = .reserved || g.st = .frozen) && !(s.tasks.tasks.any fun t => t.held && t.above = some g.id)

/-- A pre-empted task brought back: its region's level and its strand thaw. One that has failed meanwhile gets its level only to
give it back. -/
def State.lift (s : State) (v : Task) : State :=
  let s1 : State := match v.region.bind s.region with
    | none => s
    | some g =>
      let ctx := (g.levels.head?.map Level.ctx).getD g.ctx
      let s1 := (s.modRegion g.id fun h => { h with strand := v.strand, task := some v.no, ctx := ctx, asid := v.asid }).restoreLevel g.id
      match v.strand with
      | some n => s1.setStrand n { s1.strand n with region := some g.id }
      | none => s1
  if v.st != .preempted then s1
  else
    let s2 : State := match v.strand with | some n => if (s1.strand n).run = .frozen then s1.thawStrand n else s1 | none => s1
    s2.modTask v.no fun t => { t with st := .running }

/-- The pre-empted tasks of a die brought back where the work that pre-empted them is over; a group comes back as one. -/
def State.liftAll (s : State) (d : Nat) : State :=
  let alone := s.tasks.tasks.filter fun t => t.die = d && t.group = 0 && t.st = .preempted
  let s1 := alone.foldl (fun s v => if s.liftable v then s.lift v else s) s
  let gs := s1.tasks.groups.filter fun g => g.st = .preempted && g.id % 8 = d
  let s2 := gs.foldl (fun s g =>
    let vs := (g.tasks.filterMap s.taskNo).filter fun t => t.st = .preempted
    if vs.all s.liftable then (vs.foldl State.lift s).modGroup g.id fun g => { g with st := .running } else s) s1
  let dead := s2.tasks.tasks.filter fun t => t.die = d && t.st = .retiring &&
    (match t.region.bind s2.region with
     | some g => (match g.levels with | lv :: _ => lv.kind = .preempt t.no | [] => false)
     | none => false)
  dead.foldl (fun s v => if s.liftable v then s.lift v else s) s2

/-- TASK_BIND (R304, R305): pre-empted work comes back, bound tasks start on their workers, and the dispatcher picks a task. -/
def execTaskBind (die : Nat) (s : State) : Res :=
  let s1 := s.liftAll die
  let s2 := (s1.tasks.tasks.filter fun t => t.die = die && t.st = .running).foldl State.startStep s1
  match s2.pick die with
  | some t => if t.group = 0 then .next ((s2.tryBind t).getD s2) else .next s2
  | none => .next s2

/-- GROUP_BIND (R306, R307): a group all of whose members are READY is PENDING; it binds as one when its oldest member is the one
that is picked. -/
def execGroupBind (group : Nat) (s : State) : Res :=
  match s.group group with
  | none => .next s
  | some g =>
    let ts := g.tasks.filterMap s.taskNo
    match g.st with
    | .forming =>
      if g.tasks.length = g.members && ts.all (fun t => t.st = .ready) then
        .next (s.modGroup group fun g => { g with st := .pending, since := s.cycle })
      else .next s
    | .pending =>
      (match s.oldest g with
       | some t =>
         if (s.pick t.die).map Task.no = some t.no then
           (match s.groupWait g with
            | some s1 => .next s1
            | none => .next (((s.bindAll g).getD s).modGroup group fun g => { g with st := .running }))
         else .next s
       | none => .next s)
    | _ => .next s

/-! ### Pre-emption (R308) -/

/-- The header of a task's image, if it reads: a look that changes nothing (log 83). -/
def State.headerFor (s : State) (t : Task) : Option Header :=
  if t.image % 64 != 0 then none
  else match (s.translateNow (.engine t.die) t.ctx t.asid .read t.user (some t.no) t.image 64).1 with
    | .ok pa _ => let b := s.bytesAt t.die pa 64; if headerSound b then some (headerOf b) else none
    | _ => none

/-- Whether a region would let a kernel task bind over its level. -/
def Region.suits (g : Region) (d : Nat) (h : Header) : Bool :=
  g.die = d && decide (h.trows ≤ g.trows) && decide (h.tcols ≤ g.tcols) && (!h.edgew || g.tcol = 0) &&
  (!h.edgee || g.tcol + g.tcols = 20)

/-- Which regions of a list some kernel tasks would bind over, those that find a region of their own apart; none if there is no
choice of regions with which each task finds one. -/
def assignOver : State → List Task → List Region → Option (List (Nat × Nat))
  | _, [], _ => some []
  | s, t :: ts, gs =>
    match if t.kind = 0 then s.headerFor t else none with
    | none => assignOver s ts gs
    | some h =>
      match s.spotFor t h with
      | some spot => assignOver (s.takeSpot t h none spot).2 ts gs
      | none => (gs.filter fun g => g.suits t.die h).findSome? fun g =>
          (assignOver s ts (gs.filter fun x => x.id != g.id)).map fun r => (t.no, g.id) :: r

/-- A victim (R308): its tasks, priority number and when it was bound. -/
structure Victim where
  tasks : List Task
  prio  : Nat
  bound : Nat
  group : Nat
  deriving DecidableEq, Repr

/-- The running kernel tasks and groups that have started, as victims. -/
def State.victims (s : State) : List Victim :=
  let ok (t : Task) : Bool := t.st = .running && s.begun t && (match t.region.bind s.region with
    | some g => g.task = some t.no && (g.st = .running || g.st = .ended || g.st = .configuring || g.st = .checking || g.st = .reserved)
    | none => t.kind != 0)
  ((s.tasks.tasks.filter fun t => t.group = 0 && t.kind = 0 && ok t).map fun t => ⟨[t], t.eff, t.bound, 0⟩) ++
  (s.tasks.groups.filter fun g => g.st = .running).filterMap fun g =>
    let ts := (g.tasks.filterMap s.taskNo).filter fun t => t.st = .running
    if ts.isEmpty || !(ts.all ok) then none
    else some ⟨ts, ts.foldl (fun a t => min a t.eff) 255, ts.foldl (fun a t => max a t.bound) 0, g.id⟩

/-- The regions of a victim. -/
def State.regionsOf (s : State) (v : Victim) : List Region := v.tasks.filterMap fun t => t.region.bind s.region

/-- The victim that waiting tasks of a priority number pre-empt, and over which of its regions they bind. -/
def State.chooseVictim (s : State) (ts : List Task) (prio : Nat) : Option (Victim × List (Nat × Nat)) :=
  let fit := s.victims.filterMap fun v =>
    if v.prio ≤ prio then none
    else match assignOver s ts (s.regionsOf v) with
      | some (x :: xs) => some (v, x :: xs)
      | _ => none
  (sortBy (fun a b => decide (b.1.prio < a.1.prio) || (a.1.prio = b.1.prio && decide (b.1.bound ≤ a.1.bound))) fit).head?

/-- A victim pre-empted: its regions freeze, its strands are frozen; the waiting tasks note where they bind. -/
def State.preempt (s : State) (v : Victim) (above : List (Nat × Nat)) : State :=
  let one (s : State) (t : Task) : State :=
    let s1 : State := match t.region with | some id => s.raiseWave id (.preempt t.no) | none => s
    let s2 : State := match t.strand with
      | some n => if (s1.strand n).run = .running || (s1.strand n).run = .idle then s1.freezeStrand n else s1
      | none => s1
    s2.modTask t.no fun t => { t with st := .preempted }
  let s1 := v.tasks.foldl one s
  let s2 := if v.group = 0 then s1 else s1.modGroup v.group fun g => { g with st := .preempted }
  above.foldl (fun s x => s.modTask x.1 fun t => { t with above := some x.2 }) s2

/-- PREEMPT_TIMEOUT (R308): a ready kernel task, or a pending group, that has waited 4,096 cycles for a region pre-empts. -/
def execPreemptTimeout (task : Nat) (s : State) : Res :=
  match s.taskNo task with
  | none => .next s
  | some t =>
    let ts := if t.group = 0 then [t] else match s.group t.group with
      | some g => if g.st = .pending && (s.oldest g).map Task.no = some t.no then g.tasks.filterMap s.taskNo else []
      | none => []
    if t.st != .ready || !t.pooled || !(ts.any fun u => u.kind = 0) || ts.any fun u => u.above.isSome then .next s
    else if (assignOver s ts []).isSome then
      (if t.waitAt.isSome then .next (s.modTask task fun t => { t with waitAt := none }) else .next s)
    else match t.waitAt with
      | none => .next (s.modTask task fun t => { t with waitAt := some s.cycle })
      | some w =>
        if s.cycle < w + 4096 then .next s
        else match s.chooseVictim ts t.eff with
          | some (v, above) => .next (s.preempt v above)
          | none => .next s

/-! ### Retirement (R309, R310) -/

/-- The completion entry of a task (R310). -/
def completionBytes (t : Task) (time : DWord) : List Byte :=
  toBytes 8 t.handle.toNat ++ toBytes 8 (t.no % 2 ^ 24 * 2 ^ 40 + t.status % 256 * 2 ^ 32) ++ toBytes 8 time.toNat ++ toBytes 8 0

/-- A group whose last member has ended is no more (R306). -/
def State.endGroup (s : State) (id : Nat) : State :=
  let done (g : Group) : Bool := g.id = id && g.tasks.all fun no => match s.taskNo no with | some t => !t.held | none => true
  { s with tasks := { s.tasks with groups := s.tasks.groups.filter fun g => !done g } }

/-- A task at the end of RETIRING: arcs released, entry freed, completion posted, launch handle ended. -/
def State.endTask (s : State) (t : Task) : State :=
  let no := t.no
  let s1 := s.modTask no fun t => { t with st := if t.status = 0 then .retired else .failed, above := none, pooled := false }
  let free (u : Task) : Task := { u with arcs := u.arcs.filter (· != no), follows := if u.follows = some no then none else u.follows }
  let s2 := { s1 with tasks := { s1.tasks with tasks := s1.tasks.tasks.map free, breaks := s1.tasks.breaks.filter fun b => b.task != no } }
  let post : Completion := ⟨no, t.cq, t.user, t.ctx, t.asid, t.die, completionBytes t (s.time t.die), s.clock t.die⟩
  let s3 := if t.cq = 0 then s2 else { s2 with ctxs := { s2.ctxs with posts := s2.ctxs.posts ++ [post] } }
  let s4 : State := match t.launch with | some c => s3.endCmd c t.status | none => s3
  if t.group = 0 then s4 else s4.endGroup t.group

/-- The region of a retiring task (R309): given back when the task's level is the active one; a strand of a failed task that still
runs keeps it until its own `tdone`. None while the level lies frozen below another's. -/
def State.retireRegion (s : State) (t : Task) : Option State :=
  match t.region.bind s.region with
  | none => some s
  | some g =>
    if g.task = some t.no then
      (match t.strand with
       | some n =>
         if (s.strand n).region = some g.id && (s.strand n).task = some t.no && !(s.strand n).killed then some s
         else some (s.returnLevel g (t.status != 0))
       | none => some (s.returnLevel g (t.status != 0)))
    else if g.levels.any fun l => l.kind = .preempt t.no then none
    else some s

/-- Whether what a retiring task's release comes after has not performed (R302): operations of its strand, its commands, and
write-backs that wait for the host (R241). -/
def State.owes (s : State) (t : Task) : Bool :=
  (match t.strand with
   | some n => (s.unperformed n).any fun o => t.opsDue.contains o.id && !s.cmoHeld n o
   | none => false) ||
  (s.engs.cmds.any fun c => t.cmdsDue.contains c.id) || s.mem.held.any fun h => h.task = some t.no

/-- A completion entry that waits tried again (R310). -/
def State.postDone (s : State) (p : Completion) : State :=
  let drop (s : State) : State := { s with ctxs := { s.ctxs with posts := s.ctxs.posts.erase p } }
  match s.deviceEnq (.task p.task) p.die p.ctx p.asid p.user p.cq p.clock p.bytes with
  | (.later, s1) => s1
  | (.done, s1) => drop s1
  | (.bad code det addr, s1) =>
    (drop s1).post p.ctx p.die p.asid (recordWords code 0 6 p.die 0 p.asid 0 p.ctx det (BitVec.ofNat 64 addr) 0)

/-- RETIRE_COMPLETE (R302, R309, R310): a retiring task ends once its level is not frozen below another's and its writes have
performed; its completion is posted. -/
def execRetireComplete (task : Nat) (s : State) : Res :=
  match s.ctxs.posts.find? fun p => p.task = task with
  | some p => .next (s.postDone p)
  | none =>
    match s.taskNo task with
    | none => .next s
    | some t =>
      if t.st != .retiring then .next s
      else match s.retireRegion t with
        | none => .next s
        | some s1 => .next (if s1.owes t then s1 else s1.endTask t)

end Sys2Proof.Machine
end

