-- ==== Sys2Proof/Machine/Packets.lean ====
section
/-! DEFINITION. Route-class packets (23_links.md R381 to R386): entries, masks, slots, handlers and forwarding. -/

namespace Sys2Proof.Machine

/-! ### Entries (R381) -/

/-- An entry of a route-class table. -/
structure RouteEntry where
  w     : DWord
  slots : DWord
  deriving DecidableEq, Repr

/-- V. -/
def RouteEntry.v (e : RouteEntry) : Bool := e.w.getLsbD 63
/-- KIND. -/
def RouteEntry.kind (e : RouteEntry) : Nat := field e.w 62 61
/-- FWD. -/
def RouteEntry.fwd (e : RouteEntry) : Nat := field e.w 60 59
/-- TARGET. -/
def RouteEntry.target (e : RouteEntry) : Nat := field e.w 58 54
/-- PRIO. -/
def RouteEntry.prio (e : RouteEntry) : Nat := field e.w 53 52
/-- CTX. -/
def RouteEntry.ctx (e : RouteEntry) : BitVec 10 := BitVec.ofNat 10 (field e.w 51 42)
/-- WHO. -/
def RouteEntry.who (e : RouteEntry) : Nat := field e.w 41 36
/-- COL. -/
def RouteEntry.col (e : RouteEntry) : Nat := field e.w 35 29

/-- Whether an entry makes its class unroutable (R381). -/
def RouteEntry.unroutable (e : RouteEntry) : Bool :=
  !e.v || field e.w 28 0 != 0 || (e.kind = 2 && decide (79 < e.col)) || (e.kind = 3 && (e.fwd = 3 || (e.fwd = 1 && decide (17 < e.target)) ||
    (e.fwd = 0 && decide (7 < e.target)))) || (e.kind != 3 && e.slots.toNat % 32768 != 0)

/-- An entry as it stands in memory (R381). -/
def State.entryAt (s : State) (d c : Nat) : RouteEntry :=
  let a := s.outer.mgmt.rcbase.toNat + 256 * d + 16 * c
  ⟨s.dwordAt d a, s.dwordAt d (a + 8)⟩

/-- An entry as a die's routers hold it: read when a packet first needs it, and again only by `cmask` or `cunmask` (R381). -/
def State.entry (s : State) (d c : Nat) : RouteEntry :=
  match s.routes.held.find? fun h => h.1 = d && h.2.1 = c with
  | some (_, _, w, x) => ⟨w, x⟩
  | none => s.entryAt d c

/-- The routers of a die hold an entry. -/
def State.holdEntry (s : State) (d c : Nat) (e : RouteEntry) : State :=
  { s with routes := { s.routes with held := (s.routes.held.filter fun h => !(h.1 = d && h.2.1 = c)) ++ [(d, c, e.w, e.slots)] } }

/-- The mask set of a die. -/
def State.masks (s : State) (d : Nat) : BitVec 16 := lookupD s.routes.masks d 0

/-- Whether a class is masked on a die. -/
def State.masked (s : State) (d c : Nat) : Bool := (s.masks d).getLsbD c

/-! ### Records (R378, R383) -/

/-- A packet reported failed: to the fault queue of its sender's context, or for a sender outside the module to the host
mailbox, under the link by which it came (R375). -/
def State.packetFails (s : State) (p : Packet) (code detail : Nat) : State :=
  if p.srcKind = 0 then
    let asid := (s.desc p.srcDie p.ctx.toNat).asid
    s.post p.ctx p.die asid (recordWords code 0 0 p.srcDie p.srcWho asid 0 p.ctx detail 0 0)
  else if p.srcKind = 2 then s.postHost (recordWords code 0 9 p.die 0 0 0 0 detail 0 0)
  else s.postHost (recordWords code 0 8 (linkDie p.link) (linkWho p.link) 0 0 0 detail 0 0)

/-- A packet dropped as unroutable (R383). -/
def State.unroutable (s : State) (p : Packet) (hops : Nat) : State := s.packetFails p 0x1B (p.klass + 16 * hops)

/-! ### Slots (R382, R383) -/

/-- The source number of the packets that bring a class's tokens to an element, which arrive in order (R384). -/
def classTokenSrc (klass : Nat) : Nat := 16384 + klass

/-- Whether the handler of a slot is over (R383): its task has retired or failed, or its token has entered i3. An event's slot
is freed by `cunmask`. -/
def State.slotOver (s : State) (r : RecvSlot) : Bool :=
  r.started && !r.taken &&
  (match r.kind with
   | 0 => !(s.tasks.tasks.any fun t => t.die = r.die && t.packet = some (r.klass, r.slot) && t.held)
   | 2 => !(s.fab.packets.any fun p => p.id = r.token)
   | _ => false)

/-- The slots of a die whose handlers are over freed. -/
def State.freeSlots (s : State) (d : Nat) : State :=
  { s with routes := { s.routes with slots := s.routes.slots.filter fun r => !(r.die = d && s.slotOver r) } }

/-- A slot removed. -/
def State.dropSlot (s : State) (r : RecvSlot) : State :=
  { s with routes := { s.routes with slots := s.routes.slots.filter fun x => !(x.die = r.die && x.klass = r.klass && x.slot = r.slot) } }

/-- A slot's handler of a kind has started; an element's with the packet of its token. -/
def State.startSlot (s : State) (r : RecvSlot) (kind token : Nat) : State :=
  let go (x : RecvSlot) : RecvSlot :=
    if x.die = r.die && x.klass = r.klass && x.slot = r.slot then { x with started := true, kind := kind, token := token } else x
  { s with routes := { s.routes with slots := s.routes.slots.map go } }

/-- The 512 bytes of a slot (R382). -/
def slotBytes (p : Packet) : List Byte :=
  let h := p.payload.length + p.klass % 16 * 2 ^ 12 + p.srcDie % 8 * 2 ^ 16 + p.srcKind % 4 * 2 ^ 20 + p.srcWho % 64 * 2 ^ 24 +
    p.hops % 16 * 2 ^ 32
  toBytes 8 h ++ List.replicate 56 0 ++ p.payload ++ List.replicate (448 - p.payload.length) 0

/-- A slot written by its die: one event for each 64-byte sector (R97, R382). -/
def State.writeSlot (s : State) (d pa : Nat) (bs : List Byte) (m : Mark) : State :=
  (List.range 8).foldl (fun s k => s.performWrite d (pa + 64 * k) (((bs.drop (64 * k)).take 64).map some) m false) s

/-! ### Handlers (R383) -/

/-- The task that a packet of a task class launches (R383): a scalar task of the entry's context with g1 at the slot. -/
def RouteEntry.task (e : RouteEntry) (r : RecvSlot) (asid : BitVec 16) : Task :=
  { no := 0, die := r.die, kind := 1, ctx := e.ctx, asid := asid, image := e.slots.toNat + 0x8000, args := r.addr, src2 := 0,
    bop := 0, count := 0, prio := e.prio, lq := 1008 + r.klass, overlap := false, cq := 0, handle := 0, group := 0, ranges := [],
    arcs := [], follows := none, st := .waiting, since := 0, pooled := false, aged := 0, waitAt := none, status := 0, launch := none,
    user := true, strand := none, region := none, bank := none, bound := 0, above := none, packet := some (r.klass, r.slot),
    item := 0, pc := 0, place := none, opsDue := [], cmdsDue := [] }

/-- A task handler started: it waits while the task table is full (R301). -/
def State.startTask (s : State) (r : RecvSlot) (e : RouteEntry) : State :=
  if 4096 ≤ (s.table r.die).length then s
  else
    let c := s.readDesc r.die e.ctx.toNat
    if !c.1.v || c.2.ctxs.dying.contains e.ctx.toNat then (c.2.unroutable r.packet r.packet.hops).dropSlot r
    else (c.2.addTask (e.task r c.1.asid)).2.startSlot r 0 0

/-- An event handler started: the strand gets the event, one at a time for each class. -/
def State.startEvent (s : State) (r : RecvSlot) (e : RouteEntry) : State :=
  if s.routes.slots.any fun x => x.die = r.die && x.klass = r.klass && x.started then s
  else
    let n := r.die * 64 + e.who
    let t := s.strand n
    (s.setStrand n { t with events := t.events ++ [⟨1, BitVec.ofNat 64 r.addr, some r.klass⟩] }).startSlot r 1 0

/-- The region to which an element class sends (R383). -/
def State.classRegion (s : State) (d : Nat) (ctx : BitVec 10) : Option Region :=
  let mine := s.tasks.regions.filter fun g => g.die = d && g.ctx = ctx && (g.st = .running || g.st = .frozen)
  mine.foldl (fun (a : Option Region) g => match a with
    | none => some g
    | some b => if decide (g.trow < b.trow) || (g.trow = b.trow && decide (g.tcol < b.tcol)) then some g else some b) none

/-- An element handler started: a token with tag 4 on its way to i3 (R383, R384). -/
def State.startToken (s : State) (r : RecvSlot) (e : RouteEntry) : State :=
  match s.classRegion r.die e.ctx with
  | none => (s.unroutable r.packet r.packet.hops).dropSlot r
  | some g =>
    let x : ElemId := ⟨r.die, g.row0 + e.who, g.col0 + e.col⟩
    if !g.holds x || isM x then (s.unroutable r.packet r.packet.hops).dropSlot r
    else
      let t := tokenOf (r.packet.payload ++ List.replicate 32 0) 4
      (s.sendRow x (classTokenSrc r.klass) true (.queue 3 t) 0 none (some (s.clock r.die))
        (if g.st = .running then g.levels.length else g.levels.length - 1)).startSlot r 2 s.serial

/-- The handlers that may start on a die, in arrival order (R386). -/
def State.startHandlers (s : State) (d : Nat) : State :=
  (s.routes.slots.filter fun r => r.die = d && !r.started && !s.masked d r.klass).foldl (fun s r =>
    let e := s.entry d r.klass
    match e.kind with
    | 0 => s.startTask r e
    | 1 => s.startEvent r e
    | 2 => s.startToken r e
    | _ => s) s

/-! ### Arrival (R382 to R384) -/

/-- A packet leaves the place where it waits. -/
def State.pickUp (s : State) (p : Packet) : State :=
  if s.routes.moving.contains p then { s with routes := { s.routes with moving := s.routes.moving.erase p } }
  else { s with routes := { s.routes with out := s.routes.out.erase p } }

/-- A packet of a handler class put in a free slot of its die: it waits for a slot, and for what its sender wrote (R384). -/
def State.receivePacket (s : State) (p : Packet) (e : RouteEntry) : State :=
  let used := (s.routes.slots.filter fun r => r.die = p.die && r.klass = p.klass).map RecvSlot.slot
  match (List.range 64).find? fun i => !used.contains i with
  | none => s
  | some i =>
    if p.srcKind = 0 && !((s.clock p.die).covers p.clock) then s
    else if e.kind = 2 && decide (32 < p.payload.length) then (s.pickUp p).unroutable p p.hops
    else
      let va := e.slots.toNat + 512 * i
      match s.translate (.packets p.die) (.engine p.die) e.ctx (s.desc p.die e.ctx.toNat).asid .write false none va 512 with
      | (.ok pa t, s1) =>
        (match s1.ownedIn (pageAttr t) pa 512 with
         | some line => s.retry (s1.snoop line)
         | none =>
           let s2 := (s1.pickUp p).writeSlot p.die pa (slotBytes p) (s1.mark e.ctx 63 false (pageAttr t))
           { s2 with routes := { s2.routes with slots := s2.routes.slots ++ [⟨p.die, p.klass, i, va, p, false, false, 0, 0⟩] } })
      | (.miss, s1) => s.retry s1
      | (.bad _ _, s1) => (s1.pickUp p).unroutable p p.hops

/-- The port of a die to another (R16, R375). -/
def portNo (d e : Nat) : Nat := 24 + 7 * d + (e + 7 - d) % 8

/-- A flit sent at a link or port (R376): numbered, and kept until it is acknowledged. -/
def State.number (s : State) (k : Nat) : State :=
  let p := s.sender k
  s.setLink { p with nextSeq := p.nextSeq + 1, held := p.held ++ [p.nextSeq] }

/-- A packet's flit sent from a die to another over their ports, or over those of their relay die (R378, log 96). -/
def State.crossing (s : State) (d e : Nat) : State :=
  if d = e then s
  else if (s.link (pairLink d e)).flows then s.number (portNo d e)
  else match s.relay d e with
    | some f => (s.number (portNo d f)).number (portNo f e)
    | none => s

/-- A packet forwarded (R383): to a die, over a stitch link, or into the host mailbox. -/
def State.forwardPacket (s : State) (p : Packet) (e : RouteEntry) : State :=
  let k := if e.fwd = 1 then e.target else 18
  let dst := if e.fwd = 0 then e.target % 8 else linkDie k
  let path := if e.fwd = 0 then s.reach p.die dst else s.reachLink p.die k
  let p1 := { p with hops := p.hops + 1, via := p.die, die := dst, due := s.cycle + 1 + Config.latency s.serial }
  if s.masked p.die p.klass then s
  else if 8 ≤ p.hops && e.fwd != 2 then (s.pickUp p).unroutable p (p.hops + 1)
  else match path with
    | .lost => (s.pickUp p).packetFails p 0x17 0
    | .waits => s
    | .open_ =>
      let s0 := ({ s.pickUp p with serial := s.serial + 1 }).crossing p.die dst
      if e.fwd = 0 then
        (if s.routes.moving.any fun q => q.klass = p.klass && q.via = p.die && q.die = dst then s
         else { s0 with routes := { s0.routes with moving := s0.routes.moving ++ [p1] } })
      else if s.routes.sent.any fun x => x.1 = k && x.2.1.isNone then s
      else { s0 with routes := { s0.routes with sent := s0.routes.sent ++ [(k, none, p1)] } }

/-- A packet at a die takes the entry of its class there; one that has passed a ninth hop is dropped (R383). -/
def State.takePacket (s : State) (p : Packet) : State :=
  let e := s.entry p.die p.klass
  let s1 := s.holdEntry p.die p.klass e
  if e.unroutable || decide (8 < p.hops) then (s1.pickUp p).unroutable p p.hops
  else if e.kind = 3 then s1.forwardPacket p e
  else s1.receivePacket p e

/-- The packets that stand first at a die: of each class the first that came from each side. -/
def State.packetsAt (s : State) (d : Nat) : List Packet :=
  let all := (s.routes.moving.filter fun p => p.die = d) ++ s.routes.out.filter fun p => p.die = d
  all.filter fun p => decide (p.due ≤ s.cycle) && (all.find? fun q => q.klass = p.klass && q.via = p.via) = some p

/-- A packet waiting for a stitch link or the host port sent as its next flit; a stitch link needs a credit (R376). -/
def State.sendFlit (s : State) (k : Nat) : State :=
  let l := s.link k
  match s.routes.sent.find? fun x => x.1 = k && x.2.1.isNone with
  | none => s
  | some x =>
    if !l.flows || (decide (k < 18) && l.credits = 0) then s
    else
      let s1 := (s.setLink { l with credits := if k < 18 then l.credits - 1 else l.credits }).number k
      { s1 with routes := { s1.routes with sent := s1.routes.sent.map fun y => if y = x then (k, some l.nextSeq, x.2.2) else y } }

end Sys2Proof.Machine
end

