-- ==== Sys2Proof/Machine/SeqQueue.lean ====
section
/-! DEFINITION. Queue instructions of a strand (16_queues.md R329 to R334): operand checks at issue, one step at the
home die, and completion. -/

namespace Sys2Proof.Machine

/-! ### Operands of object instructions (R329, R341) -/

/-- A range of the acting strand translated: a miss stalls for its walk, a fault traps with EADDR holding `eaddr` (R329), an
uncorrected error that a read meets too (R392). -/
def State.spanOf (s : State) (acc : Access) (va n : Nat) (eaddr : DWord) (k : Span → Res) : Res :=
  match s.curTranslate acc va n with
  | .miss => .next (s.curWalk va)
  | .bad c det => .next (s.memFault c det eaddr 3 (acc != .read))
  | .ok pa e =>
    if acc != .write && s.spoilt s.curDie (some (coreOf s.focus.strand)) pa n then .next (s.memFault 0x16 0 eaddr 3 (acc != .read))
    else k ⟨va, pa, n, pageAttr e⟩

/-- The physical pieces of a range that the acting strand names, page by page. -/
def State.spansOf (s : State) (acc : Access) (endd : Nat) (eaddr : DWord) (k : List Span → Res) : List Nat → List Span → Res
  | [], got => k got
  | p :: ps, got => s.spanOf acc p (inPage p endd p) eaddr fun x => s.spansOf acc endd eaddr k ps (got ++ [x])

/-- A buffer of n bytes of an object instruction: a multiple of 4, translated for its access (R329). -/
def State.bufferOf (s : State) (acc : Access) (va n : Nat) (eaddr : DWord) (k : List Span → Res) : Res :=
  if va % 4 != 0 then .next (s.trap 0x03 eaddr 0)
  else s.spansOf acc (va + n) eaddr k (pagesOf va n) []

/-- A block or word of n bytes aligned to n, translated as an atomic (R329, R341). -/
def State.blockOf (s : State) (va : DWord) (n : Nat) (k : Span → Res) : Res :=
  if va.toNat % n != 0 then .next (s.trap 0x03 va 0) else s.spanOf .atomic va.toNat n va k

/-- The mark of the accesses of an object instruction (R253). -/
def State.spanMark (s : State) (x : Span) : Mark := s.mark s.cur.ctx 63 false x.page

/-- Whether the events with an arc into an object operation have performed: accesses to the same bytes, earlier
acquires, and every earlier event when it releases (R83). -/
def State.objectDeps (s : State) (spans : List Span) (release : Bool) : Bool :=
  s.depsMet s.focus.strand (spans.flatMap fun x => s.arcsInto s.focus.strand (.store x.pa x.n 0 false x.page) x.va release)

/-- An object operation begun: the request leaves with the clock of its die (R94, R328) once the events before it have
performed; until then the instruction stalls. -/
def State.beginObject (s : State) (v : DWord) (spans : List Span) (release : Bool) (k : State → Progress → Res) : Res :=
  if s.objectDeps spans release && spans.all (fun x => s.reachPa s.curDie x.pa != .waits) then
    let p : Progress := ⟨s.serial, s.clock s.curDie, 1, v, spans⟩
    k (s.setCur { s.cur with progress := some p }) p
  else .next s.stall

/-- An object operation whose request has left, taken on: it waits for the path to its home, and for lines that the host holds
(R241); with no path left it fails LINK_DOWN (R378). -/
def State.onObject (s : State) (a : GReg) (p : Progress) (k : Span → List Span → Res) : Res :=
  match p.spans with
  | [] => .next s.stall
  | x :: buf =>
    match s.reachPa s.curDie x.pa with
    | .lost => .next (s.trap 0x17 (s.cur.reg a) 0)
    | .waits => .next s.stall
    | .open_ =>
      match p.spans.findSome? fun y => s.ownedIn y.page y.pa y.n with
      | some line => .next (s.snoop line)
      | none => k x buf

/-- When a releasing request commits: its home die covers the clock of the request (R94, R328). -/
def State.releasing (s : State) (pa : Nat) (c : Clock) : Bool := (s.clock (homeDie pa)).covers c

/-- Whether the die of the acting strand covers the clock that comes with the answer of an acquiring step (R94, R95). -/
def State.acquired (s : State) (clock : Option Clock) : Bool :=
  match clock with | some k => (s.clock s.curDie).covers k | none => true

/-- An answer whose clock the strand's die does not cover: it waits, or fails LINK_DOWN once no path is left for what it waits for
(R378). -/
def State.awaitAnswer (s : State) (a : GReg) (held : State) : Res :=
  match s.cur.progress.bind fun p => p.spans.head? with
  | some x => if s.reachPa s.curDie x.pa = .lost then .next (s.trap 0x17 (s.cur.reg a) 0) else .next held
  | none => .next held

/-- Whether the acting strand is parked at a home controller. -/
def State.curParked (s : State) : Bool := s.ports.parked.any fun w => w.party = .strand s.focus.strand

/-- What an object operation of the acting strand was given when its step committed. -/
def State.gave (s : State) (r : Delivered) : State := s.setCur { s.cur with got := some r }

/-! ### `enq`, `tenq`, `deq`, `tdeq` -/

/-- An element stored in a strand's buffer, as writes of the strand after the acquire (R331). -/
def State.putSpans (s : State) (bs : List Byte) : List Span → State
  | [] => s
  | x :: rest =>
    ((s.putBytes s.curDie x.pa (bs.take x.n) (s.spanMark x)).dropL1 s.curDie
      (fun l => overlaps l 64 x.pa x.n) true).putSpans (bs.drop x.n) rest

/-- The bytes of a strand's buffer, read by it (R330). -/
def State.takeSpans (s : State) (xs : List Span) : List Byte × State :=
  xs.foldl (fun (r : List Byte × State) x =>
    (r.1 ++ r.2.bytesAt s.curDie x.pa x.n, r.2.touchRead s.curDie x.pa x.n (r.2.spanMark x))) ([], s)

/-- An enqueue completes (R330): `tenq` writes its status. -/
def State.endEnq (s : State) (q : Issue) (d : Option GReg) (status : DWord) : Res :=
  .next (s.done q 4 fun t => match d with | some r => t.result s.cycle 1 r status | none => t)

/-- An enqueue whose element stands in the ring: the strand goes on once its die covers the step's clock (R94, R325). -/
def State.recvEnq (s : State) (q : Issue) (d : Option GReg) (a : GReg) (clock : Option Clock) : Res :=
  if s.acquired clock then s.endEnq q d 0 else s.awaitAnswer a (s.gave (.value 0 [] clock))

/-- The steps of an enqueue whose request has left (R330): the home die must cover the request's clock (R328). -/
def State.commitEnq (s : State) (q : Issue) (d : Option GReg) (a b : GReg) (p : Progress) : Res :=
  s.onObject a p fun x buf =>
    if !s.releasing x.pa p.clock then .next s.stall
    else
      let n := p.value.toNat
      let e := if n ≤ 8 then ((toBytes 8 (s.cur.reg b).toNat).take n, s) else s.takeSpans buf
      match e.2.enqStep ⟨.strand s.focus.strand, x.pa, .producer, n, e.1, 0, 0, 0, 0, s.spanMark x⟩ d.isNone with
      | (s1, .ok _ _ clock) => s1.recvEnq q d a (some clock)
      | (s1, .full) => s1.endEnq q d 1
      | (s1, .closed) => if d.isNone then .next (s1.trap 0x0B (s1.cur.reg a) 0) else s1.endEnq q d 2
      | (s1, .corrupt det) => .next (s1.trap 0x0A (s1.cur.reg a) (BitVec.ofNat 64 det))
      | (s1, _) => .next s1

/-- An enqueue (R330): blocking without a status register. -/
def State.enqueue (s : State) (q : Issue) (d : Option GReg) (a b : GReg) : Res :=
  match s.cur.got with
  | some (.failed code det) => .next (s.trap (BitVec.ofNat 64 code) (s.cur.reg a) (BitVec.ofNat 64 det))
  | some (.value _ _ clock) => s.recvEnq q d a clock
  | none =>
    if s.curParked then .next s.stall
    else match s.cur.progress with
      | some p => s.commitEnq q d a b p
      | none =>
        if s.cur.awaits a || s.cur.awaits b then .next s.stall
        else s.blockOf (s.cur.reg a) 64 fun x =>
          let blk := s.qblock s.curDie x.pa
          let n := blk.esize
          if blk.pmode = 2 then .next (s.trap 0x08 (s.cur.reg a) 4)
          else
            let start (ps : List Span) : Res :=
              s.beginObject (BitVec.ofNat 64 n) (x :: ps) true fun s1 p => s1.commitEnq q d a b p
            if n ≤ 8 then start []
            else s.bufferOf .read (s.cur.reg b).toNat n (s.cur.reg a) start

/-- `enq` (R330). -/
def execEnq (q : Issue) (a b : GReg) (s : State) : Res := s.enqueue q none a b

/-- `tenq` (R330). -/
def execTenq (q : Issue) (d a b : GReg) (s : State) : Res := s.enqueue q (some d) a b

/-- A dequeue completes (R331): the element into its register, and into the buffer when it is longer than 8 bytes.
`tdeq` writes its status, then the element. -/
def State.endDeq (s : State) (q : Issue) (d : GReg) (c : Option GReg) (v : DWord) (bytes : List Byte) : Res :=
  let buf := ((s.cur.progress.map Progress.spans).getD []).drop 1
  .next ((s.putSpans bytes buf).done q 4 fun t =>
    match c with
    | none => t.result s.cycle 1 d v
    | some r => (t.result s.cycle 1 d 0).result s.cycle 1 r v)

/-- A status of `tdeq` without an element. -/
def State.endTdeq (s : State) (q : Issue) (d : GReg) (status : DWord) : Res :=
  .next (s.done q 4 fun t => t.result s.cycle 1 d status)

/-- A dequeued element received: the strand goes on once its die covers the home's clock (R95, R328), and the host has given up
the lines of its buffer (R241). -/
def State.recvDeq (s : State) (q : Issue) (d : GReg) (c : Option GReg) (a : GReg) (v : DWord) (bytes : List Byte) (clock : Option Clock) : Res :=
  let buf := ((s.cur.progress.map Progress.spans).getD []).drop 1
  let held := s.gave (.value v bytes clock)
  if !s.acquired clock then s.awaitAnswer a held
  else match buf.findSome? fun y => s.ownedIn y.page y.pa y.n with
    | some line => .next (held.snoop line)
    | none => s.endDeq q d c v bytes

/-- The step of a dequeue at its home (R331), once the home covers the request's clock (R94, R325). -/
def State.commitDeq (s : State) (q : Issue) (d : GReg) (c : Option GReg) (a : GReg) (p : Progress) : Res :=
  s.onObject a p fun x _ =>
    if !s.releasing x.pa p.clock then .next s.stall
    else match s.deqStep ⟨.strand s.focus.strand, x.pa, .consumer, p.value.toNat, [], 0, 0, 0, 0, s.spanMark x⟩ c.isNone with
    | (s1, .ok v bytes clock) => s1.recvDeq q d c a v bytes (some clock)
    | (s1, .empty) => s1.endTdeq q d 1
    | (s1, .closed) => if c.isNone then .next (s1.trap 0x0B (s1.cur.reg a) 0) else s1.endTdeq q d 2
    | (s1, .corrupt det) => .next (s1.trap 0x0A (s1.cur.reg a) (BitVec.ofNat 64 det))
    | (s1, _) => .next s1

/-- A dequeue (R331): blocking without a status register. -/
def State.dequeue (s : State) (q : Issue) (d : GReg) (c : Option GReg) (a b : GReg) : Res :=
  match s.cur.got with
  | some (.failed code det) => .next (s.trap (BitVec.ofNat 64 code) (s.cur.reg a) (BitVec.ofNat 64 det))
  | some (.value v bytes clock) => s.recvDeq q d c a v bytes clock
  | none =>
    if s.curParked then .next s.stall
    else match s.cur.progress with
      | some p => s.commitDeq q d c a p
      | none =>
        if s.cur.awaits a || s.cur.awaits b then .next s.stall
        else s.blockOf (s.cur.reg a) 64 fun x =>
          let blk := s.qblock s.curDie x.pa
          let n := blk.esize
          if blk.cmode = 2 then .next (s.trap 0x08 (s.cur.reg a) 4)
          else
            let start (ps : List Span) : Res :=
              s.beginObject (BitVec.ofNat 64 n) (x :: ps) true fun s1 p => s1.commitDeq q d c a p
            if n ≤ 8 then start []
            else s.bufferOf .write (s.cur.reg b).toNat n (s.cur.reg a) start

/-- `deq` (R331). -/
def execDeq (q : Issue) (d a b : GReg) (s : State) : Res := s.dequeue q d none a b

/-- `tdeq` (R331): gD the status, gC the element. -/
def execTdeq (q : Issue) (d a b c : GReg) (s : State) : Res := s.dequeue q d (some c) a b

/-! ### `qinit`, `qstat`, `qdrain` -/

/-- A result received by an object operation: its register is written once the strand's die covers the clock that comes
with an acquiring step (R94, R95); a failure traps with EADDR holding the object's address (R329, R341). -/
def State.recvObject (s : State) (q : Issue) (d a : GReg) (r : Delivered) : Res :=
  match r with
  | .failed code det => .next (s.trap (BitVec.ofNat 64 code) (s.cur.reg a) (BitVec.ofNat 64 det))
  | .value v _ clock =>
    if s.acquired clock then .next (s.done q 4 fun t => t.result s.cycle 1 d v) else s.awaitAnswer a (s.gave r)

/-- A relaxed request commits at once. -/
def State.relaxed (_ : State) (_ : Nat) (_ : Clock) : Bool := true

/-- An object operation with one step on a block or word: operands, arcs, the condition on the clocks, then the step,
which answers at once, or parks the strand or waits for a walk and answers nothing. -/
def State.objectStep (s : State) (q : Issue) (d a : GReg) (extra : List GReg) (n : Nat) (release : Bool)
    (ready : State → Nat → Clock → Bool) (k : State → Span → State × Option Delivered) : Res :=
  let go (s : State) (p : Progress) : Res := s.onObject a p fun x _ =>
    if ready s x.pa p.clock then
      (match k s x with
       | (s1, some r) => s1.recvObject q d a r
       | (s1, none) => .next s1)
    else .next s.stall
  match s.cur.got with
  | some r => s.recvObject q d a r
  | none =>
    if s.curParked then .next s.stall
    else match s.cur.progress with
      | some p => go s p
      | none =>
        if s.cur.awaits a || extra.any s.cur.awaits then .next s.stall
        else s.blockOf (s.cur.reg a) n fun x => s.beginObject 0 [x] release go

/-- The answer of a step that acquires nothing. -/
def plain (v : DWord) : Option Delivered := some (.value v [] none)

/-- The answer of a step that acquires: with the clock of the home die after it (R94, R325). -/
def State.acquiring (s : State) (pa : Nat) (v : DWord) : Option Delivered := some (.value v [] (some (s.clock (homeDie pa))))

/-- What `qinit` finds before it looks at the ring (R333): the status and the byte offset of the failing field. -/
def QBlock.initBad (b : QBlock) (pa : Nat) : Option (Nat × Nat) :=
  match b.badField with
  | some off => some (1, off)
  | none => if isHostPa pa || b.home != homeDie pa then some (4, 0x18) else none

/-- What `qinit` finds at the ring's page (R323, R333, R335). -/
def State.ringBad (s : State) (pa : Nat) (b : QBlock) (e : TlbEntry) : Option (Nat × Nat) :=
  let others := s.ports.hostq.filter (· != pa)
  if e.va + e.size < b.ring + b.esize * b.cap || leafPlace e.leaf != 0 || leafFrame e.leaf / 2 ^ 39 != b.home then some (2, 0x10)
  else if b.pmode = 2 && (decide (1024 ≤ others.length) || decide (128 ≤ (others.filter fun x => homeDie x = homeDie pa).length)) then
    some (3, 0x18)
  else none

/-- A block set up on a ring (R333, R324). -/
def State.openQueue (s : State) (x : Span) (b : QBlock) (rpa : Nat) : State :=
  let s1 := s.releaseQueue x.pa
  let nb : QBlock := { b with head := 0, tail := 0, free := b.cap, mode := b.mode % 2 ^ 30, chk := b.check, pring := rpa,
                              enqs := 0, deqs := 0 }
  let hostq := s1.ports.hostq.filter (· != x.pa) ++ (if b.pmode = 2 then [x.pa] else [])
  { s1 with ports := { s1.ports with hostq := hostq } }.putBlock (homeDie x.pa) x.pa nb (s.spanMark x)

/-- The step of `qinit` (R333): the status and the failing field's offset; it waits for the walk of the ring's page. -/
def State.qinitAt (s : State) (x : Span) : State × Option Delivered :=
  let b := s.qblock (homeDie x.pa) x.pa
  let say (s : State) (f : Nat × Nat) : State × Option Delivered := (s, s.acquiring x.pa (BitVec.ofNat 64 (f.2 * 256 + f.1)))
  match b.initBad x.pa with
  | some f => say s f
  | none =>
    match s.curTranslate .atomic b.ring 1 with
    | .miss => (s.curWalk b.ring, none)
    | .bad _ _ => say s (2, 0x10)
    | .ok rpa e =>
      match s.ringBad x.pa b e with
      | some f => say s f
      | none => say (s.openQueue x b rpa) (0, 0)

/-- `qinit` (R333): a releasing step. -/
def execQinit (q : Issue) (d a : GReg) (s : State) : Res :=
  s.objectStep q d a [] 64 true State.releasing State.qinitAt

/-- The word of `qstat` (R332). -/
def QBlock.statWord (b : QBlock) (np nc : Nat) : DWord :=
  BitVec.ofNat 64 (b.corrupt.toNat * 2 ^ 63 + b.closed.toNat * 2 ^ 62 + min 255 np * 2 ^ 48 + min 255 nc * 2 ^ 40 +
    b.home * 2 ^ 37 + bitsOf b.ctl 20 16 * 2 ^ 32 + b.count % 2 ^ 25)

/-- A block checked in a step that does not fail on it (R327): unsound, it is marked CORRUPT and its parties are
released. -/
def State.soundStep (s : State) (x : Span) : State :=
  let b := s.qblock (homeDie x.pa) x.pa
  if b.unsound x.pa != 0 then s.markCorrupt (homeDie x.pa) x.pa b (b.unsound x.pa) (s.spanMark x) else s

/-- The step of `qstat` (R332). -/
def State.qstatAt (s : State) (x : Span) : State × Option Delivered :=
  let s1 := s.soundStep x
  (s1, plain ((s1.qblock (homeDie x.pa) x.pa).statWord (s1.parkedAt x.pa .producer).length (s1.parkedAt x.pa .consumer).length))

/-- `qstat` (R332): one relaxed step. -/
def execQstat (q : Issue) (d a : GReg) (s : State) : Res :=
  s.objectStep q d a [] 64 false State.relaxed State.qstatAt

/-- The step of `qdrain` in a mode (R334): the status and the state. -/
def State.qdrainAt (s : State) (x : Span) (va modeWord : DWord) : Nat × State :=
  let pa := x.pa
  let h := homeDie pa
  let bad := (s.qblock h pa).unsound pa != 0
  let s1 := s.soundStep x
  let b := s1.qblock h pa
  let m := s.spanMark x
  if bad || b.corrupt then (1, s1)
  else if modeWord.toNat ≥ 3 then (3, s1)
  else if modeWord = 0 then (0, (s1.releaseQueue pa).putBlock h pa { b with mode := b.mode % 2 ^ 30 + 2 ^ 30 } m)
  else if modeWord = 1 then (0, s1.putBlock h pa { b with mode := b.mode % 2 ^ 30 } m)
  else if s1.cur.arms.length ≥ 16 then (2, s1)
  else (0, (s1.setCur { s1.cur with arms := s1.cur.arms ++ [(pa, va)] }).wakeArms pa b false)

/-- `qdrain` (R334): mode 2 from a user strand traps PRIV, once the mode is in its register (R83). The step acquires and releases
(R325). -/
def execQdrain (q : Issue) (d a b : GReg) (s : State) : Res :=
  if s.cur.awaits b && s.cur.progress.isNone then .next s.stall
  else if !s.cur.sup && (s.cur.reg b).extractLsb' 0 2 = 2 then .next s.trapPriv
  else s.objectStep q d a [b] 64 true State.releasing fun s0 x =>
    let count := (s0.qblock (homeDie x.pa) x.pa).count
    let r := s0.qdrainAt x (s0.cur.reg a) (s0.cur.reg b)
    (r.2, r.2.acquiring x.pa (BitVec.ofNat 64 (count % 2 ^ 25 * 2 ^ 32 + r.1)))

end Sys2Proof.Machine
end

