-- ==== Sys2Proof/Machine/SeqPacket.lean ====
section
/-! DEFINITION. `pksend`, `cmask` and `cunmask` (23_links.md R385, R386). -/

namespace Sys2Proof.Machine

/-- A packet accepted by `pksend`: into the outbound queue of the die, with the die's clock (R384). -/
def State.acceptPacket (s : State) (c : Nat) (payload : List Byte) : State :=
  let d := s.curDie
  let p : Packet := { klass := c, die := d, via := 2000 + s.focus.strand, link := 0, hops := 0, srcDie := d, srcKind := 0,
                      srcWho := whoStrand s.focus.strand, ctx := s.cur.ctx, payload := payload, clock := s.clock d,
                      due := s.cycle + 1 + Config.latency s.serial }
  { s with routes := { s.routes with out := s.routes.out ++ [p] }, serial := s.serial + 1 }

/-- Packets in the outbound queue of a die. -/
def State.outbound (s : State) (d : Nat) : Nat := (s.routes.out.filter fun p => p.die = d).length

/-- `pksend` (R385): the issue is a release; it stalls while the outbound queue is full. -/
def execPksend (q : Issue) (d a b c : GReg) (s : State) : Res :=
  let t := s.cur
  let give (s : State) (v : DWord) : Res := .next (s.done q 4 fun t => t.result s.cycle 1 d v)
  if t.awaits a || t.awaits b || t.awaits c then .next s.stall
  else if field (t.reg a) 63 4 != 0 || t.reg c = 0 || decide (256 < (t.reg c).toNat) then give s 1
  else
    let k := (t.reg a).toNat
    let e := s.entry s.curDie k
    let s0 := s.holdEntry s.curDie k e
    if !e.v then give s0 2
    else if !t.sup && e.kind != 3 && e.ctx != t.ctx then give s0 2
    else
      let va := (t.reg b).toNat
      let n := (t.reg c).toNat
      s0.spansOf .read (va + n) (t.reg b) (fun spans =>
        if !s0.objectDeps spans true || decide (16 ≤ s0.outbound s0.curDie) then .next s0.stall
        else match spans.findSome? fun x => s0.ownedIn x.page x.pa x.n with
          | some line => .next (s0.snoop line)
          | none =>
            let r := s0.takeSpans spans
            give (r.2.acceptPacket k r.1) 0) (pagesOf va n) []

/-- The classes of a set. -/
def classesOf (m : DWord) : List Nat := (List.range 16).filter fun c => m.getLsbD c

/-- The entries of classes read again by the routers of a die (R386). -/
def State.rereadEntries (s : State) (d : Nat) (cs : List Nat) : State := cs.foldl (fun s c => s.holdEntry d c (s.entryAt d c)) s

/-- Handlers of masked classes that have not started withdrawn (R386): events that their strands have not taken, and tasks that are not
bound, which leave the table. -/
def State.withdraw (s : State) (d : Nat) (cs : List Nat) : State :=
  let pending (e : AsyncEvent) : Bool := match e.klass with | some c => cs.contains c | none => false
  let off (p : Nat × Strand) : Nat × Strand :=
    if dieOf p.1 = d then (p.1, { p.2 with events := p.2.events.filter fun e => !pending e }) else p
  let open_ (t : Task) : Bool := t.die = d && (t.st = .waiting || t.st = .ready) &&
    (match t.packet with | some x => cs.contains x.1 | none => false)
  let gone := (s.tasks.tasks.filter open_).map fun t => (t.no, t.packet)
  let left (no : Nat) : Bool := !(gone.any fun g => g.1 = no)
  let free (t : Task) : Task := { t with follows := t.follows.filter left, arcs := t.arcs.filter left }
  let waits (r : RecvSlot) : Bool := r.die = d && cs.contains r.klass && r.started && !r.taken &&
    (r.kind = 1 || (r.kind = 0 && gone.any fun g => g.2 = some (r.klass, r.slot)))
  { s with seqs := { s.seqs with strands := s.seqs.strands.map off },
           tasks := { s.tasks with tasks := (s.tasks.tasks.filter fun t => !open_ t).map free },
           routes := { s.routes with slots := s.routes.slots.map fun r => if waits r then { r with started := false } else r } }

/-- Slots of event classes whose event has been taken are freed (R386). -/
def State.freeTaken (s : State) (d : Nat) (cs : List Nat) : State :=
  { s with routes := { s.routes with slots := s.routes.slots.filter fun r => !(r.die = d && cs.contains r.klass && r.taken) } }

/-- The mask set of a die replaced. -/
def State.setMasks (s : State) (d : Nat) (m : BitVec 16) : State :=
  { s with routes := { s.routes with masks := insertD s.routes.masks d m } }

/-- The common part of `cmask` and `cunmask` (R386): a user strand may name only classes of its own context. -/
def State.maskOp (s : State) (q : Issue) (d a : GReg) (k : State → Nat → List Nat → BitVec 16 → State) : Res :=
  let t := s.cur
  let m := t.reg a
  let die := s.curDie
  let cs := classesOf m
  let own (c : Nat) : Bool := (s.entry die c).kind != 3 && (s.entry die c).ctx = t.ctx
  if t.awaits a then .next s.stall
  else if field m 63 16 != 0 then
    let all : DWord := 0xFFFFFFFFFFFFFFFF
    .next (s.done q 4 fun t => t.result s.cycle 1 d all)
  else if !t.sup && !cs.all own then .next (s.trap 0x08 0 0)
  else
    let old := (s.masks die).setWidth 64
    .next (((k s die cs (m.setWidth 16)).rereadEntries die cs).done q 4 fun t => t.result s.cycle 1 d old)

/-- `cmask` (R386). -/
def execCmask (q : Issue) (d a : GReg) (s : State) : Res :=
  s.maskOp q d a fun s die cs m => (s.withdraw die cs).setMasks die (s.masks die ||| m)

/-- `cunmask` (R386). -/
def execCunmask (q : Issue) (d a : GReg) (s : State) : Res :=
  s.maskOp q d a fun s die cs m => (s.freeTaken die cs).setMasks die (s.masks die &&& ~~~m)

end Sys2Proof.Machine
end

