-- ==== Sys2Proof/Machine/EvLink.lean ====
section
/-! DEFINITION. Events of links, packets and the host's registers (23_links.md R375 to R386). -/

namespace Sys2Proof.Machine

/-! ### Link states (R377, R378) -/

/-- The record of a link that retrains or leaves service, to the host mailbox (R377). -/
def State.linkRecord (s : State) (k flags : Nat) : State :=
  s.postHost (recordWords 0x17 flags 8 (linkDie k) (linkWho k) 0 0 0 0 0 0)

/-- The packets on a stitch link or the host port, in flight or waiting for it, reported failed (R378). -/
def State.failSent (s : State) (k : Nat) : State :=
  let mine := s.routes.sent.filter fun x => x.1 = k
  let s1 := mine.foldl (fun s x => s.packetFails x.2.2 0x17 0) s
  { s1 with routes := { s1.routes with sent := s1.routes.sent.filter fun x => x.1 != k } }

/-- The packets on their way between two dies that no path joins any more reported failed (R378). -/
def State.failMoving (s : State) : State :=
  let lost (p : Packet) : Bool := decide (p.via < 8) && decide (s.cycle < p.due) && s.reach p.via p.die = .lost
  let s1 := (s.routes.moving.filter lost).foldl (fun s p => s.packetFails p 0x17 0) s
  { s1 with routes := { s1.routes with moving := s1.routes.moving.filter fun p => !lost p } }

/-- The parties parked at a home that no path joins to their die any more released with LINK_DOWN (R378). -/
def State.failParked (s : State) : State :=
  (s.ports.parked.filter fun w => s.reachPa (partyDie w.party) w.pa = .lost).foldl (fun s w =>
    let s1 := s.unpark w
    let s2 := if w.side = .barrier then s1 else s1.putBlock (homeDie w.pa) w.pa (s1.qblock (homeDie w.pa) w.pa) w.mark
    s2.answer w (.failed 0x17 0)) s

/-- What needed a path that a change of a link has taken away reported failed (R378). -/
def State.severed (s : State) : State := s.failMoving.failParked

/-- The flits that a pair of dies had not acknowledged sent again over the relay die (R378). -/
def State.resend (s : State) (k : Nat) (n : Nat) : State :=
  let d := (k - 24) / 7
  (List.range n).foldl (fun s _ => s.crossing d ((d + (k - 24) % 7 + 1) % 8)) s

/-- A link leaves service (R377, R378). -/
def State.linkOut (s : State) (k : Nat) (st : LinkSt) : State :=
  let held := (portsOf k).map fun p => (p, (s.sender p).held.length)
  let s1 := (portsOf k).foldl (fun s p => s.setLink { s.sender p with held := [], again := (0, 0), asked := false }) s
  let l := s1.link k
  let s2 := (s1.setLink { l with st := st }).linkRecord l.no flagLasting
  if k < 24 then (s2.failSent k).severed else (held.foldl (fun s x => s.resend x.1 x.2) s2).severed

/-- A link goes to RETRAINING: unacknowledged flits stay in its sender's replay buffer (R377). -/
def State.linkRetrains (s : State) (k : Nat) : State :=
  let l := s.link k
  ((s.setLink { l with st := .retraining, fails := 0 }).linkRecord l.no flagTransient).severed

/-- FENCE (R377): from UP, DEGRADED or RETRAINING. -/
def State.fenceLink (s : State) (k : Nat) : State :=
  let l := s.link k
  if l.flows || l.st = .retraining then s.linkOut k .fenced else s

/-- RETRAIN (R377): from DOWN, FENCED or FAILED. -/
def State.retrainLink (s : State) (k : Nat) : State :=
  let l := s.link k
  if l.st = .down || l.out then s.setLink { l with st := .training, fails := 0 } else s

/-- Lanes, or lane groups, of a link at full width (R376). -/
def fullWidth (k : Nat) : Nat := if k < 18 then 8 else if k = 18 then 16 else 4

/-- The widths at which a link may train (R376). -/
def widthsOf (k : Nat) : List Nat := if k < 18 then [8, 4] else if k = 18 then [16, 8, 4, 2, 1] else [4, 2]

/-- A sender and its receiver once their link has trained: flits held over a RETRAINING are replayed first (R377), after a TRAINING the
numbers begin again. -/
def Link.fresh (p : Link) (again : Bool) : Link :=
  { p with again := (0, 0), replays := BitVec.ofNat 32 (min (p.replays.toNat + if again then p.held.length else 0) (2 ^ 32 - 1)),
           credits := if again then p.credits else Config.linkCredits p.no, nextSeq := if again then p.nextSeq else 0,
           expect := if again then p.expect else 0 }

/-- LINK_TRAINED (R377). -/
def execLinkTrained (link width : Nat) (s : State) : Res :=
  let l := s.link link
  if !isLink link || !(l.st = .training || l.st = .retraining) || !(widthsOf link).contains width then .next s
  else
    let s1 := (portsOf link).foldl (fun s p => s.setLink ((s.sender p).fresh (l.st = .retraining))) s
    .next (s1.setLink { s1.link link with st := if width = fullWidth link then .up else .degraded, width := BitVec.ofNat 8 width,
                                          fails := 0 })

/-- A failed training counted: the third in a row makes the link FAILED (R377). -/
def State.trainingFails (s : State) (k : Nat) : State :=
  let l := s.link k
  if l.fails + 1 < 3 then s.setLink { l with fails := l.fails + 1 } else s.linkOut k .failed

/-- LINK_LANE_LOSS (R377). -/
def execLinkLaneLoss (link : Nat) (s : State) : Res :=
  if isLink link && (s.link link).flows then .next (s.linkRetrains link) else .next s

/-- LINK_FENCE (R377, R380): CMD 1, which the host port ignores. -/
def execLinkFence (link : Nat) (s : State) : Res := if isLink link && link != 18 then .next (s.fenceLink link) else .next s

/-- LINK_RETRAIN (R377, R380): CMD 2, which the host port ignores. -/
def execLinkRetrain (link : Nat) (s : State) : Res := if isLink link && link != 18 then .next (s.retrainLink link) else .next s

/-! ### Flits (R376) -/

/-- The packet that a flit from outside carries, numbered as log 19 says: class, hops, length, then the payload. -/
def flitPacket (s : State) (k payload : Nat) : Packet :=
  let n := payload / 256 % 512
  { klass := payload % 16, die := linkDie k, via := 1000 + k, link := k, hops := payload / 16 % 16 + 1, srcDie := linkDie k,
    srcKind := if k = 18 then 2 else 1, srcWho := 0, ctx := 0, payload := toBytes n (payload / 2 ^ 32), clock := Clock.zero,
    due := s.cycle + 1 + Config.latency s.serial }

/-- What an accepted flit brings: on a stitch link or the host port, a route-class packet. -/
def State.acceptFlit (s : State) (k payload : Nat) : State :=
  let p := flitPacket s k payload
  if 18 < k || p.payload.isEmpty || decide (256 < p.payload.length) then s
  else { s with routes := { s.routes with moving := s.routes.moving ++ [p] }, serial := s.serial + 1 }

/-- FLIT_RECEIVE (R376): accepted only in sequence order; a CRC failure or a gap asks for a replay. The host port follows the
link-layer retry of CXL 3.1. -/
def execFlitReceive (link seq : Nat) (crcOk : Bool) (payload : Nat) (s : State) : Res :=
  let p := s.sender link
  if !isLink link || !(s.link link).flows then .next s
  else if crcOk && seq = p.expect then .next ((s.setLink { p with expect := p.expect + 1, asked := false }).acceptFlit link payload)
  else if crcOk && decide (seq < p.expect) then .next s
  else .next (s.setLink { p with asked := true })

/-- Flits acknowledged up to a number: those of a stitch link are delivered to the next module, those of the host port to the host's
mailbox (R378). -/
def State.acknowledge (s : State) (k seq : Nat) : State :=
  let l := s.sender k
  let acked (x : Nat × Option Nat × Packet) : Bool := x.1 = k && (match x.2.1 with | some n => decide (n ≤ seq) | none => false)
  let s1 := s.setLink { l with held := l.held.filter fun n => decide (seq < n), again := (0, 0) }
  { s1 with routes := { s1.routes with
      beyond := s1.routes.beyond ++ (s1.routes.sent.filter acked).map (fun x => (k, x.2.2)),
      sent := s1.routes.sent.filter fun x => !acked x } }

/-- Flits re-sent from a number: the eighth replay of one flit in a row sends the link to RETRAINING (R377). -/
def State.replay (s : State) (k seq : Nat) : State :=
  let l := s.sender k
  let again := if l.again.1 = seq then l.again.2 + 1 else 1
  let n := l.replays.toNat + (l.held.filter fun x => decide (seq ≤ x)).length
  let s1 := s.setLink { l with again := (seq, again), replays := BitVec.ofNat 32 (min n (2 ^ 32 - 1)) }
  if 8 ≤ again then s1.linkRetrains k else s1

/-- FLIT_ACKNOWLEDGEMENT (R376): an acknowledgement of the flits up to a number, or a request to replay from it. -/
def execFlitAcknowledgement (link seq : Nat) (replay : Bool) (s : State) : Res :=
  if !isLink link || !(s.link link).flows then .next s
  else if replay then (if (s.sender link).held.contains seq then .next (s.replay link seq) else .next s)
  else .next (s.acknowledge link seq)

/-- CREDIT_RETURN (R376): a credit of a stitch link comes back, and a flit that waits may go. -/
def execCreditReturn (link : Nat) (s : State) : Res :=
  if 17 < link then .next s
  else
    let l := s.link link
    .next ((s.setLink { l with credits := l.credits + 1 }).sendFlit link)

/-! ### The host's registers (R380) -/

/-- CTXTAB (R380): a write takes effect only while no context is LIVE or FROZEN. -/
def execCtxtab (v : DWord) (s : State) : Res :=
  if s.ctxs.live.all s.ctxs.dying.contains then .next { s with outer := { s.outer with mgmt := { s.outer.mgmt with ctxtab := v &&& ~~~0x3F#64 } } }
  else .next s

/-- REGISTER_WRITE (R380, R398): RCBASE, and CMD of a link; CTXTAB as its own row; START and reserved fields ignore writes. -/
def execRegisterWrite (off : Nat) (v : DWord) (s : State) : Res :=
  if off = 0 then execCtxtab v s
  else if off = 8 then .next { s with outer := { s.outer with mgmt := { s.outer.mgmt with rcbase := v &&& ~~~0x7FF#64 } } }
  else if 0x100 ≤ off && off % 8 = 0 && isLink ((off - 0x100) / 8) then
    (match field v 17 16 with
     | 1 => execLinkFence ((off - 0x100) / 8) s
     | 2 => execLinkRetrain ((off - 0x100) / 8) s
     | _ => .next s)
  else .next s

/-- What the host reads at an offset of BAR0 (R380, R398). -/
def State.bar0 (s : State) (off : Nat) : DWord :=
  let m := s.outer.mgmt
  let code (st : LinkSt) : Nat :=
    match st with
    | .down => 0
    | .training => 1
    | .up => 2
    | .degraded => 3
    | .retraining => 4
    | .fenced => 5
    | .failed => 6
  let mode : Nat := match m.mode with | .starting => 0 | .running => 1 | .minimal => 2
  if off = 0 then m.ctxtab
  else if off = 8 then m.rcbase
  else if off = 0x10 then
    BitVec.ofNat 64 (m.reason.toNat * 2 ^ 16 + m.diesUp.toNat * 2 ^ 8 + m.fails % 4 * 4 + mode)
  else if 0x100 ≤ off && off % 8 = 0 && isLink ((off - 0x100) / 8) then
    let l := s.link ((off - 0x100) / 8)
    BitVec.ofNat 64 ((s.sender ((off - 0x100) / 8)).replays.toNat * 2 ^ 32 + l.width.toNat * 2 ^ 8 + code l.st)
  else 0

/-! ### Packets (R381 to R384) -/

/-- PACKET_ARRIVAL (R383): slots free, handlers start, waiting flits leave, and a packet that stands first at the die takes the
entry of its class. -/
def execPacketArrival (die : Nat) (s : State) : Res :=
  let s1 := (s.freeSlots die).startHandlers die
  let s2 := ((List.range 19).filter fun k => linkDie k = die).foldl State.sendFlit s1
  .next ((s2.packetsAt die).foldl State.takePacket s2)

end Sys2Proof.Machine
end

