-- ==== Sys2Proof/Machine/EvHost.lean ====
section
/-! DEFINITION. Host accesses to device memory (04_ordering.md R96; 10_pages.md R241) and to host queues (16_queues.md R336). -/

namespace Sys2Proof.Machine

/-- A record of the host's own failure, to the host mailbox (R327). -/
def State.hostRecord (s : State) (code detail pa : Nat) : State :=
  s.postHost (recordWords code 0 9 (homeDie pa) 0 0 0 0 detail (BitVec.ofNat 64 pa) 0)

/-- Whether the host reaches an address (R234): its own memory, or device memory that is populated. -/
def hostReaches (pa n : Nat) : Bool :=
  isHostPa pa || ((paInfo pa).isSome && (n = 0 || (paInfo (pa + n - 1)).isSome))

/-- Bytes of device memory that the host port shows (R379, R397): none in minimal mode. -/
def State.hdmCapacity (s : State) : Nat := if s.outer.mgmt.mode = .minimal then 0 else Config.dies * Config.dieBytes

/-- The naturally aligned parts of an access of the host, each one event (R97), lowest first; the fuel bounds their number. -/
def alignedParts (pa n : Nat) : Nat → List (Nat × Nat)
  | 0 => []
  | k + 1 =>
    if n = 0 then []
    else
      let m := (([8, 4, 2, 1].find? fun m => pa % m = 0 && decide (m ≤ n)).getD 1)
      (pa, m) :: alignedParts (pa + m) (n - m) k

/-- The home slice records that the host holds a line of device memory (R241). -/
def State.hostHolds (s : State) (pa : Nat) : State :=
  let line := pa / 64 * 64
  if isHostPa pa || s.mem.hostHas.contains line then s else s.modMem fun t => { t with hostHas := t.hostHas ++ [line] }

/-- A write of the host (R96): to its own memory, or at the image of its home. -/
def State.hostWrite (s : State) (pa : Nat) (bs : List Byte) : State :=
  s.performWrite (homeDie pa) pa (bs.map some) Mark.plain false

/-! ### Host queues (R336) -/

/-- Whether an address is that of a sound block that a controller keeps. -/
def State.isBlock (s : State) (pa : Nat) : Bool :=
  pa % 64 = 0 && (s.ports.kept.any fun k => k.pa = pa) && (s.qblock (homeDie pa) pa).unsound pa = 0

/-- A host write to HEAD, TAIL or FREE of a block, sound before it, that breaks R323 makes it CORRUPT (R336). -/
def State.checkHostBlocks (s before : State) (pa n : Nat) : State :=
  ((s.ports.kept.map QKept.pa).filter fun b => overlaps b 12 pa n && before.isBlock b).foldl (fun s b =>
    let k := s.qblock (homeDie b) b
    if k.unsound b != 0 && !k.corrupt then (s.markCorrupt (homeDie b) b k (k.unsound b) Mark.plain).hostRecord 0x0A (k.unsound b) b
    else s) s

/-- The enqueues that a TAIL write adds: the slots already hold the elements (R336). -/
def Served.pushes (r : Served) (d pa : Nat) : Nat → Served
  | 0 => r
  | n + 1 => (Served.consumer { r with b := r.b.pushed } d pa).pushes d pa n

/-- The dequeues that a HEAD write adds (R336). -/
def Served.pops (r : Served) (d pa : Nat) : Nat → Served
  | 0 => r
  | n + 1 => (Served.producer { r with b := r.b.popped } d pa).pops d pa n

/-- A host write of one index of a block (R336): a block found unsound, or an index that breaks R323, makes the block CORRUPT;
with the side's mode not host, only an unchanged index keeps it sound. -/
def State.hostIndex (s : State) (pa : Nat) (ours : QBlock → Bool) (old room : QBlock → Nat) (v : Nat)
    (k : State → Nat → QBlock → Nat → State) : State :=
  let d := homeDie pa
  let b := s.qblock d pa
  let n := (v + 2 ^ 32 - old b) % 2 ^ 32
  let broken (det : Nat) : State := (s.markCorrupt d pa b det Mark.plain).hostRecord 0x0A det pa
  if b.unsound pa != 0 then broken (b.unsound pa)
  else if b.corrupt then s.hostRecord 0x0A 0 pa
  else if n = 0 then s
  else if !ours b || decide (room b < n) then broken 4
  else k s d b n

/-- A new TAIL of a block: the home slice takes the write as the commit of the enqueues that it adds (R336). -/
def State.hostTail (s : State) (pa v : Nat) : State :=
  s.hostIndex pa (fun b => b.pmode = 2) QBlock.tail QBlock.free v fun s d b n =>
    if b.closed then s.hostRecord 0x0B 0 pa else (Served.pushes ⟨s, b, []⟩ d pa n).finish d pa (b.count = 0) Mark.plain

/-- A new HEAD of a block: the commit of the dequeues that it adds (R336). -/
def State.hostHead (s : State) (pa v : Nat) : State :=
  s.hostIndex pa (fun b => b.cmode = 2) QBlock.head QBlock.count v fun s d b n =>
    (Served.pops ⟨s, b, []⟩ d pa n).finish d pa false Mark.plain

/-- One event of a host write (R97): an aligned write of four bytes to TAIL or HEAD of a block is a commit (R336), any other stands in
memory, and the host then holds its line (R241). -/
def State.hostEvent (s : State) (pa n v : Nat) : State :=
  if n = 4 && pa % 64 = 4 && s.isBlock (pa - 4) then s.hostTail (pa - 4) v
  else if n = 4 && s.isBlock pa then s.hostHead pa v
  else ((s.hostWrite pa (toBytes n v)).hostHolds pa).checkHostBlocks s pa n

/-- HOST_TAIL_WRITE (R336). -/
def execHostTailWrite (pa : Nat) (v : Word) (s : State) : Res :=
  if s.outer.mgmt.mode = .minimal then .next s
  else if !hostReaches pa 4 then .fault (.unpopulated pa)
  else .next (if pa % 64 = 4 then s.hostTail (pa - 4) v.toNat
    else (alignedParts pa 4 4).foldl (fun s x => s.hostEvent x.1 x.2 (v.toNat / 2 ^ (8 * (x.1 - pa)))) s)

/-- HOST_HEAD_WRITE (R336). -/
def execHostHeadWrite (pa : Nat) (v : Word) (s : State) : Res :=
  if s.outer.mgmt.mode = .minimal then .next s
  else if !hostReaches pa 4 then .fault (.unpopulated pa)
  else .next (if pa % 64 = 0 then s.hostHead pa v.toNat
    else (alignedParts pa 4 4).foldl (fun s x => s.hostEvent x.1 x.2 (v.toNat / 2 ^ (8 * (x.1 - pa)))) s)

/-! ### Host accesses (R96, R241) -/

/-- One event of a host read (R97): the host then holds the line (R241). -/
def State.hostLook (s : State) (pa n : Nat) : State := if isHostPa pa then s else (s.touchRead (homeDie pa) pa n Mark.plain).hostHolds pa

/-- HOST_MEM_READ (R96): up to 8 bytes of host memory, or of device memory at the home image. -/
def execHostMemRead (pa n : Nat) (s : State) : Res :=
  if s.outer.mgmt.mode = .minimal then .next s
  else if !hostReaches pa n then .fault (.unpopulated pa)
  else
    let parts := alignedParts pa (min n 8) 8
    let s1 := parts.foldl (fun s x => s.hostLook x.1 x.2) s
    let v := BitVec.ofNat 64 (leNat (parts.flatMap fun x => s1.bytesAt (homeDie x.1) x.1 x.2))
    .next { s1 with outer := { s1.outer with mgmt := { s1.outer.mgmt with hostRd := s1.outer.mgmt.hostRd ++ [(pa, v)] } } }

/-- HOST_MEM_WRITE (R96): up to 8 bytes of host memory, or of device memory as writes of the home die. -/
def execHostMemWrite (pa n : Nat) (v : DWord) (s : State) : Res :=
  if s.outer.mgmt.mode = .minimal then .next s
  else if !hostReaches pa n then .fault (.unpopulated pa)
  else .next ((alignedParts pa (min n 8) 8).foldl (fun s x => s.hostEvent x.1 x.2 (v.toNat / 2 ^ (8 * (x.1 - pa)))) s)

/-- The write-backs that waited for a line of the host performed (R241). -/
def State.letGo (s : State) (line : Nat) : State :=
  let mine (h : HeldWrite) : Bool := h.pa / 64 * 64 = line
  ((s.mem.held.filter mine).foldl (fun s h => s.performSplit h.e.die h.pa h.bytes h.mark) s).modMem fun t =>
    { t with held := t.held.filter fun h => !mine h }

/-- BI_SNOOP_RESPONSE (R241): modified data is written back with the response; the host no longer holds the line, and what waited for it
is performed. -/
def execBiSnoopResponse (pa : Nat) (dirty : Option Data512) (s : State) : Res :=
  let line := pa / 64 * 64
  if s.outer.mgmt.mode = .minimal || !s.mem.snoops.contains line then .next s
  else
    let s1 := match dirty with
      | some d => s.hostWrite line (toBytes 64 d.toNat)
      | none => s
    .next ((s1.modMem fun t =>
      { t with snoops := t.snoops.filter (· != line), hostHas := t.hostHas.filter (· != line) }).letGo line)

end Sys2Proof.Machine
end

