-- ==== Sys2Proof/Machine/EvFault.lean ====
section
/-! DEFINITION. Fault records on their way (09_contexts.md R226, R227), soft errors and wring tests (24_faults_start.md R392 to
R394). -/

namespace Sys2Proof.Machine

/-! ### Fault queues (R227) -/

/-- A record as its bytes. -/
def FaultRec.bytes (r : FaultRec) : List Byte := r.words.flatMap fun w => toBytes 4 w.toNat

/-- A record with FLAGS bit 15: sent to the host. -/
def FaultRec.toHost (r : FaultRec) : List Word :=
  match r.words with
  | w :: rest => (w ||| 0x8000) :: rest
  | [] => []

/-- A record taken off the list. -/
def State.dropRecord (s : State) (r : FaultRec) : State :=
  { s with ctxs := { s.ctxs with records := s.ctxs.records.erase r } }

/-- A context whose fault queue cannot take a record is killed, and the record goes to the host (R227). -/
def State.recordToHost (s : State) (r : FaultRec) : State :=
  let s1 := (s.dropRecord r).postHost r.toHost
  if s1.ctxs.dying.contains r.ctx.toNat then s1 else s1.killCtx r.ctx.toNat

/-- FAULT_RECORD_POST (R227): the oldest record of a context is enqueued, or waits while the queue is full. -/
def execFaultRecordPost (ctx : Nat) (s : State) : Res :=
  match s.ctxs.records.find? fun r => r.ctx.toNat = ctx with
  | none => .next s
  | some r =>
    let c := s.desc r.die ctx
    if c.faultq = 0 then .next (s.recordToHost r)
    else match s.deviceEnq (.queue r.ctx.toNat) r.die r.ctx r.asid false c.faultq.toNat r.clock r.bytes with
      | (.done, s1) => .next (s1.dropRecord r)
      | (.later, s1) => .next s1
      | (.bad _ _ _, s1) => .next (s1.recordToHost r)

/-- Whether every item of a context is completed or reported failed (R226). -/
def State.ctxOver (s : State) (ctx : Nat) : Bool :=
  !(s.ctxs.records.any fun r => r.ctx.toNat = ctx) && !(s.ctxs.posts.any fun p => p.ctx.toNat = ctx) &&
  !(s.engs.cmds.any fun c => c.ctx.toNat = ctx && c.ended.isNone) && !(s.tasks.tasks.any fun t => t.ctx.toNat = ctx && t.held) &&
  !(s.tasks.regions.any fun g => g.ctx.toNat = ctx)

/-- CONTEXT_RETIRE (R226): the device clears V and invalidates the translations of the ASID as `tlbia` does. -/
def execContextRetire (ctx : Nat) (s : State) : Res :=
  if !s.ctxs.dying.contains ctx || !s.ctxOver ctx then .next s
  else
    let d := homeDie (s.descPa ctx)
    let asid := (s.desc d ctx).asid
    let s1 := (s.shoot asid 0 (2 ^ 57)).putDescState d ctx 0 false
    .next { s1 with ctxs := { s1.ctxs with dying := s1.ctxs.dying.filter (· != ctx), live := s1.ctxs.live.filter (· != ctx) } }

/-! ### Soft errors (R392) -/

/-- Whether a strand's operation touches the sector of an address. -/
def Op.meets (o : Op) (pa : Nat) : Bool := overlaps o.kind.range.1 o.kind.range.2 (pa / 64 * 64) 64

/-- Whether an engine command's translations cover an address. -/
def Cmd.meets (c : Cmd) (pa : Nat) : Bool :=
  c.ended.isNone && c.began && c.pages.any fun e => decide (leafFrame e.leaf ≤ pa) && decide (pa < leafFrame e.leaf + e.size)

/-- The strands whose accesses a unit serves. -/
def servesStrand (u : ErrUnit) (n : Nat) : Bool :=
  match u with
  | .l1 d c => dieOf n = d && coreOf n = d * 16 + c
  | .gateway d _ => dieOf n = d
  | _ => true

/-- The oldest item whose access met an uncorrected error in memory: a strand's operation, else a command. -/
def State.failAt (s : State) (u : ErrUnit) (pa : Nat) : State :=
  let ops := s.seqs.strands.flatMap fun p =>
    if servesStrand u p.1 then (p.2.ops.filter fun o => o.result.isNone && o.meets pa).map fun o => (p.1, o) else []
  let oldest := ops.foldl (fun (a : Option (Nat × Op)) x => match a with
    | none => some x
    | some y => if x.2.id < y.2.id then some x else some y) none
  match oldest with
  | some x => s.failOp x.1 x.2 0x16
  | none =>
    match s.engs.cmds.find? fun c => c.meets pa with
    | some c => s.failCmd c.id 0x16 flagPartial c.master.1 c.master.2 0 (BitVec.ofNat 64 pa)
    | none => s

/-- Whether an instruction in flight reads or writes the SRAM of its element. -/
def usesSram : Instr → Bool
  | .xld .. | .xst .. => true
  | .feld .. | .fest .. => true
  | .mrld _ => true
  | i => isSiteOp i

/-- The context of an element whose access met an uncorrected error fails (R166, R392); an M-element's region fails. -/
def State.failElem (s : State) (e : ElemId) (off : Nat) : State :=
  if isM e then s.elemFault e 0 0x16 0 off
  else
    let hit (c : Nat) : Bool := match ((s.elem e).pl.ctx c).fly with | some f => usesSram f.instr | none => false
    match (List.range 4).find? hit with
    | some c => s.elemFault e c 0x16 64 off
    | none => s

/-- The context of an element that met an uncorrected error in its plane fails (R392): one with an instruction in flight, else
context 0. -/
def State.failPlane (s : State) (e : ElemId) (addr : Nat) : State :=
  let busy (c : Nat) : Bool := ((s.elem e).pl.ctx c).fly.isSome
  s.elemFault e (((List.range 4).find? busy).getD 0) 0x16 0 addr

/-- The newest level that an element has saved fails, with its task once it thaws (R389, R392). -/
def State.failPleat (s : State) (e : ElemId) : State :=
  match s.levelsBelow e with
  | 0 => s
  | n + 1 => s.levelFault e 0 n 0x16 0

/-- The task of a die whose entry met an uncorrected error fails (R392): the one that the address names, else the oldest. -/
def State.failEntry (s : State) (d no : Nat) : State :=
  let ts := (s.table d).filter Task.open_
  match (ts.find? fun t => t.no = no).orElse fun _ => ts.head? with
  | some t => s.failTask t.no 0x16 0 0 0
  | none => s

/-- The word of an address that an uncorrected error has spoilt where a unit keeps it (R392): no access through the unit is given it
until a write has set it whole. -/
def State.spoil (s : State) (u : ErrUnit) (addr : Nat) : State :=
  match u with
  | .elem e => if addr < Config.scratchBytes then s.modElem e fun v => { v with spoilt := v.spoilt ++ [addr / 4 * 4] } else s
  | .sliceBank .. | .gateway .. | .l1 .. | .msu .. | .dram .. => s.modMem fun t => { t with poison := t.poison ++ [(u, addr / 4 * 4)] }
  | _ => s

/-- What is tested for an error of a unit (R393): planes and pleats with their element; rows of DRAM and tables are not tested. -/
def tested : ErrUnit → Option ErrUnit
  | .dram _ _ | .dispatcher _ => none
  | .plane e | .pleat e => some (.elem e)
  | u => some u

/-- A wring test of a unit made pending, or shared by another error (R393). -/
def State.pendWring (s : State) (unit : ErrUnit) (addr : Nat) : State :=
  match tested unit with
  | none => s
  | some u =>
    let w := s.outer.wrings
    let ws := if w.any fun x => x.unit = u then w.map fun x => if x.unit = u then { x with addrs := x.addrs ++ [addr] } else x
      else w ++ [⟨u, [addr], false⟩]
    { s with outer := { s.outer with wrings := ws } }

/-- SOFT_ERROR (R392, R393): a corrected error changes no visible state; an uncorrected one fails the item whose access met it, and
the word is spoilt. -/
def execSoftError (unit : ErrUnit) (corrected : Bool) (addr : Nat) (s : State) : Res :=
  let s1 := if corrected then s
    else (match unit with
      | .elem e => s.failElem e addr
      | .link _ => s
      | .plane e => s.failPlane e addr
      | .pleat e => s.failPleat e
      | .dispatcher d => s.failEntry d addr
      | _ => s.failAt unit addr).spoil unit addr
  .next (s1.pendWring unit addr)

/-! ### Wring tests (R393, R394) -/

/-- The lines of a slice bank, or of a unit of a die, written back to DRAM (R393). -/
def State.cleanUnit (s : State) (p : CacheLine → Bool) : State :=
  (s.mem.lines.filter p).foldl (fun s l => s.cleanRange l.line 256) s

/-- The lines of a slice bank dropped, once they are written back (R394). -/
def State.dropBank (s : State) (d k b : Nat) : State :=
  let mine (l : CacheLine) : Bool := l.die = d && l.unit = k && l.way / 4 = b
  (s.cleanUnit mine).modMem fun t => { t with lines := t.lines.filter fun l => !mine l }

/-- WRING_TEST (R393): an element's test begins once its region is neither RUNNING nor FROZEN, every other at once. -/
def execWringTest (idx : Nat) (s : State) : Res :=
  match s.outer.wrings[idx]? with
  | none => .next s
  | some w =>
    if w.running then .next s
    else
      let go (s : State) : State := { s with outer := { s.outer with wrings := s.outer.wrings.map fun x =>
        if x.unit = w.unit then { x with running := true } else x } }
      match w.unit with
      | .elem e =>
        (match s.regionOf e with
         | some g => if g.st = .running || g.st = .frozen then .next s else .next (go s)
         | none => .next (go s))
      | .sliceBank d k b => .next (go (s.cleanUnit fun l => l.die = d && l.unit = k && l.way / 4 = b))
      | .gateway d p =>
        let mine (l : CacheLine) : Bool := l.die = d && l.unit = 64 + p
        let s1 := s.cleanUnit mine
        .next (go (s1.modMem fun t => { t with lines := t.lines.filter fun l => !mine l }))
      | _ => .next (go s)

/-- MKIND, DIE and WHO of a unit in a record (R228, R394); caches have no kind of their own (log 20). -/
def unitMaster : ErrUnit → Nat × Nat × Nat
  | .elem e => (if isM e then 2 else 1, e.die, whoElem e)
  | .sliceBank d _ _ => (10, d, 0)
  | .gateway d _ => (10, d, 0)
  | .l1 d c => (0, d, c * 4)
  | .msu d u => (5, d, u)
  | .link k => (8, linkDie k, linkWho k)
  | .dram d u => (5, d, u)
  | .plane e | .pleat e => (if isM e then 2 else 1, e.die, whoElem e)
  | .dispatcher d => (6, d, 0)

/-- A unit fenced until the next start (R394). -/
def State.fenceUnit (s : State) (u : ErrUnit) : State :=
  let m := s.outer.mgmt
  match u with
  | .elem e =>
    (s.modElem e fun v => { v with st := .fenced }) |> fun s1 =>
      { s1 with outer := { s1.outer with mgmt := { m with fencedT := m.fencedT ++ [e] } } }
  | .sliceBank d k b => { s.dropBank d k b with outer := { s.outer with mgmt := { m with fencedB := m.fencedB ++ [(d, k, b)] } } }
  | .link k => s.fenceLink k
  | u => { s with outer := { s.outer with mgmt := { m with dead := m.dead ++ [u] } } }

/-- WRING_TEST_RESULT (R394): TRANSIENT, or LASTING with the unit fenced; one record for each error, to the host mailbox. -/
def execWringTestResult (idx : Nat) (pass : Bool) (s : State) : Res :=
  match s.outer.wrings[idx]? with
  | none => .next s
  | some w =>
    if !w.running then .next s
    else
      let s1 := { s with outer := { s.outer with wrings := s.outer.wrings.erase w } }
      let s2 := if pass then s1 else s1.fenceUnit w.unit
      let u := unitMaster w.unit
      .next (w.addrs.foldl (fun s a =>
        s.postHost (recordWords 0x16 (if pass then flagTransient else flagLasting) u.1 u.2.1 u.2.2 0 0 0 0 (BitVec.ofNat 64 a) 0)) s2)

end Sys2Proof.Machine
end

