-- ==== Sys2Proof/Machine/EvMangle.lean ====
section
/-! DEFINITION. Events of a sweep (21_mangle.md R354 to R366, R371, R372): tables, pages, partials, catch-up pages, the end
header and outputs. -/

namespace Sys2Proof.Machine

/-! ### Tables (R354 to R356, R369) -/

/-- A range read through a hem tile's TLB as an engine reads: its bytes, or the fault. -/
def State.readRange (s : State) (u : TlbUnit) (c : Cmd) (va n : Nat) : (List Byte ⊕ (Nat × Nat × Nat)) × State :=
  match s.rangePieces u c .read va n with
  | (.inr f, s1) => (.inr f, s1)
  | (.inl ps, s1) =>
    let s2 := ps.foldl (fun s p => s.touchRead (tlbDie u) p.1 p.2.1 (s.mark c.ctx 63 false p.2.2)) s1
    (.inl (ps.flatMap fun p => s2.bytesAt (tlbDie u) p.1 p.2.1), s2)

/-- n bytes at an offset as a number. -/
def numAt (bs : List Byte) (off n : Nat) : Nat := leNat ((bs.drop off).take n)

/-- The offset of the first reserved or illegal field of a sweep header (R354). -/
def badHeader (va : Nat) (h : List Byte) : Option Nat :=
  let w := numAt h 4 4
  if va % 64 != 0 || numAt h 0 4 = 0 || decide (65536 < numAt h 0 4) then some 0
  else if bitsOf w 31 20 != 0 || bitsOf w 15 8 != 0 || bitsOf w 7 0 = 0 || decide (160 < bitsOf w 7 0) then some 4
  else if numAt h 8 8 % 32 != 0 then some 8
  else if numAt h 16 8 % 16 != 0 then some 0x10
  else if (h.drop 0x18).any (· != 0) then some 0x18
  else none

/-- The offset of the first reserved or illegal field of a page entry (R355), given the indices before it. -/
def badEntry (before : List Nat) (e : List Byte) : Option Nat :=
  let w := numAt e 0x14 4
  if numAt e 0 8 % 32 != 0 then some 0
  else if numAt e 8 8 % 32 != 0 then some 8
  else if numAt e 0x10 4 = 0xFFFFFFFF || before.contains (numAt e 0x10 4) then some 0x10
  else if decide (256 < w) || decide (w < 4) then some 0x14
  else if numAt e 0x18 8 % 32 != 0 then some 0x18
  else none

/-- A page put in the ascending list. -/
def insertPage (p : SweepPage) : List SweepPage → List SweepPage
  | [] => [p]
  | x :: xs => if p.pindex < x.pindex then p :: x :: xs else x :: insertPage p xs

/-- The pages of a table, or the offset at fault. -/
def readEntries (va : Nat) (bs : List Byte) : List Nat → List Nat → List SweepPage → Nat ⊕ List SweepPage
  | [], _, ps => .inr ps
  | n :: ns, before, ps =>
    let e := (bs.drop (32 * n)).take 32
    match badEntry before e with
    | some off => .inl off
    | none =>
      readEntries va bs ns (numAt e 0x10 4 :: before) (insertPage
        { kaddr := numAt e 0 8, vaddr := numAt e 8 8, pindex := numAt e 0x10 4, ntok := numAt e 0x14 4, subs := numAt e 0x18 8,
          entry := va + 32 * n, snap := none, sent := false, toward := [], late := [] } ps)

/-- The offset of the first reserved or misaligned field of a query map entry (R356). -/
def badMap (e : List Byte) : Option Nat :=
  if bitsOf (numAt e 0 4) 16 0 != 0 then some 0
  else if numAt e 4 4 != 0 then some 4
  else if numAt e 8 8 % 32 != 0 then some 8
  else none

/-- The query of a map entry. -/
def queryOf (g : Region) (hdt q : Nat) (e : List Byte) : SweepQuery :=
  let w := numAt e 0 4
  let el : ElemId := ⟨g.die, g.row0 + bitsOf w 31 26, g.col0 + bitsOf w 25 19⟩
  let acc := accStart hdt
  { q := q, e := el, ctx := bitsOf w 18 17, out := numAt e 8 8, owner := ownerOf el, m := acc.1, l := acc.2.1, o := acc.2.2,
    merged := [], held := [], granted := [], part := [], written := false }

/-- The first query that the region cannot serve (R356): its element is outside or an M-element, or its owner has 64 already. -/
def badQuery (g : Region) : List SweepQuery → List SweepQuery → Option Nat
  | _, [] => none
  | before, x :: xs =>
    if !g.holds x.e || isM x.e || decide (64 ≤ (before.filter fun y => y.owner = x.owner).length) then some x.q
    else badQuery g (before ++ [x]) xs

/-- A table as the sweep units take it, or the code, DETAIL and address of the fault. -/
def State.readTable (s : State) (c : Cmd) (g : Region) (tile : Nat) (side : Side) (va : Nat) :
    ((Nat × Nat × Nat) ⊕ Sweep) × State :=
  let u : TlbUnit := .hem g.die side tile
  match s.readRange u c va 64 with
  | (.inr f, s1) => (.inl f, s1)
  | (.inl h, s1) =>
    match badHeader va h with
    | some off => (.inl (0x13, off, 0), s1)
    | none =>
      let hdt := bitsOf (numAt h 4 4) 19 16 + 1
      let nq := bitsOf (numAt h 4 4) 7 0
      match s1.readRange u c (numAt h 8 8) (32 * numAt h 0 4) with
      | (.inr f, s2) => (.inl f, s2)
      | (.inl es, s2) =>
        match readEntries (numAt h 8 8) es (List.range (numAt h 0 4)) [] [] with
        | .inl off => (.inl (0x13, off, 0), s2)
        | .inr pages =>
          match s2.readRange u c (numAt h 16 8) (16 * nq) with
          | (.inr f, s3) => (.inl f, s3)
          | (.inl ms, s3) =>
            let es := (List.range nq).map fun q => (ms.drop (16 * q)).take 16
            match es.findSome? badMap with
            | some off => (.inl (0x13, off, 0), s3)
            | none =>
              let qs := es.zipIdx.map fun x => queryOf g hdt x.2 x.1
              match badQuery g [] qs with
              | some q => (.inl (0x13, q + 65536, 0), s3)
              | none =>
                (.inr { cmd := c.id, die := g.die, region := g.id, level := g.levels.length, port := (tile, side), hdt := hdt,
                        pages := pages, queries := qs, queue := [], endSent := false, ended := false, written := 0, on := true }, s3)

/-- A sweep command taken up (R215, R365, R369): it has the units of its die. A region violation of its table pauses it (R225). -/
def State.takeSweep (s : State) (c : Cmd) (table : Nat) (target : DWord) : State :=
  let g? := (s.bound c.strand).filter fun g => (s.seenAs c.strand g).2 = c.ctx
  let side : Side := if target.getLsbD 5 then .east else .west
  let pair := field target 4 0
  let tile := ((g?.map fun g => g.row0 / 2).getD 0 + pair) % 32
  let who := (if side = .east then 32 else 0) + tile
  let fail (s : State) (code det addr : Nat) : State := s.failCmd c.id code 0 7 who det (BitVec.ofNat 64 addr)
  match g? with
  | none => fail s 0x1C 0 0
  | some g =>
    if (s.seenAs c.strand g).1 != .running || 4 * g.trows ≤ 2 * pair then fail s 0x1C 0 0
    else if field target 63 6 != 0 then fail s 0x13 0 0
    else if (if side = .west then g.tcol != 0 else g.tcol + g.tcols != 20) then fail s 0x1C 32 0
    else match s.readTable c g tile side table with
      | (.inl f, s1) =>
        if f.1 = noFault then s.retry s1
        else if f.1 = 0x09 then s1.violateCmd c 7 who f.2.1 f.2.2
        else fail s1 f.1 f.2.1 f.2.2
      | (.inr w, s1) =>
        let s2 := s1.modCmd c.id fun c => { c with began := true, unit := g.die * 64 }
        let off (x : Sweep) : Sweep := if x.die = w.die then { x with on := false } else x
        { s2 with engs := { s2.engs with sweeps := (s2.engs.sweeps.filter s2.sweepLive).map off ++ [w] } }

/-- The units of a die given, once they are free, to a sweep whose level has thawed, or to the next command (R365). -/
def State.giveUnits (s : State) (die : Nat) (next : Option (Cmd × Nat × DWord)) : State :=
  match s.engs.sweeps.find? fun w => w.die = die && s.sweepUp w with
  | some w => s.modSweep w.cmd fun v => { v with on := true }
  | none => match next with
    | some (c, table, target) => s.takeSweep c table target
    | none => s

/-- The sweep command of a die that may be taken up next. -/
def State.nextSweep (s : State) (die : Nat) : Option (Cmd × Nat × DWord) :=
  s.engs.cmds.findSome? fun c => match c.kind with
    | .sweep table target => if c.die = die && !c.began && s.mayBegin c && !s.behind c then some (c, table, target) else none
    | _ => none

/-! ### Pages (R357, R358, R360, R371) -/

/-- A header token (R358): lanes 1 and 2, the bitmap, and whether it is the end header, which carries tag 3 (R371). -/
def headerToken (pindex w2 : Nat) (bits : BitVec 160) (last : Bool) : Token :=
  ⟨lanes fun l =>
    if l = 0 then (if last then 0x10011000 else 0x10010000)
    else if l = 1 then BitVec.ofNat 32 pindex
    else if l = 2 then BitVec.ofNat 32 w2
    else bits.extractLsb' (32 * (l - 3)) 32, if last then 3 else 0, true⟩

/-- The tokens of a page (R357, R358): its header, then for each key its K tokens, tag 1, and its V tokens, tag 2 (R371). -/
def pageTokens (p : SweepPage) (hdt : Nat) (bits : BitVec 160) (catchUp : Bool) (k v : List Byte) : List Token :=
  let body (bs : List Byte) (j : Nat) (tag : BitVec 3) : List Token :=
    (List.range hdt).map fun i => tokenOf (bs.drop (32 * (hdt * j + i))) tag
  headerToken p.pindex (p.ntok + if catchUp then 2 ^ 31 else 0) bits false ::
    (List.range p.ntok).flatMap fun j => body k j 1 ++ body v j 2

/-- Bits of a list of queries. -/
def bitsFor (qs : List Nat) : BitVec 160 := qs.foldl (fun a q => a ||| BitVec.ofNat 160 (2 ^ q)) 0

/-- A fault during a sweep (R366); a region violation pauses the command instead (R225). -/
def State.sweepFault (s : State) (w : Sweep) (f : Nat × Nat × Nat) : State :=
  match s.cmd w.cmd with
  | none => s
  | some c => if f.1 = noFault then s else if f.1 = 0x09 then s.violateCmd c 7 w.who f.2.1 f.2.2 else s.endSweep w f.1 none f.2.2

/-- A page fetched for some queries and put at the port, every entry granted (R357, R360): a page with its header bits. -/
def State.fetchPage (s : State) (w : Sweep) (c : Cmd) (p : SweepPage) (qs : List Nat) (bits : BitVec 160) (catchUp : Bool) : State :=
  let u := unitTlb w.die p.unit
  let n := 32 * w.hdt * p.ntok
  match s.readRange u c p.kaddr n with
  | (.inr f, s1) => if f.1 = noFault then s.retry s1 else s1.sweepFault w f
  | (.inl k, s1) =>
    match s1.readRange u c p.vaddr n with
    | (.inr f, s2) => if f.1 = noFault then s.retry s2 else s2.sweepFault w f
    | (.inl v, s2) =>
      let toks := pageTokens p w.hdt bits catchUp k v
      let mark (x : SweepPage) : SweepPage := if x.pindex = p.pindex then
          { x with sent := true, toward := x.toward ++ qs, late := x.late.filter fun q => !qs.contains q } else x
      let grant (x : SweepQuery) : SweepQuery := if qs.contains x.q then { x with granted := x.granted ++ [p.pindex] } else x
      s2.modSweep w.cmd fun v => s2.mergeAll { v with pages := v.pages.map mark, queries := v.queries.map grant,
                                                      queue := v.queue ++ toks.map fun t => ⟨t, s.cycle⟩ }

/-- Whether a sweep's units may fetch: its port has sent what it was given, and no freeze spreads (R365). -/
def State.mayFetch (s : State) (w : Sweep) : Bool :=
  w.queue.isEmpty && !w.endSent && (match s.region w.region with | some g => g.wave.isNone && !g.ending | none => false)

/-- The page that a unit sends next in its main pass (R357). -/
def Sweep.next (w : Sweep) (unit : Nat) : Option SweepPage := w.pages.find? fun p => p.unit = unit && !p.sent

/-- The queries of a sweep in a snapshot. -/
def Sweep.among (w : Sweep) (bits : BitVec 160) : List Nat := (w.queries.filter fun x => bits.getLsbD x.q).map SweepQuery.q

/-- A page whose snapshot stands asks its owners for an entry for each subscriber, and is sent if all are granted (R360). -/
def State.askPage (s : State) (w : Sweep) (c : Cmd) (p : SweepPage) (bits : BitVec 160) : State :=
  let qs := w.among bits
  if s.grants w p qs then s.fetchPage w c p qs bits false else s

/-- The snapshot of a page kept (R360). -/
def State.keepSnapshot (s : State) (w : Sweep) (p : SweepPage) (bits : BitVec 160) : State :=
  s.modSweep w.cmd fun v => s.mergeAll { v with pages := v.pages.map fun x =>
    if x.pindex = p.pindex then { x with snap := some bits } else x }

/-- PAGE_SEND (R357, R360): a unit reads the bitmap of its next page once, obtains an entry for each subscriber, and sends the page;
on a refusal it holds no grant and asks again. With no sweep in possession of its die's units, the next takes them. -/
def execPageSend (die unit : Nat) (s : State) : Res :=
  match s.sweepOn die with
  | none => .next (if (s.sweepHeld die).isNone then s.giveUnits die (s.nextSweep die) else s)
  | some w =>
    match s.cmd w.cmd, w.next unit with
    | some c, some p =>
      if !s.mayFetch w then .next s
      else match p.snap with
        | some bits => .next (s.askPage w c p bits)
        | none =>
          match s.readBitmap c w p with
          | (.inr f, s1) => .next (if f.1 = noFault then s.retry s1 else s1.sweepFault w f)
          | (.inl bits, s1) =>
            let s2 := s1.keepSnapshot w p bits
            (match s2.engs.sweeps.find? fun v => v.cmd = w.cmd with
             | some w2 => .next (s2.askPage w2 c { p with snap := some bits } bits)
             | none => .next s2)
    | _, _ => .next s

/-- Whether a unit's main pass has ended or is stalled by a refusal (R362). -/
def State.mainStalled (s : State) (w : Sweep) (unit : Nat) : Bool :=
  match w.next unit with
  | none => true
  | some p => (match p.snap with | some bits => !s.grants w p (w.among bits) | none => false)

/-- CATCHUP_FETCH (R362): a unit fetches once more the first of its pages with late subscribers whose entries are granted. -/
def execCatchupFetch (die unit : Nat) (s : State) : Res :=
  match s.sweepOn die with
  | none => .next s
  | some w =>
    match s.cmd w.cmd with
    | none => .next s
    | some c =>
      if !s.mayFetch w || !s.mainStalled w unit then .next s
      else match w.pages.find? fun p => p.unit = unit && p.sent && !p.late.isEmpty && s.grants w p p.late with
        | some p => .next (s.fetchPage w c p p.late (bitsFor p.late) true)
        | none => .next s

/-! ### Partials (R359, R361) -/

/-- A partial whose tokens have all arrived (R359, R372): refused with the element's coordinates, or given its entry and merged
when its turn comes. -/
def State.takePartial (s : State) (w : Sweep) (e : ElemId) (ts : List Token) : State :=
  let head (l : Nat) : Word := ((ts[0]?.map fun t => laneOf t.data l)).getD 0
  let p := (head 2).toNat
  let q := (head 3).toNat
  let ok := (w.queries.any fun x => x.q = q && x.e = e && !(x.merged.any fun m => m.1 = p) && !(x.held.any fun h => h.1 = p)) &&
    w.pages.any fun y => y.pindex = p && y.toward.contains q
  if !ok then s.endSweep w 0x13 (some (whoElem e)) 0
  else
    let o := (ts.drop 1).flatMap fun t => (List.range 8).map (laneOf t.data)
    let hold (x : SweepQuery) : SweepQuery := if x.q = q then { x with held := x.held ++ [(p, head 0, head 1, o)] } else x
    s.modSweep w.cmd fun v => s.mergeAll { v with queries := v.queries.map hold }

/-- A token of a partial at its owner: groups of HDT + 1 from one o1 (R359). -/
def State.takePart (s : State) (w : Sweep) (e : ElemId) (ts : List Token) : State :=
  let got := ((w.queries.find? fun x => x.e = e).map SweepQuery.part).getD [] ++ ts
  let full : Bool := got.length = w.hdt + 1
  let set (x : SweepQuery) : SweepQuery := if x.e = e then { x with part := if full then [] else got } else x
  let w1 := { w with queries := w.queries.map set }
  let s1 := s.modSweep w.cmd fun _ => w1
  if full then s1.takePartial w1 e got else s1

/-- PARTIAL_ARRIVAL (R359): the packet of a number, when it carries a partial's token. -/
def execPartialArrival (die idx : Nat) (s : State) : Res :=
  match s.fab.packets[idx]? with
  | none => .next s
  | some p =>
    match p.load with
    | .partial_ _ ts =>
      if p.dst.die != die || s.cycle < p.due || !s.packetFirst p then .next s
      else
        let s1 := { s with fab := { s.fab with packets := s.fab.packets.erase p } }
        let mine (w : Sweep) : Bool := s1.sweepLive w && w.level = p.lvl && (s1.elem p.dst).region = some w.region
        (match s1.engs.sweeps.find? mine with
         | some w => .next (s1.takePart w p.dst ts)
         | none => .next s1)
    | _ => .next s

/-! ### The end (R363) -/

/-- Outputs of complete queries written after the end header; the sweep ends when all are (R363, R369). -/
def State.finishSweep (s : State) (w : Sweep) (c : Cmd) : State :=
  match s.writeOutputs false c w w.queries with
  | (some f, s1) =>
    if f.1 = noFault then s1
    else (match s1.engs.sweeps.find? fun v => v.cmd = w.cmd with
     | some v => s1.sweepFault v f
     | none => s1)
  | (none, s1) =>
    match s1.engs.sweeps.find? fun v => v.cmd = w.cmd with
    | some v => if v.written < v.queries.length then s1 else
        ((s1.modSweep v.cmd fun v => { v with ended := true }).modCmd v.cmd fun c => { c with count := v.written }).endCmd v.cmd 0
    | none => s1

/-- END_HEADER_SEND (R358, R363): after every main pass and every catch-up fetch; then the outputs. -/
def execEndHeaderSend (die : Nat) (s : State) : Res :=
  match s.sweepOn die with
  | none => .next s
  | some w =>
    match s.cmd w.cmd with
    | none => .next s
    | some c =>
      if s.mayFetch w && w.pages.all (fun p => p.sent && p.late.isEmpty) then
        .next (s.modSweep w.cmd fun v =>
          { v with queue := [⟨headerToken 0xFFFFFFFF (2 ^ 30) 0 true, s.cycle⟩], endSent := true })
      else if w.endSent && w.queue.isEmpty then .next (s.finishSweep w c)
      else .next s

end Sys2Proof.Machine
end

