-- ==== Sys2Proof/Machine/EvSeq.lean ====
section
/-! DEFINITION. Events of the strands: completions (08_sequencer.md R188 to R191, R201; 04_ordering.md R89), walks
(10_pages.md R244), shootdowns (R248), asynchronous events (R200) and the ends of `idle` and `yield` (09_contexts.md R230). -/

namespace Sys2Proof.Machine

/-! ### Operations and commands -/

/-- LOAD_COMPLETE (R188): a load, an atomic or another operation of class LD writes its destination and leaves its class. -/
def execLoadComplete (strand ev : Nat) (s : State) : Res :=
  match s.op strand ev with
  | none => .next s
  | some o =>
    match o.result with
    | none => .next s
    | some v =>
      if s.opDone (dieOf strand) o then
        .next ((s.setStrand strand ((s.strand strand).setReg o.dst v)).dropOp strand ev)
      else .next s

/-- A command removed. -/
def State.dropCmd (s : State) (id : Nat) : State :=
  { s with engs := { s.engs with cmds := s.engs.cmds.filter fun c => c.id != id } }

/-- A handle whose command has ended reads done or fault, with its count; an IDLE strand sees it (R191, R230). -/
def State.finishHandle (s : State) (c : Cmd) (code : Nat) : State :=
  let t := s.strand c.strand
  let end_ (h : Handle) : Handle :=
    if h.cmd = c.id && h.st = .busy then { h with st := if code = 0 then .done else .fault, code := code, count := c.count } else h
  s.setStrand c.strand { t with handles := t.handles.map end_, woken := t.woken || t.run = .idle }

/-- HANDLE_COMPLETE (R89): once the command has ended, its record is queued and its writes stand in the image of the strand's
die, its handle reads done or fault; with no path left by which those writes could come it reads LINK_DOWN (R378). The command of a
bank task ends the task (R309). -/
def execHandleComplete (cmd : Nat) (s : State) : Res :=
  match s.cmd cmd with
  | none => .next s
  | some c =>
    match c.ended with
    | none => .next s
    | some code =>
      let die := if c.slot.isSome then dieOf c.strand else c.die
      if s.ctxs.records.any (fun r => r.cmd = cmd) then .next s
      else if !(c.writes.all fun w => s.appliedOn die w) then
        (if s.reach (c.unit / 64) die != .lost then .next s
         else
           let s1 := s.modCmd cmd fun c => { c with ended := if code = 0 then none else some code }
           .next ((s1.failCmd cmd 0x17 0 c.master.1 c.master.2 0 0).modCmd cmd fun c => { c with writes := [] }))
      else if c.slot.isSome then .next ((s.finishHandle c code).dropCmd cmd)
      else match s.tasks.tasks.find? fun t => t.bank = some cmd with
        | some t => .next ((s.beginRetire t.no code).dropCmd cmd)
        | none => .next (s.dropCmd cmd)

/-- LATE_ECC_TRAP (R201): before its next issue the strand traps with LATE and the code of the failure, ECC_UNCORRECTED, or
LINK_DOWN for an operation that a link lost. -/
def execLateEccTrap (strand : Nat) (s : State) : Res :=
  let t := s.strand strand
  match t.late with
  | none => .next s
  | some (code, addr, info) =>
    .next ((s.setStrand strand { t with late := none }).trapAt strand t.pc (BitVec.ofNat 64 (0x2000 + code)) (BitVec.ofNat 64 addr)
      info)

/-! ### Walks (R244) -/

/-- A walk's result given to one that waited for it: a strand uses it at issue, a `pref` fetches the lines of its page's part
(R213), any other finds it when it takes its step again. -/
def State.hand (s : State) (w : Walk) (res : WalkResult) (who : Waiter × TlbUnit) : State :=
  match who.1 with
  | .strand n => s.setStrand n { s.strand n with walked := some res }
  | .pref _ user task va n =>
    (match s.withWalk who.2 res .read user task va n with
     | .ok pa e => s.fetchLines w.die (BitVec.ofNat 10 w.ctx) pa n (pageAttr e)
     | _ => s)
  | k => { s with seqs := { s.seqs with answers := s.seqs.answers ++ [(k, res, s.cycle)] } }

/-- A walk's result given to those that waited for it; their translation caches are filled. -/
def State.giveWalk (s : State) (w : Walk) (r : TlbEntry ⊕ Nat) : State :=
  let res : WalkResult := match r with
    | .inl e => ⟨w.asid, w.va / 65536, some e, 0⟩
    | .inr m => ⟨w.asid, w.va / 65536, none, m⟩
  let s1 := w.waiters.foldl (fun s x => s.hand w res x) s
  match r with
  | .inl e => ((w.waiters.map Prod.snd).eraseDups).foldl (fun s u => s.tlbFill u e) s1
  | .inr _ => s1

/-- A walk that has ended leaves the merger of its die; the oldest request that waits there begins. -/
def State.endWalk (s : State) (w : Walk) : State :=
  let rest := s.seqs.walks.erase w
  match s.seqs.queued.find? fun q => q.die = w.die with
  | some q =>
    let next : Walk := { q with due := s.cycle + 1 + Config.latency s.serial }
    { s with seqs := { s.seqs with walks := rest ++ [next], queued := s.seqs.queued.erase q }, serial := s.serial + 1 }
  | none => { s with seqs := { s.seqs with walks := rest } }

/-- WALK_COMPLETE (R221, R235 to R238, R244): a walk of a die, by its place among the walks. -/
def execWalkComplete (die idx : Nat) (s : State) : Res :=
  match s.seqs.walks[idx]? with
  | none => .next s
  | some w =>
    if w.die != die || decide (s.cycle < w.due) then .next s
    else
      let s1 := (s.readDesc die w.ctx).2
      .next ((s1.endWalk w).giveWalk w (s1.walk die (BitVec.ofNat 10 w.ctx) w.asid w.va))

/-! ### Shootdowns (R248) -/

/-- SHOOTDOWN_ACK (R248): the drain of a strand's shootdown has ended; buffers filled meanwhile under old entries go too. -/
def execShootdownAck (strand : Nat) (s : State) : Res :=
  let t := s.strand strand
  match t.progress with
  | some ⟨ev, clock, 2, before, [range, space]⟩ =>
    let id := BitVec.ofNat 16 space.va
    if s.drained id range.va range.n before.toNat then
      let s1 := s.tasks.regions.foldl (fun s g => s.dropAll g fun _ x => x.asid = id && overlaps x.va 64 range.va range.n) s
      .next (s1.setStrand strand { s1.strand strand with progress := some ⟨ev, clock, 3, before, []⟩ })
    else .next s
  | _ => .next s

/-! ### Asynchronous events, `idle` and `yield` -/

/-- ECAUSE of an asynchronous event: bit 15 with the event's code (R197). -/
def asyncCause (code : Nat) : DWord := BitVec.ofNat 64 (0x8000 + code)

/-- The event of a route class taken (R383, R386): its packet's slot is marked, and the class's mask is set. -/
def State.takeClass (s : State) (die klass : Nat) (addr : DWord) : State :=
  let mark (r : RecvSlot) : RecvSlot := if r.die = die && r.klass = klass && r.addr = addr.toNat then { r with taken := true } else r
  let old := lookupD s.routes.masks die 0
  { s with routes := { s.routes with slots := s.routes.slots.map mark,
                                     masks := insertD s.routes.masks die (old ||| BitVec.ofNat 16 (2 ^ klass)) } }

/-- ASYNC_EVENT_TAKE (R200): the oldest pending event of a supervisor strand with AE set is taken between two instructions;
EPC is the next instruction to issue. -/
def execAsyncEventTake (strand : Nat) (s : State) : Res :=
  let t := s.strand strand
  if !s.takable strand then .next s
  else match t.events with
    | [] => .next s
    | e :: rest =>
      let s1 := s.setStrand strand { (t.enter s.cycle t.pc (asyncCause e.code) 0 e.info) with events := rest, worker := false }
      match e.klass with
      | some c => .next (s1.takeClass (dieOf strand) c e.info)
      | none => .next s1

/-- Whether an IDLE strand wakes (R230): an event is pending or an operation has completed; a free worker only for an event
that it can take (R313). -/
def State.wakes (s : State) (n : Nat) : Bool :=
  let t := s.strand n
  t.run = .idle && (if t.worker then s.takable n else !t.events.isEmpty || t.woken)

/-- IDLE_WAKE (R230, R313): an IDLE strand returns to RUNNING; a worker leaves the pool. -/
def execIdleWake (strand : Nat) (s : State) : Res :=
  if s.wakes strand then
    .next (s.setStrand strand { s.strand strand with run := .running, worker := false, woken := false })
  else .next s

/-- YIELD_TIMEOUT (R230): a yielding strand is ready again after 4 cycles. -/
def execYieldTimeout (strand : Nat) (s : State) : Res :=
  let t := s.strand strand
  match t.yieldTo with
  | some (deadline, _) => if deadline ≤ s.cycle then .next (s.setStrand strand { t with yieldTo := none }) else .next s
  | none => .next s

end Sys2Proof.Machine
end

