-- ==== Sys2Proof/Machine/EvStart.lean ====
section
/-! DEFINITION. The start of the module, its management and its event log (24_faults_start.md R395 to R400). -/

namespace Sys2Proof.Machine

/-- The management part changed. -/
def State.modMgmt (s : State) (f : Mgmt → Mgmt) : State := { s with outer := { s.outer with mgmt := f s.outer.mgmt } }

/-- Every key slot erased (R399). -/
def State.eraseKeys (s : State) : State := { s with ctxs := { s.ctxs with keys := [] } }

/-- Why an image may not run (R396, R398): the REASON of the first check that fails, or 0. -/
def imageReason (f : FirmwareImage) (floor : Nat) : Nat :=
  if !f.ecdsaOk then 1 else if !f.lmsOk then 2 else if !f.formOk then 3 else if f.version < floor then 4 else 0

/-- Whether a unit may fail its test without failing the start (R395): an element, a slice bank or a stitch link. -/
def unitSpared : ErrUnit → Bool
  | .elem _ => true
  | .sliceBank _ _ _ => true
  | .link k => decide (k < 18)
  | _ => false

/-- REASON of a start with some input, or 0 when its stages 1 to 3 pass (R395, R398). -/
def startReason (i : StartInput) (floor : Nat) : Nat :=
  if imageReason i.image floor != 0 then imageReason i.image floor
  else if i.otherFail || !(i.badUnits.all unitSpared) then 5
  else if !i.hbmOk then 6
  else if !i.pairsOk then 7
  else 0

/-- The machine as a start finds it: as after reset, but for host memory and what is kept in non-volatile storage (R397). -/
def State.restarted (s : State) : State :=
  let m := s.outer.mgmt
  let r := State.reset
  { r with mem := { r.mem with host := s.mem.host },
           outer := { r.outer with mgmt := { Mgmt.reset with fails := m.fails, floor := m.floor, reason := m.reason } } }

/-- A failed start: counted, with its REASON; every key slot is erased (R397 to R399). -/
def State.startFails (s : State) (reason : Nat) : State :=
  (s.restarted.eraseKeys).modMgmt fun m => { m with fails := min 3 (m.fails + 1), reason := BitVec.ofNat 8 reason }

/-- The units that failed their test fenced (R394, R395); a stitch link is FENCED and does not train. -/
def State.fenceAtStart (s : State) (u : ErrUnit) : State :=
  match u with
  | .elem e =>
    let s1 := s.modElem e fun v => { v with st := .fenced }
    s1.modMgmt fun m => { m with fencedT := m.fencedT ++ [e] }
  | .sliceBank d k b => s.modMgmt fun m => { m with fencedB := m.fencedB ++ [(d, k, b)] }
  | .link k => (s.setLink { s.link k with st := .fenced }).linkRecord k flagLasting
  | _ => s

/-- The links of the module: stitch links, the host port, and one for each pair of dies (R375). -/
def allLinks : List Nat :=
  List.range 19 ++ (List.range 8).flatMap fun d => ((List.range 8).filter fun e => decide (d < e)).map fun e => pairLink d e

/-- MODULE_START (R395, R397): stages 1 to 3, with training begun on every link; a count of 3 enters minimal mode. -/
def execModuleStart (img : StartInput) (s : State) : Res :=
  let s0 := s.restarted
  if 3 ≤ s0.outer.mgmt.fails then .next (s0.eraseKeys.modMgmt fun m => { m with mode := .minimal, diesUp := 1 })
  else if startReason img s0.outer.mgmt.floor != 0 then .next (s0.startFails (startReason img s0.outer.mgmt.floor))
  else
    let s1 := img.badUnits.foldl State.fenceAtStart s0
    let s2 := allLinks.foldl (fun s k =>
      let l := s.link k
      if l.st = .down then s.setLink { l with st := .training } else s) s1
    .next (s2.modMgmt fun m => { m with diesUp := 0xFF })

/-- Whether a start is under way: its units are up and MODE is starting. -/
def State.starting (s : State) : Bool := s.outer.mgmt.mode = .starting && s.outer.mgmt.diesUp != 0

/-- Whether training is over and every two dies reach each other (R395). -/
def State.trained (s : State) : Bool :=
  allLinks.all (fun k => (s.link k).st != .training && (s.link k).st != .down) &&
    (List.range 8).all fun d => (List.range 8).all fun e => s.reach d e = .open_

/-- Whether two dies can have neither a port nor a relay between them: of each way, a port has left service (R378, R395). -/
def State.apart (s : State) (d e : Nat) : Bool :=
  d != e && (s.link (pairLink d e)).out &&
    (List.range 8).all fun f => f = d || f = e || (s.link (pairLink d f)).out || (s.link (pairLink f e)).out

/-- LINK_TRAINING_FAILURE (R377): the third in a row makes the link FAILED; one that leaves two dies of a module that starts with no path
fails the start (R395). -/
def execLinkTrainingFailure (link : Nat) (s : State) : Res :=
  let l := s.link link
  if !isLink link || !(l.st = .training || l.st = .retraining) then .next s
  else
    let s1 := s.trainingFails link
    .next (if s1.starting && (List.range 8).any fun d => (List.range 8).any fun e => s1.apart d e then s1.startFails 7 else s1)

/-- START_RUNNING (R395, R397): stage 4; the count of failed starts is cleared. -/
def execStartRunning (s : State) : Res :=
  if s.starting && s.trained then .next (s.modMgmt fun m => { m with mode := .running, fails := 0 }) else .next s

/-- START_WATCHDOG (R395). -/
def execStartWatchdog (s : State) : Res := if s.starting then .next (s.startFails 8) else .next s

/-- FIRMWARE_UPDATE (R397): an update that passes R396 clears the count. -/
def execFirmwareUpdate (img : FirmwareImage) (s : State) : Res :=
  if imageReason img s.outer.mgmt.floor = 0 then .next (s.modMgmt fun m => { m with fails := 0 }) else .next s

/-- An answer of the steward over DOE. -/
def State.reply (s : State) (ws : List Word) : State :=
  { s with serial := s.serial + 1 }.modMgmt fun m => { m with replies := m.replies ++ [ws] }

/-- GET_MEASUREMENTS (R399): the ROM, the firmware and the fuse state, whose measurements are free values (log 7), then START. -/
def execGetMeasurements (s : State) : Res :=
  let start := s.bar0 0x10
  .next (s.reply [Config.measurement (4 * s.serial), Config.measurement (4 * s.serial + 1), Config.measurement (4 * s.serial + 2),
    start.extractLsb' 0 32, start.extractLsb' 32 32])

/-- KEY_LOAD (R399): only in a session. Each load puts a key of its own into the slot, in place of one that is there (log 80). -/
def execKeyLoad (slot : Nat) (s : State) : Res :=
  if !s.outer.mgmt.session || decide (1023 < slot) then .next s
  else .next { s with ctxs := { s.ctxs with keys := s.ctxs.keys.filter (fun k => k.1 != slot) ++ [(slot, s.serial)] }, serial := s.serial + 1 }

/-- KEY_ERASE (R399). -/
def execKeyErase (slot : Nat) (s : State) : Res :=
  if !s.outer.mgmt.session then .next s
  else .next { s with ctxs := { s.ctxs with keys := s.ctxs.keys.filter fun k => k.1 != slot } }

/-- EVENT_LOG_READ (R400): the records, and last the count of those not kept. -/
def execEventLogRead (s : State) : Res :=
  .next (s.modMgmt fun m => { m with logRead := m.log ++ if m.lost = 0 then [] else [[BitVec.ofNat 32 m.lost]] })

/-- SPDM_SESSION_REQUEST (R399): the steward answers in every mode; a request that sets a session up opens it, and one that uses a
session is answered only within one. -/
def execSpdmSessionRequest (secured : Bool) (s : State) : Res :=
  if secured && !s.outer.mgmt.session then .next s
  else .next ((s.reply [Config.measurement (4 * s.serial + 3)]).modMgmt fun m => { m with session := true })

end Sys2Proof.Machine
end

