-- ==== Sys2Proof/Machine/SeqBarrier.lean ====
section
/-! DEFINITION. Barrier instructions of a strand (17_barriers.md R337 to R342). -/

namespace Sys2Proof.Machine

/-- When an arrival commits (R338): the home die covers the clock of the request, and with scope group or dev every die
does, as `fence.rel.dev` waits (R91). -/
def State.arrivalReady (s : State) (pa : Nat) (c : Clock) : Bool :=
  let b := s.bword (homeDie pa) pa
  s.releasing pa c && (!(b.scope = 1 || b.scope = 3) || s.devCovers c)

/-- The step of `binit` (R342, R340 row 1): the set-up checked, then host memory, then the word opened and its parked
waiters released with BARPOISON. -/
def State.binitAt (s : State) (set : DWord) (x : Span) : State × Option Delivered :=
  let count := field set 20 0
  if count = 0 || decide (1048576 < count) || field set 63 26 != 0 || field set 23 21 != 0 then (s, plain 1)
  else if isHostPa x.pa then (s, plain 2)
  else
    let h := homeDie x.pa
    let s1 := (s.releaseAll x.pa (fun w => w.side = .barrier) 0x0C 0).endPhase x.pa
    (s1.putBword h x.pa ⟨0, count, 0, h * 4 + field set 25 24⟩ (s.spanMark x), plain 0)

/-- `binit` (R342): a releasing step. -/
def execBinit (q : Issue) (d a b : GReg) (s : State) : Res :=
  s.objectStep q d a [b] 16 true State.releasing fun s1 x => s1.binitAt (s1.cur.reg b) x

/-- What an arrival's answer comes to when the form does not wait: the phase, or the fault. -/
def arrivalResult : BAns → Option Delivered
  | .phase p _ => plain (BitVec.ofNat 64 p)
  | .poisoned c => some (.failed 0x0C c)
  | .perm => some (.failed 0x08 16)

/-- The arrival of the acting strand at a word. -/
def State.strandArrives (s : State) (x : Span) : State × BAns := s.arrive (.strand s.focus.strand) 0 x.pa (s.spanMark x)

/-- The step of `barr` (R342). -/
def State.barrAt (s : State) (x : Span) : State × Option Delivered :=
  let r := s.strandArrives x
  (r.1, arrivalResult r.2)

/-- `barr` (R342): a release. -/
def execBarr (q : Issue) (d a : GReg) (s : State) : Res :=
  s.objectStep q d a [] 16 true State.arrivalReady State.barrAt

/-- The acting strand parked at a barrier for the end of a phase, to be given a value (R342). -/
def State.parkBarrier (s : State) (x : Span) (p : Nat) (v : DWord) : State :=
  s.park ⟨.strand s.focus.strand, x.pa, .barrier, 0, [], BitVec.ofNat 32 p, 0, v, 0, s.spanMark x⟩

/-- The step of `bwait` (R342): a phase already past completes at once, acquiring the completions before the step. -/
def State.bwaitAt (s : State) (awaited : DWord) (x : Span) : State × Option Delivered :=
  let b := s.bword (homeDie x.pa) x.pa
  if !b.sound x.pa then (s.poison x.pa 0 (s.spanMark x), some (.failed 0x0C 0))
  else if b.poisoned then (s, some (.failed 0x0C b.pcode))
  else if b.phase = field awaited 31 0 then
    (s.parkBarrier x b.phase (BitVec.ofNat 64 ((b.phase + 1) % 2 ^ 32)), none)
  else (s, s.acquiring x.pa (BitVec.ofNat 64 b.phase))

/-- `bwait` (R342): it acquires and releases nothing. -/
def execBwait (q : Issue) (d a b : GReg) (s : State) : Res :=
  s.objectStep q d a [b] 16 false State.relaxed fun s1 x => s1.bwaitAt (s1.cur.reg b) x

/-- The step of `barw` (R342): the arrival, and the wait for its phase to end. -/
def State.barwAt (s : State) (x : Span) : State × Option Delivered :=
  match s.strandArrives x with
  | (s1, .phase p clock) =>
    if (s1.bword (homeDie x.pa) x.pa).phase = p then (s1.parkBarrier x p (BitVec.ofNat 64 p), none)
    else (s1, some (.value (BitVec.ofNat 64 p) [] (some clock)))
  | (s1, r) => (s1, arrivalResult r)

/-- `barw` (R342): a release, and an acquire of the phase's completion. -/
def execBarw (q : Issue) (d a : GReg) (s : State) : Res :=
  s.objectStep q d a [] 16 true State.arrivalReady State.barwAt

/-- The word that `bquery` returns (R342). -/
def BWord.queryWord (b : BWord) : DWord :=
  BitVec.ofNat 64 (b.poisoned.toNat * 2 ^ 63 + b.scope * 2 ^ 61 + b.pcode * 2 ^ 53 + b.arrived % 2 ^ 21 * 2 ^ 32 + b.phase)

/-- The step of `bquery` (R342): an unsound word is poisoned and then read. -/
def State.bqueryAt (s : State) (x : Span) : State × Option Delivered :=
  let h := homeDie x.pa
  let s1 := if (s.bword h x.pa).sound x.pa then s else s.poison x.pa 0 (s.spanMark x)
  (s1, plain (s1.bword h x.pa).queryWord)

/-- `bquery` (R342): relaxed. -/
def execBquery (q : Issue) (d a : GReg) (s : State) : Res :=
  s.objectStep q d a [] 16 false State.relaxed State.bqueryAt

/-- The step of `bpoison` (R342): code 0 answers 1, a word already poisoned answers 2. -/
def State.bpoisonAt (s : State) (code : Nat) (x : Span) : State × Option Delivered :=
  let h := homeDie x.pa
  let m := s.spanMark x
  let s0 := if code != 0 && !(s.bword h x.pa).sound x.pa then s.poison x.pa 0 m else s
  let v := fun (s : State) (n : DWord) => (s, s.acquiring x.pa n)
  if code = 0 then v s0 1
  else if (s0.bword h x.pa).poisoned then v s0 2
  else v (s0.poison x.pa code m) 0

/-- `bpoison` (R342): an acquiring and releasing step (R95). -/
def execBpoison (q : Issue) (d a b : GReg) (s : State) : Res :=
  s.objectStep q d a [b] 16 true State.releasing fun s1 x => s1.bpoisonAt (field (s1.cur.reg b) 7 0) x

end Sys2Proof.Machine
end

