-- ==== Sys2Proof/Machine/SeqBranch.lean ====
section
/-! DEFINITION. Branches, jumps, hardware loops and the handle test (08_sequencer.md R192, R205 to R208). -/

namespace Sys2Proof.Machine

/-- The address of the acting strand's instruction plus an offset in words (R54). -/
def State.target {w : Nat} (s : State) (off : BitVec w) : DWord := s.cur.pc + off.signExtend 64 * 4

/-- A conditional branch (R205): taken to its offset, leaving loops (R207), or falling through. -/
def State.branch (s : State) (q : Issue) (off : BitVec 13) (taken : Bool) : Res :=
  if taken then .next (s.goto q (s.target off) true id) else .next (s.done q 4 id)

/-- A jump that links (R205): a target not aligned to a word traps MISALIGN with gD unchanged; D = 0 leaves loops. -/
def State.jumpLink (s : State) (q : Issue) (d : GReg) (len : Nat) (target : DWord) : Res :=
  if target.extractLsb' 0 2 != 0 then .next (s.trap 0x03 target 0)
  else .next (s.goto q target (d = 0) fun t => t.result s.cycle 1 d (t.pc + BitVec.ofNat 64 len))

/-- `jal` (R205). -/
def execJal (q : Issue) (d : GReg) (off : BitVec 18) (s : State) : Res := s.jumpLink q d 4 (s.target off)

/-- `jall` (R205, R210): links address + 8. -/
def execJall (q : Issue) (d : GReg) (off : BitVec 45) (s : State) : Res := s.jumpLink q d 8 (s.target off)

/-- `jalr` (R205): the target from gA before the link is written. -/
def execJalr (q : Issue) (d a : GReg) (imm : BitVec 13) (s : State) : Res :=
  s.jumpLink q d 4 (s.cur.reg a + imm.signExtend 64)

/-- The condition of `beq` (R205): a = b. -/
def condBeq (x y : DWord) : Bool := x == y

/-- `beq` (R205): taken when a = b. -/
def execBeq (q : Issue) (a b : GReg) (off : BitVec 13) (s : State) : Res :=
  s.branch q off (condBeq (s.cur.reg a) (s.cur.reg b))

/-- The condition of `bne` (R205): a ≠ b. -/
def condBne (x y : DWord) : Bool := x != y

/-- `bne` (R205): taken when a ≠ b. -/
def execBne (q : Issue) (a b : GReg) (off : BitVec 13) (s : State) : Res :=
  s.branch q off (condBne (s.cur.reg a) (s.cur.reg b))

/-- The condition of `blt` (R205): sa < sb. -/
def condBlt (x y : DWord) : Bool := x.slt y

/-- `blt` (R205): taken when sa < sb. -/
def execBlt (q : Issue) (a b : GReg) (off : BitVec 13) (s : State) : Res :=
  s.branch q off (condBlt (s.cur.reg a) (s.cur.reg b))

/-- The condition of `bge` (R205): sa ≥ sb. -/
def condBge (x y : DWord) : Bool := !x.slt y

/-- `bge` (R205): taken when sa ≥ sb. -/
def execBge (q : Issue) (a b : GReg) (off : BitVec 13) (s : State) : Res :=
  s.branch q off (condBge (s.cur.reg a) (s.cur.reg b))

/-- The condition of `bltn` (R205): za < zb. -/
def condBltn (x y : DWord) : Bool := x.ult y

/-- `bltn` (R205): taken when za < zb. -/
def execBltn (q : Issue) (a b : GReg) (off : BitVec 13) (s : State) : Res :=
  s.branch q off (condBltn (s.cur.reg a) (s.cur.reg b))

/-- The condition of `bgen` (R205): za ≥ zb. -/
def condBgen (x y : DWord) : Bool := !x.ult y

/-- `bgen` (R205): taken when za ≥ zb. -/
def execBgen (q : Issue) (a b : GReg) (off : BitVec 13) (s : State) : Res :=
  s.branch q off (condBgen (s.cur.reg a) (s.cur.reg b))

/-- Whether the word at an address of the acting strand is the first of a long instruction (R206); `none` while its
page is walked. An address that cannot be fetched counts as a short one (log 14). -/
def State.longAt (s : State) (va : DWord) : Option Bool :=
  match s.curTranslate .fetch va.toNat 4 with
  | .ok pa _ => some (decide ((s.valAt s.curDie pa 4 >>> 23) % 64 = 0x3F))
  | .miss => none
  | .bad _ _ => some false

/-- `loop` (R206): with a zero count the strand continues after END; else the entry is pushed, or the instruction traps
LOOPDEPTH with four entries active. OFF below 1 traps ILLEGAL. -/
def execLoop (q : Issue) (a : GReg) (off : BitVec 13) (s : State) : Res :=
  let t := s.cur
  let n : BitVec 32 := (t.reg a).setWidth 32
  let last := s.target off
  if off.toInt < 1 then .next s.trapIllegal
  else if n = 0 then
    match s.longAt last with
    | none => .next (s.curWalk last.toNat)
    | some long =>
      let r := loopBack t.pc t.lbase t.loops.reverse
      let next := r.1.getD (last + if long then 8 else 4)
      .next ((s.setCur { t.advance s.cycle q 4 with pc := next }).issued q)
  else if t.ldepth ≥ 4 then .next (s.trap 0x0D 0 0)
  else .next (s.done q 4 fun t => { t with loops := t.loops ++ [⟨n, t.pc + 4, last⟩] })

/-- Whether a condition of `btst` holds for a handle value on the acting strand (R191, R192). -/
def State.handleIs (s : State) (v : DWord) (c : HandleCond) : Bool :=
  let st := (s.cur.lookupHandle s.focus.strand v).map Handle.st
  match c with
  | .busy => st = some .busy
  | .done => st = some .done
  | .fault => st = some .fault
  | .notBusy => st != some .busy

/-- `btst` (R192): branches on the state of a handle in the issue cycle. -/
def execBtst (q : Issue) (a : GReg) (cond : HandleCond) (off : BitVec 13) (s : State) : Res :=
  s.branch q off (s.handleIs (s.cur.reg a) cond)

end Sys2Proof.Machine
end

