-- ==== Sys2Proof/Machine/SeqMangle.lean ====
section
/-! DEFINITION. `subscr`, `unsub`, `sweep` and `swait` (21_mangle.md R366 to R370). -/

namespace Sys2Proof.Machine

/-! ### `subscr` and `unsub` (R368) -/

/-- A sweep told of a step on the bitmap of a page whose entry stands at an address (R362, R366). -/
def State.toldOf (s : State) (asid : BitVec 16) (entry q : Nat) (on : Bool) (w : Sweep) : Sweep :=
  let sees : Bool := s.sweepLive w && !w.endSent && s.engs.cmds.any fun c => c.id = w.cmd && c.asid = asid
  if !sees then w
  else
    let note (p : SweepPage) : SweepPage :=
      match p.snap with
      | none => p
      | some m =>
        if p.entry != entry then p
        else if !on then { p with late := p.late.filter (· != q) }
        else if m.getLsbD q || p.toward.contains q || p.late.contains q || !(w.queries.any fun x => x.q = q) then p
        else { p with late := p.late ++ [q] }
    s.mergeAll { w with pages := w.pages.map note }

/-- The step on bit q of a bitmap at its home (R368): the status, and the home's clock after it, which the strand acquires. -/
def State.bitmapStep (s : State) (x : Span) (entry q : Nat) (on : Bool) : State × Delivered :=
  let h := if isHostPa x.pa then s.curDie else homeDie x.pa
  let pa := x.pa + q / 8
  let m := s.spanMark x
  let old := s.byteAt h pa
  let new : Byte := if on then old ||| BitVec.ofNat 8 (2 ^ (q % 8)) else old &&& ~~~(BitVec.ofNat 8 (2 ^ (q % 8)))
  let s1 := (if m.ms then s else s.touchRead h pa 1 m).putObject h pa [new] m
  let s2 := { s1 with engs := { s1.engs with sweeps := s1.engs.sweeps.map (s1.toldOf s.cur.asid entry q on) } }
  (s2, .value (if old = new then 2 else 0) [] (if isHostPa x.pa then none else some (s2.clock h)))

/-- The step commits once the home of the bitmap and, at scope dev, every die covers the clock of the request (R91, R94). -/
def State.commitSubscription (s : State) (q : Issue) (on : Bool) (d a b : GReg) (p : Progress) : Res :=
  s.onObject a p fun x _ =>
    if s.devCovers p.clock then
      let r := s.bitmapStep x (s.cur.reg a).toNat (s.cur.reg b).toNat on
      r.1.recvObject q d a r.2
    else .next s.stall

/-- `subscr` and `unsub` (R368): the page entry is read once the events before it have performed. -/
def State.subscription (s : State) (q : Issue) (on : Bool) (d a b : GReg) : Res :=
  match s.cur.got with
  | some r => s.recvObject q d a r
  | none =>
    match s.cur.progress with
    | some p => s.commitSubscription q on d a b p
    | none =>
      let x := s.cur.reg a
      if s.cur.awaits a || s.cur.awaits b then .next s.stall
      else if x.toNat % 32 != 0 then .next (s.trap 0x03 x 0)
      else s.spanOf .read x.toNat 32 x fun e =>
        match s.ownedIn e.page e.pa 32 with
        | some line => .next (s.snoop line)
        | none =>
          if !s.objectDeps [e] false then .next s.stall
          else s.blockOf (s.dwordAt s.curDie (e.pa + 0x18)) 32 fun bits =>
            if 159 < (s.cur.reg b).toNat then .next (s.done q 4 fun t => t.result s.cycle 1 d 1)
            else (s.touchRead s.curDie e.pa 32 (s.spanMark e)).beginObject x [bits] true fun s1 p => s1.commitSubscription q on d a b p

/-- `subscr` (R368). -/
def execSubscr (q : Issue) (d a b : GReg) (s : State) : Res := s.subscription q true d a b

/-- `unsub` (R368). -/
def execUnsub (q : Issue) (d a b : GReg) (s : State) : Res := s.subscription q false d a b

/-! ### `sweep` and `swait` (R369, R370) -/

/-- `sweep` (R369): the sweep units read and check the table when the region takes the command up. -/
def execSweep (q : Issue) (d a b : GReg) (s : State) : Res :=
  s.command q d [a, b] .tl (.sweep (s.cur.reg a).toNat (s.cur.reg b)) false [((s.cur.reg a).toNat, 64, .read)]

/-- The word that `swait` writes for a handle that is not busy: WRITTEN and CODE (R370). -/
def Handle.sweepWord (h : Handle) : DWord := BitVec.ofNat 64 (h.count % 65536 * 256 + h.code % 256)

/-- `swait` (R370): the handle is read at issue; a handle reads done or fault only when the strand's die holds the writes of its
command (R89). -/
def execSwait (q : Issue) (d a : GReg) (s : State) : Res :=
  let t := s.cur
  if t.awaits a then .next s.stall
  else
    let none_ : DWord := 0xFF
    match t.lookupHandle s.focus.strand (t.reg a) with
    | none => .next (s.done q 4 fun t => t.result s.cycle 1 d none_)
    | some h =>
      if h.st = .busy then .next s.stall
      else match h.kind with
        | .sweep _ _ => .next (s.done q 4 fun t => t.result s.cycle 1 d h.sweepWord)
        | _ => .next (s.done q 4 fun t => t.result s.cycle 1 d none_)

end Sys2Proof.Machine
end

