-- ==== Sys2Proof/Machine/Dispatch.lean ====
section
/-! DEFINITION. The meaning of every instruction and event: one arm per constructor, one direct call each. -/

namespace Sys2Proof.Machine

/-- The outcome of an instruction or an event. -/
def exec (i : Instr) (s : State) : Host.Outcome State Fault Refusal :=
  match i with
  | .add q d a b => Sys2Proof.Machine.execAdd q d a b s
  | .sub q d a b => Sys2Proof.Machine.execSub q d a b s
  | .and q d a b => Sys2Proof.Machine.execAnd q d a b s
  | .or q d a b => Sys2Proof.Machine.execOr q d a b s
  | .xor q d a b => Sys2Proof.Machine.execXor q d a b s
  | .andn q d a b => Sys2Proof.Machine.execAndn q d a b s
  | .shl q d a b => Sys2Proof.Machine.execShl q d a b s
  | .shr q d a b => Sys2Proof.Machine.execShr q d a b s
  | .sha q d a b => Sys2Proof.Machine.execSha q d a b s
  | .min q d a b => Sys2Proof.Machine.execMin q d a b s
  | .max q d a b => Sys2Proof.Machine.execMax q d a b s
  | .minn q d a b => Sys2Proof.Machine.execMinn q d a b s
  | .maxn q d a b => Sys2Proof.Machine.execMaxn q d a b s
  | .slt q d a b => Sys2Proof.Machine.execSlt q d a b s
  | .sltn q d a b => Sys2Proof.Machine.execSltn q d a b s
  | .mul q d a b => Sys2Proof.Machine.execMul q d a b s
  | .mulh q d a b => Sys2Proof.Machine.execMulh q d a b s
  | .mulhn q d a b => Sys2Proof.Machine.execMulhn q d a b s
  | .div q d a b => Sys2Proof.Machine.execDiv q d a b s
  | .divn q d a b => Sys2Proof.Machine.execDivn q d a b s
  | .rem q d a b => Sys2Proof.Machine.execRem q d a b s
  | .remn q d a b => Sys2Proof.Machine.execRemn q d a b s
  | .clz q d a => Sys2Proof.Machine.execClz q d a s
  | .popc q d a => Sys2Proof.Machine.execPopc q d a s
  | .home q d a => Sys2Proof.Machine.execHome q d a s
  | .addi q d a imm => Sys2Proof.Machine.execAddi q d a imm s
  | .andi q d a imm => Sys2Proof.Machine.execAndi q d a imm s
  | .ori q d a imm => Sys2Proof.Machine.execOri q d a imm s
  | .xori q d a imm => Sys2Proof.Machine.execXori q d a imm s
  | .slti q d a imm => Sys2Proof.Machine.execSlti q d a imm s
  | .sltni q d a imm => Sys2Proof.Machine.execSltni q d a imm s
  | .shli q d a imm => Sys2Proof.Machine.execShli q d a imm s
  | .shri q d a imm => Sys2Proof.Machine.execShri q d a imm s
  | .shai q d a imm => Sys2Proof.Machine.execShai q d a imm s
  | .lui q d imm => Sys2Proof.Machine.execLui q d imm s
  | .jal q d off => Sys2Proof.Machine.execJal q d off s
  | .jalr q d a imm => Sys2Proof.Machine.execJalr q d a imm s
  | .beq q a b off => Sys2Proof.Machine.execBeq q a b off s
  | .bne q a b off => Sys2Proof.Machine.execBne q a b off s
  | .blt q a b off => Sys2Proof.Machine.execBlt q a b off s
  | .bge q a b off => Sys2Proof.Machine.execBge q a b off s
  | .bltn q a b off => Sys2Proof.Machine.execBltn q a b off s
  | .bgen q a b off => Sys2Proof.Machine.execBgen q a b off s
  | .loop q a off => Sys2Proof.Machine.execLoop q a off s
  | .btst q a cond off => Sys2Proof.Machine.execBtst q a cond off s
  | .ld q d a off sz ord => Sys2Proof.Machine.execLd q d a off sz ord s
  | .ldn q d a off sz ord => Sys2Proof.Machine.execLdn q d a off sz ord s
  | .st q d a off sz ord => Sys2Proof.Machine.execSt q d a off sz ord s
  | .aadd q d a b scope dbl => Sys2Proof.Machine.execAadd q d a b scope dbl s
  | .aand q d a b scope dbl => Sys2Proof.Machine.execAand q d a b scope dbl s
  | .aor q d a b scope dbl => Sys2Proof.Machine.execAor q d a b scope dbl s
  | .axor q d a b scope dbl => Sys2Proof.Machine.execAxor q d a b scope dbl s
  | .amin q d a b scope dbl => Sys2Proof.Machine.execAmin q d a b scope dbl s
  | .amax q d a b scope dbl => Sys2Proof.Machine.execAmax q d a b scope dbl s
  | .aminn q d a b scope dbl => Sys2Proof.Machine.execAminn q d a b scope dbl s
  | .amaxn q d a b scope dbl => Sys2Proof.Machine.execAmaxn q d a b scope dbl s
  | .aswap q d a b scope dbl => Sys2Proof.Machine.execAswap q d a b scope dbl s
  | .acas q d a b scope dbl => Sys2Proof.Machine.execAcas q d a b scope dbl s
  | .afadd q d a b scope => Sys2Proof.Machine.execAfadd q d a b scope s
  | .abfadd2 q d a b scope => Sys2Proof.Machine.execAbfadd2 q d a b scope s
  | .fence q scope kind => Sys2Proof.Machine.execFence q scope kind s
  | .wait q ld st cp tl bk => Sys2Proof.Machine.execWait q ld st cp tl bk s
  | .clean q a b => Sys2Proof.Machine.execClean q a b s
  | .inval q a b => Sys2Proof.Machine.execInval q a b s
  | .flush q a b => Sys2Proof.Machine.execFlush q a b s
  | .discard q a b => Sys2Proof.Machine.execDiscard q a b s
  | .pref q a b => Sys2Proof.Machine.execPref q a b s
  | .enq q a b => Sys2Proof.Machine.execEnq q a b s
  | .tenq q d a b => Sys2Proof.Machine.execTenq q d a b s
  | .deq q d a b => Sys2Proof.Machine.execDeq q d a b s
  | .tdeq q d a b c => Sys2Proof.Machine.execTdeq q d a b c s
  | .qinit q d a => Sys2Proof.Machine.execQinit q d a s
  | .qstat q d a => Sys2Proof.Machine.execQstat q d a s
  | .qdrain q d a b => Sys2Proof.Machine.execQdrain q d a b s
  | .binit q d a b => Sys2Proof.Machine.execBinit q d a b s
  | .barr q d a => Sys2Proof.Machine.execBarr q d a s
  | .bwait q d a b => Sys2Proof.Machine.execBwait q d a b s
  | .barw q d a => Sys2Proof.Machine.execBarw q d a s
  | .bquery q d a => Sys2Proof.Machine.execBquery q d a s
  | .bpoison q d a b => Sys2Proof.Machine.execBpoison q d a b s
  | .launch q d a => Sys2Proof.Machine.execLaunch q d a s
  | .tdone q a => Sys2Proof.Machine.execTdone q a s
  | .tstat q d a => Sys2Proof.Machine.execTstat q d a s
  | .cfgld q d a b c => Sys2Proof.Machine.execCfgld q d a b c s
  | .place q d a b => Sys2Proof.Machine.execPlace q d a b s
  | .cfgdrop q d a => Sys2Proof.Machine.execCfgdrop q d a s
  | .gcall q d a b => Sys2Proof.Machine.execGcall q d a b s
  | .gret q d => Sys2Proof.Machine.execGret q d s
  | .strm q d a b => Sys2Proof.Machine.execStrm q d a b s
  | .strmw q d a b => Sys2Proof.Machine.execStrmw q d a b s
  | .strmc q d a => Sys2Proof.Machine.execStrmc q d a s
  | .copy q d a b c => Sys2Proof.Machine.execCopy q d a b c s
  | .fill q d a b c => Sys2Proof.Machine.execFill q d a b c s
  | .bfadd q d a b c => Sys2Proof.Machine.execBfadd q d a b c s
  | .bfmul q d a b c => Sys2Proof.Machine.execBfmul q d a b c s
  | .iadd32 q d a b c => Sys2Proof.Machine.execIadd32 q d a b c s
  | .fadd32 q d a b c => Sys2Proof.Machine.execFadd32 q d a b c s
  | .bfmax q d a b c => Sys2Proof.Machine.execBfmax q d a b c s
  | .rowcp q d a b c => Sys2Proof.Machine.execRowcp q d a b c s
  | .rowzero q d a b => Sys2Proof.Machine.execRowzero q d a b s
  | .subscr q d a b => Sys2Proof.Machine.execSubscr q d a b s
  | .unsub q d a b => Sys2Proof.Machine.execUnsub q d a b s
  | .sweep q d a b => Sys2Proof.Machine.execSweep q d a b s
  | .swait q d a => Sys2Proof.Machine.execSwait q d a s
  | .pksend q d a b c => Sys2Proof.Machine.execPksend q d a b c s
  | .cmask q d a => Sys2Proof.Machine.execCmask q d a s
  | .cunmask q d a => Sys2Proof.Machine.execCunmask q d a s
  | .nop q => Sys2Proof.Machine.execNop q s
  | .eret q => Sys2Proof.Machine.execEret q s
  | .halt q => Sys2Proof.Machine.execHalt q s
  | .idle q => Sys2Proof.Machine.execIdle q s
  | .yield q => Sys2Proof.Machine.execYield q s
  | .tlbi q d a b => Sys2Proof.Machine.execTlbi q d a b s
  | .tlbia q d => Sys2Proof.Machine.execTlbia q d s
  | .freeze q d a b => Sys2Proof.Machine.execFreeze q d a b s
  | .thaw q d a b => Sys2Proof.Machine.execThaw q d a b s
  | .kill q d a b => Sys2Proof.Machine.execKill q d a b s
  | .ctxsw q d a => Sys2Proof.Machine.execCtxsw q d a s
  | .csrr q d csr => Sys2Proof.Machine.execCsrr q d csr s
  | .csrw q d a csr => Sys2Proof.Machine.execCsrw q d a csr s
  | .csrs q d a csr => Sys2Proof.Machine.execCsrs q d a csr s
  | .csrc q d a csr => Sys2Proof.Machine.execCsrc q d a csr s
  | .phase q a => Sys2Proof.Machine.execPhase q a s
  | .evsch q a b => Sys2Proof.Machine.execEvsch q a b s
  | .trap q code => Sys2Proof.Machine.execTrap q code s
  | .limm q d imm => Sys2Proof.Machine.execLimm q d imm s
  | .ldl q d a off => Sys2Proof.Machine.execLdl q d a off s
  | .stl q d a off => Sys2Proof.Machine.execStl q d a off s
  | .jall q d off => Sys2Proof.Machine.execJall q d off s
  | .eNop a b => Sys2Proof.Machine.execENop a b s
  | .mov f => Sys2Proof.Machine.execMov f s
  | .movi d imm => Sys2Proof.Machine.execMovi d imm s
  | .movhi f => Sys2Proof.Machine.execMovhi f s
  | .iadd f => Sys2Proof.Machine.execIadd f s
  | .isub f => Sys2Proof.Machine.execIsub f s
  | .iadds f => Sys2Proof.Machine.execIadds f s
  | .isubs f => Sys2Proof.Machine.execIsubs f s
  | .imul f => Sys2Proof.Machine.execImul f s
  | .imulh f => Sys2Proof.Machine.execImulh f s
  | .imulhn f => Sys2Proof.Machine.execImulhn f s
  | .imad f => Sys2Proof.Machine.execImad f s
  | .imin f => Sys2Proof.Machine.execImin f s
  | .imax f => Sys2Proof.Machine.execImax f s
  | .nmin f => Sys2Proof.Machine.execNmin f s
  | .nmax f => Sys2Proof.Machine.execNmax f s
  | .iabs f => Sys2Proof.Machine.execIabs f s
  | .eAnd f => Sys2Proof.Machine.execEAnd f s
  | .eOr f => Sys2Proof.Machine.execEOr f s
  | .eXor f => Sys2Proof.Machine.execEXor f s
  | .eAndn f => Sys2Proof.Machine.execEAndn f s
  | .eShl f => Sys2Proof.Machine.execEShl f s
  | .eShr f => Sys2Proof.Machine.execEShr f s
  | .eSha f => Sys2Proof.Machine.execESha f s
  | .sel f => Sys2Proof.Machine.execSel f s
  | .iaddi f => Sys2Proof.Machine.execIaddi f s
  | .eAndi f => Sys2Proof.Machine.execEAndi f s
  | .eShli f => Sys2Proof.Machine.execEShli f s
  | .eShri f => Sys2Proof.Machine.execEShri f s
  | .ePopc f => Sys2Proof.Machine.execEPopc f s
  | .eClz f => Sys2Proof.Machine.execEClz f s
  | .idot4 f => Sys2Proof.Machine.execIdot4 f s
  | .fadd f => Sys2Proof.Machine.execFadd f s
  | .fsub f => Sys2Proof.Machine.execFsub f s
  | .fmul f => Sys2Proof.Machine.execFmul f s
  | .ffma f => Sys2Proof.Machine.execFfma f s
  | .fmin f => Sys2Proof.Machine.execFmin f s
  | .fmax f => Sys2Proof.Machine.execFmax f s
  | .fabs f => Sys2Proof.Machine.execFabs f s
  | .fneg f => Sys2Proof.Machine.execFneg f s
  | .bfadd2 f => Sys2Proof.Machine.execBfadd2 f s
  | .bfmul2 f => Sys2Proof.Machine.execBfmul2 f s
  | .bffma2 f => Sys2Proof.Machine.execBffma2 f s
  | .bfdot2 f => Sys2Proof.Machine.execBfdot2 f s
  | .hadd2 f => Sys2Proof.Machine.execHadd2 f s
  | .hmul2 f => Sys2Proof.Machine.execHmul2 f s
  | .hfma2 f => Sys2Proof.Machine.execHfma2 f s
  | .fscale f => Sys2Proof.Machine.execFscale f s
  | .icmp f => Sys2Proof.Machine.execIcmp f s
  | .fcmp f => Sys2Proof.Machine.execFcmp f s
  | .pset pd v => Sys2Proof.Machine.execPset pd v s
  | .pand pd pa pb na nb => Sys2Proof.Machine.execPand pd pa pb na nb s
  | .por pd pa pb na nb => Sys2Proof.Machine.execPor pd pa pb na nb s
  | .pxor pd pa pb na nb => Sys2Proof.Machine.execPxor pd pa pb na nb s
  | .pnot pd pa => Sys2Proof.Machine.execPnot pd pa s
  | .pmov pd pa mode => Sys2Proof.Machine.execPmov pd pa mode s
  | .cvtF32I32 f => Sys2Proof.Machine.execCvtF32I32 f s
  | .cvtI32F32 f => Sys2Proof.Machine.execCvtI32F32 f s
  | .cvtBf16F32 f => Sys2Proof.Machine.execCvtBf16F32 f s
  | .cvtF32Bf16 f => Sys2Proof.Machine.execCvtF32Bf16 f s
  | .cvtE4m3F32 f => Sys2Proof.Machine.execCvtE4m3F32 f s
  | .cvtE5m2F32 f => Sys2Proof.Machine.execCvtE5m2F32 f s
  | .cvtE2m1F32 f => Sys2Proof.Machine.execCvtE2m1F32 f s
  | .cvtF32E4m3 f => Sys2Proof.Machine.execCvtF32E4m3 f s
  | .cvtF32E5m2 f => Sys2Proof.Machine.execCvtF32E5m2 f s
  | .cvtF32E2m1 f => Sys2Proof.Machine.execCvtF32E2m1 f s
  | .cvtI8F32 f => Sys2Proof.Machine.execCvtI8F32 f s
  | .cvtF32I8 f => Sys2Proof.Machine.execCvtF32I8 f s
  | .sclx f => Sys2Proof.Machine.execSclx f s
  | .cvtF16F32 f => Sys2Proof.Machine.execCvtF16F32 f s
  | .cvtF32F16 f => Sys2Proof.Machine.execCvtF32F16 f s
  | .exp2 f => Sys2Proof.Machine.execExp2 f s
  | .log2 f => Sys2Proof.Machine.execLog2 f s
  | .rcp f => Sys2Proof.Machine.execRcp f s
  | .rsqrt f => Sys2Proof.Machine.execRsqrt f s
  | .sqrt f => Sys2Proof.Machine.execSqrt f s
  | .rstat f => Sys2Proof.Machine.execRstat f s
  | .rmerge d a pd pm => Sys2Proof.Machine.execRmerge d a pd pm s
  | .lred f => Sys2Proof.Machine.execLred f s
  | .lscan f => Sys2Proof.Machine.execLscan f s
  | .lperm f => Sys2Proof.Machine.execLperm f s
  | .lbcast f => Sys2Proof.Machine.execLbcast f s
  | .lshift f => Sys2Proof.Machine.execLshift f s
  | .sld d site a sz sx => Sys2Proof.Machine.execSld d site a sz sx s
  | .sst site a b sz => Sys2Proof.Machine.execSst site a b sz s
  | .satm aop d site a b => Sys2Proof.Machine.execSatm aop d site a b s
  | .spf site a b => Sys2Proof.Machine.execSpf site a b s
  | .scln site a b => Sys2Proof.Machine.execScln site a b s
  | .sinv site a b => Sys2Proof.Machine.execSinv site a b s
  | .xld d a sz sx => Sys2Proof.Machine.execXld d a sz sx s
  | .xst a b sz => Sys2Proof.Machine.execXst a b sz s
  | .feld take d a sz => Sys2Proof.Machine.execFeld take d a sz s
  | .fest a b sz => Sys2Proof.Machine.execFest a b sz s
  | .feclr a b => Sys2Proof.Machine.execFeclr a b s
  | .eenq t f b tg => Sys2Proof.Machine.execEenq t f b tg s
  | .edeq t f tg => Sys2Proof.Machine.execEdeq t f tg s
  | .ebar na f tg => Sys2Proof.Machine.execEbar na f tg s
  | .mrld at_ => Sys2Proof.Machine.execMrld at_ s
  | .emit kt d a tg => Sys2Proof.Machine.execEmit kt d a tg s
  | .hdr d a b tg => Sys2Proof.Machine.execHdr d a b tg s
  | .drop page a b => Sys2Proof.Machine.execDrop page a b s
  | .lgen lane d pr tg => Sys2Proof.Machine.execLgen lane d pr tg s
  | .lgb a pr => Sys2Proof.Machine.execLgb a pr s
  | .wsplit half d a tg => Sys2Proof.Machine.execWsplit half d a tg s
  | .wjoin half d a k => Sys2Proof.Machine.execWjoin half d a k s
  | .ordt skip d site tg => Sys2Proof.Machine.execOrdt skip d site tg s
  | .ptake a => Sys2Proof.Machine.execPtake a s
  | .pgive d tg => Sys2Proof.Machine.execPgive d tg s
  | .eGcall f => Sys2Proof.Machine.execEGcall f s
  | .eGret => Sys2Proof.Machine.execEGret s
  | .etrap go a code => Sys2Proof.Machine.execEtrap go a code s
  | .ehalt load => Sys2Proof.Machine.execEhalt load s
  | .queueOpCancel p => Sys2Proof.Machine.execQueueOpCancel p s
  | .firingComplete e ctx => Sys2Proof.Machine.execFiringComplete e ctx s
  | .siteFillArrival e ctx => Sys2Proof.Machine.execSiteFillArrival e ctx s
  | .chainTurn e ctx => Sys2Proof.Machine.execChainTurn e ctx s
  | .directoryForward region => Sys2Proof.Machine.execDirectoryForward region s
  | .spreadUpdateApply region => Sys2Proof.Machine.execSpreadUpdateApply region s
  | .routerForward buf => Sys2Proof.Machine.execRouterForward buf s
  | .rowPacketDelivery die idx => Sys2Proof.Machine.execRowPacketDelivery die idx s
  | .elementClockGate e => Sys2Proof.Machine.execElementClockGate e s
  | .elementPowerGate e => Sys2Proof.Machine.execElementPowerGate e s
  | .elementWake e => Sys2Proof.Machine.execElementWake e s
  | .weightLatch e => Sys2Proof.Machine.execWeightLatch e s
  | .rowAssembly e => Sys2Proof.Machine.execRowAssembly e s
  | .mrowFire e => Sys2Proof.Machine.execMrowFire e s
  | .mrowOutput e => Sys2Proof.Machine.execMrowOutput e s
  | .configWordWrite region => Sys2Proof.Machine.execConfigWordWrite region s
  | .configEnd region => Sys2Proof.Machine.execConfigEnd region s
  | .bindCheck region => Sys2Proof.Machine.execBindCheck region s
  | .placerServe die => Sys2Proof.Machine.execPlacerServe die s
  | .loadEnd region => Sys2Proof.Machine.execLoadEnd region s
  | .streamTokenTransfer cmd => Sys2Proof.Machine.execStreamTokenTransfer cmd s
  | .copySector cmd => Sys2Proof.Machine.execCopySector cmd s
  | .bankSector cmd => Sys2Proof.Machine.execBankSector cmd s
  | .rowTransfer cmd => Sys2Proof.Machine.execRowTransfer cmd s
  | .writebackAccept die pa => Sys2Proof.Machine.execWritebackAccept die pa s
  | .orderReadPerform strand ev => Sys2Proof.Machine.execOrderReadPerform strand ev s
  | .orderWritePerform strand ev => Sys2Proof.Machine.execOrderWritePerform strand ev s
  | .orderApplyPending die src => Sys2Proof.Machine.execOrderApplyPending die src s
  | .loadComplete strand ev => Sys2Proof.Machine.execLoadComplete strand ev s
  | .lateEccTrap strand => Sys2Proof.Machine.execLateEccTrap strand s
  | .walkComplete die idx => Sys2Proof.Machine.execWalkComplete die idx s
  | .shootdownAck strand => Sys2Proof.Machine.execShootdownAck strand s
  | .handleComplete cmd => Sys2Proof.Machine.execHandleComplete cmd s
  | .asyncEventTake strand => Sys2Proof.Machine.execAsyncEventTake strand s
  | .idleWake strand => Sys2Proof.Machine.execIdleWake strand s
  | .yieldTimeout strand => Sys2Proof.Machine.execYieldTimeout strand s
  | .faultRecordPost ctx => Sys2Proof.Machine.execFaultRecordPost ctx s
  | .contextRetire ctx => Sys2Proof.Machine.execContextRetire ctx s
  | .freezeWave region => Sys2Proof.Machine.execFreezeWave region s
  | .freezePoint region => Sys2Proof.Machine.execFreezePoint region s
  | .calleeBind region => Sys2Proof.Machine.execCalleeBind region s
  | .gridReturn region => Sys2Proof.Machine.execGridReturn region s
  | .pleatSpill region => Sys2Proof.Machine.execPleatSpill region s
  | .pleatRefill region => Sys2Proof.Machine.execPleatRefill region s
  | .launchAdmit die => Sys2Proof.Machine.execLaunchAdmit die s
  | .pinBreak region => Sys2Proof.Machine.execPinBreak region s
  | .taskReady task => Sys2Proof.Machine.execTaskReady task s
  | .agingTick task => Sys2Proof.Machine.execAgingTick task s
  | .taskBind die => Sys2Proof.Machine.execTaskBind die s
  | .groupBind group => Sys2Proof.Machine.execGroupBind group s
  | .preemptTimeout task => Sys2Proof.Machine.execPreemptTimeout task s
  | .taskFaultEnd region => Sys2Proof.Machine.execTaskFaultEnd region s
  | .retireComplete task => Sys2Proof.Machine.execRetireComplete task s
  | .eenqStatusDelivery e => Sys2Proof.Machine.execEenqStatusDelivery e s
  | .edeqDelivery e => Sys2Proof.Machine.execEdeqDelivery e s
  | .barReleaseToken e => Sys2Proof.Machine.execBarReleaseToken e s
  | .hostTailWrite pa v => Sys2Proof.Machine.execHostTailWrite pa v s
  | .hostHeadWrite pa v => Sys2Proof.Machine.execHostHeadWrite pa v s
  | .hostMemRead pa n => Sys2Proof.Machine.execHostMemRead pa n s
  | .hostMemWrite pa n v => Sys2Proof.Machine.execHostMemWrite pa n v s
  | .biSnoopResponse pa dirty => Sys2Proof.Machine.execBiSnoopResponse pa dirty s
  | .pageSend die unit => Sys2Proof.Machine.execPageSend die unit s
  | .partialArrival die idx => Sys2Proof.Machine.execPartialArrival die idx s
  | .catchupFetch die unit => Sys2Proof.Machine.execCatchupFetch die unit s
  | .endHeaderSend die => Sys2Proof.Machine.execEndHeaderSend die s
  | .flitReceive link seq crcOk payload => Sys2Proof.Machine.execFlitReceive link seq crcOk payload s
  | .linkTrained link width => Sys2Proof.Machine.execLinkTrained link width s
  | .linkTrainingFailure link => Sys2Proof.Machine.execLinkTrainingFailure link s
  | .linkLaneLoss link => Sys2Proof.Machine.execLinkLaneLoss link s
  | .linkFence link => Sys2Proof.Machine.execLinkFence link s
  | .linkRetrain link => Sys2Proof.Machine.execLinkRetrain link s
  | .ctxtab v => Sys2Proof.Machine.execCtxtab v s
  | .registerWrite off v => Sys2Proof.Machine.execRegisterWrite off v s
  | .packetArrival die => Sys2Proof.Machine.execPacketArrival die s
  | .probeSend e ctx queue => Sys2Proof.Machine.execProbeSend e ctx queue s
  | .probeReturn idx => Sys2Proof.Machine.execProbeReturn idx s
  | .softError unit corrected addr => Sys2Proof.Machine.execSoftError unit corrected addr s
  | .wringTest idx => Sys2Proof.Machine.execWringTest idx s
  | .wringTestResult idx pass => Sys2Proof.Machine.execWringTestResult idx pass s
  | .moduleStart img => Sys2Proof.Machine.execModuleStart img s
  | .startRunning => Sys2Proof.Machine.execStartRunning s
  | .startWatchdog => Sys2Proof.Machine.execStartWatchdog s
  | .firmwareUpdate img => Sys2Proof.Machine.execFirmwareUpdate img s
  | .getMeasurements => Sys2Proof.Machine.execGetMeasurements s
  | .keyLoad slot => Sys2Proof.Machine.execKeyLoad slot s
  | .keyErase slot => Sys2Proof.Machine.execKeyErase slot s
  | .eventLogRead => Sys2Proof.Machine.execEventLogRead s
  | .flitAcknowledgement link seq replay => Sys2Proof.Machine.execFlitAcknowledgement link seq replay s
  | .creditReturn link => Sys2Proof.Machine.execCreditReturn link s
  | .spdmSessionRequest secured => Sys2Proof.Machine.execSpdmSessionRequest secured s

end Sys2Proof.Machine
end

