-- ==== Sys2Proof/Machine/Turns.lean ====
section
/-! DEFINITION. What a turn of the agenda does (log 1): an internal event takes its step by the meaning of its row; a
strand or an element runs the instruction that it has fetched or picked. -/

namespace Sys2Proof.Machine

/-- The internal events: each calls the meaning of its row. Strands and elements run below. -/
def runEvent (t : Turn) (s : State) : Res :=
  match t with
  | .strand _ => .next s
  | .element _ => .next s
  | .queueOpCancel p => execQueueOpCancel p s
  | .firingComplete e ctx => execFiringComplete e ctx s
  | .siteFillArrival e ctx => execSiteFillArrival e ctx s
  | .chainTurn e ctx => execChainTurn e ctx s
  | .directoryForward region => execDirectoryForward region s
  | .spreadUpdateApply region => execSpreadUpdateApply region s
  | .routerForward buf => execRouterForward buf s
  | .rowPacketDelivery die idx => execRowPacketDelivery die idx s
  | .elementClockGate e => execElementClockGate e s
  | .elementPowerGate e => execElementPowerGate e s
  | .elementWake e => execElementWake e s
  | .weightLatch e => execWeightLatch e s
  | .rowAssembly e => execRowAssembly e s
  | .mrowFire e => execMrowFire e s
  | .mrowOutput e => execMrowOutput e s
  | .configWordWrite region => execConfigWordWrite region s
  | .configEnd region => execConfigEnd region s
  | .bindCheck region => execBindCheck region s
  | .placerServe die => execPlacerServe die s
  | .loadEnd region => execLoadEnd region s
  | .streamTokenTransfer cmd => execStreamTokenTransfer cmd s
  | .copySector cmd => execCopySector cmd s
  | .bankSector cmd => execBankSector cmd s
  | .rowTransfer cmd => execRowTransfer cmd s
  | .writebackAccept die pa => execWritebackAccept die pa s
  | .orderReadPerform strand ev => execOrderReadPerform strand ev s
  | .orderWritePerform strand ev => execOrderWritePerform strand ev s
  | .orderApplyPending die src => execOrderApplyPending die src s
  | .loadComplete strand ev => execLoadComplete strand ev s
  | .walkComplete die idx => execWalkComplete die idx s
  | .shootdownAck strand => execShootdownAck strand s
  | .handleComplete cmd => execHandleComplete cmd s
  | .idleWake strand => execIdleWake strand s
  | .yieldTimeout strand => execYieldTimeout strand s
  | .faultRecordPost ctx => execFaultRecordPost ctx s
  | .contextRetire ctx => execContextRetire ctx s
  | .freezeWave region => execFreezeWave region s
  | .freezePoint region => execFreezePoint region s
  | .calleeBind region => execCalleeBind region s
  | .gridReturn region => execGridReturn region s
  | .pleatSpill region => execPleatSpill region s
  | .pleatRefill region => execPleatRefill region s
  | .launchAdmit die => execLaunchAdmit die s
  | .pinBreak region => execPinBreak region s
  | .taskReady task => execTaskReady task s
  | .agingTick task => execAgingTick task s
  | .taskBind die => execTaskBind die s
  | .groupBind group => execGroupBind group s
  | .preemptTimeout task => execPreemptTimeout task s
  | .taskFaultEnd region => execTaskFaultEnd region s
  | .retireComplete task => execRetireComplete task s
  | .eenqStatusDelivery e => execEenqStatusDelivery e s
  | .edeqDelivery e => execEdeqDelivery e s
  | .barReleaseToken e => execBarReleaseToken e s
  | .pageSend die unit => execPageSend die unit s
  | .partialArrival die idx => execPartialArrival die idx s
  | .catchupFetch die unit => execCatchupFetch die unit s
  | .endHeaderSend die => execEndHeaderSend die s
  | .packetArrival die => execPacketArrival die s
  | .probeSend e ctx queue => execProbeSend e ctx queue s
  | .probeReturn idx => execProbeReturn idx s
  | .wringTest idx => execWringTest idx s
  | .startRunning => execStartRunning s

/-- What has been fetched, run. -/
def runFetched : Fetched → Res
  | .skip s => .next s
  | .run i s => exec i s
  | .late n s => execLateEccTrap n s
  | .event n s => execAsyncEventTake n s

/-- Whether a turn is passed over (R81): while some die is so far behind with another's writes that no write may be added, only
pending writes are applied. -/
def State.passes (s : State) (t : Turn) : Bool :=
  dieList.any s.lags && (match t with | .orderApplyPending _ _ => false | _ => true)

/-- A turn. -/
def runTurn (t : Turn) (s : State) : Res :=
  if s.passes t then .next s
  else match t with
  | .strand n => runFetched (s.strandTurn n)
  | .element e => runFetched (s.elementTurn e)
  | u => runEvent u s

/-- The rows that come from outside the machine: the host, what links receive and how they train, errors and test results,
the start and the steward's mailbox. -/
def isInput : Instr → Bool
  | .hostTailWrite _ _ | .hostHeadWrite _ _ | .hostMemRead _ _ | .hostMemWrite _ _ _ | .biSnoopResponse _ _ => true
  | .flitReceive _ _ _ _ | .linkTrained _ _ | .linkTrainingFailure _ | .linkLaneLoss _ | .linkFence _ | .linkRetrain _ => true
  | .flitAcknowledgement _ _ _ | .creditReturn _ | .ctxtab _ | .registerWrite _ _ => true
  | .softError _ _ _ | .wringTestResult _ _ => true
  | .moduleStart _ | .startWatchdog | .firmwareUpdate _ | .getMeasurements | .keyLoad _ | .keyErase _ | .eventLogRead
  | .spdmSessionRequest _ => true
  | _ => false

/-- With no turn left in the cycle: the next event from outside, and with none the next cycle. Anything else that stands among
the inputs is passed over. -/
def runInput (s : State) : Res :=
  match s.inputs with
  | [] => .next s.tick
  | i :: rest => if isInput i then exec i { s with inputs := rest } else .next { s with inputs := rest }

end Sys2Proof.Machine
end

