-- ==== Sys2Proof/Machine/Step.lean ====
section
/-! DEFINITION. One step of the machine (log 1): the next turn of the agenda, or, with none left, an event from outside or the
next cycle. -/

namespace Sys2Proof.Machine

/-- One step. -/
def step (s : State) : Host.Outcome State Fault Refusal :=
  match s.agenda with
  | [] => runInput s
  | t :: rest => runTurn t { s with agenda := rest }

/-- The state in which the next step fetches and runs the instruction whose bits are w. -/
def State.withFetchWord (s : State) (nbits w : Nat) : State := s.placeWord nbits w

end Sys2Proof.Machine
end

