-- ==== Sys2Proof/Safety.lean ====
section
/-! DEFINITION. What counts as a safe run: runs of the machine, and the invariant of its state. -/

namespace Sys2Proof.Machine

/-- The state after at most n steps, or none when a step stops the machine. -/
def runN : Nat → State → Option State
  | 0, s => some s
  | n + 1, s =>
    match step s with
    | .next t => runN n t
    | _ => none

/-- Every memory of the machine is in canonical form. -/
def MemInv (s : State) : Prop :=
  Memory.wf s.mem.dram = true ∧ Memory.wf s.mem.host = true ∧ ∀ d, Memory.wf (s.image d).mem = true

end Sys2Proof.Machine
end

