-- ==== Sys2Proof/WellFormed.lean ====
section
/-! DEFINITION. Which instructions are well formed: the operands that the encodings of 03_encodings.md and the
instruction descriptions allow (R58 items 5 to 7, R67 items 4 and 5, R124, R127, R129, R134, R135, R138 to R141, R156 to R175).
An ill-formed instruction has no word. Fields that an instruction does not use are zero. -/

namespace Sys2Proof

/-- Is the destination an output? -/
def Dst.outputs : Dst → Bool
  | .o0 | .o1 | .both => true
  | _ => false

def Dst.isRegister : Dst → Bool
  | .reg _ => true
  | _ => false

/-- A channel source, take or keep. -/
def Src.channel : Src → Bool
  | .take _ | .keep _ => true
  | _ => false

def Src.taking : Src → Bool
  | .take _ => true
  | _ => false

/-- An EA word of a row that defines the MOD values `mods`, has a carry or not, is unary or not, brings B back with
`.sc` or not, and accumulates or not (R67, R124, R127). -/
def EA.wf (mods : List Nat) (carry unary sc acc : Bool) (f : EA) : Bool :=
  mods.contains f.md.toNat &&
  (f.pm != .none || f.pd == 0) &&
  (f.pm != .cu || carry) &&
  (f.d.outputs || f.tg == 0) &&
  (!acc || f.d.isRegister) &&
  (!unary || f.b == .reg 0 || (sc && f.md.getLsbD 1))

/-- Control registers that exist (R195). -/
def csrExists (n : BitVec 11) : Bool :=
  [0x000, 0x001, 0x002, 0x003, 0x004, 0x005, 0x006, 0x010, 0x011, 0x012, 0x013, 0x020, 0x021, 0x022,
   0x030, 0x031, 0x032, 0x033, 0x034, 0x040, 0x041].contains n.toNat

/-- Control registers that are writable at some level (R195). -/
def csrMayWrite (n : BitVec 11) : Bool :=
  [0x000, 0x001, 0x002, 0x003, 0x004, 0x005, 0x006, 0x013, 0x040, 0x041].contains n.toNat

/-- A token-forming EC instruction's destination and tag (R160). -/
def tokenDst (d : Dst) (tg : BitVec 3) : Bool := !d.isRegister && (d.outputs || tg == 0)

/-- Is the instruction well formed? Events have no encoding and are always well formed. -/
def Instr.wf : Instr → Bool
  | .shli _ _ _ imm => decide (imm.toNat ≤ 63)
  | .shri _ _ _ imm => decide (imm.toNat ≤ 63)
  | .shai _ _ _ imm => decide (imm.toNat ≤ 63)
  | .loop _ _ off => decide (1 ≤ off.toNat) && decide (off.toNat < 4096)
  | .ldn _ _ _ _ sz _ => sz != .d
  | .bfadd _ _ _ _ c => c != 31
  | .bfmul _ _ _ _ c => c != 31
  | .iadd32 _ _ _ _ c => c != 31
  | .fadd32 _ _ _ _ c => c != 31
  | .bfmax _ _ _ _ c => c != 31
  | .csrr _ _ n => csrExists n
  | .csrw _ _ _ n => csrMayWrite n
  | .csrs _ _ _ n => csrMayWrite n
  | .csrc _ _ _ n => csrMayWrite n
  | .mov f => f.wf [0] false true false false
  | .iadd f => f.wf [0] true false false false
  | .isub f => f.wf [0] true false false false
  | .iadds f => f.wf [0] true false false false
  | .isubs f => f.wf [0] true false false false
  | .imul f => f.wf [0] false false false false
  | .imulh f => f.wf [0] false false false false
  | .imulhn f => f.wf [0] false false false false
  | .imad f => f.wf [0] false false false true
  | .imin f => f.wf [0] false false false false
  | .imax f => f.wf [0] false false false false
  | .nmin f => f.wf [0] false false false false
  | .nmax f => f.wf [0] false false false false
  | .iabs f => f.wf [0] false true false false
  | .eAnd f => f.wf [0] false false false false
  | .eOr f => f.wf [0] false false false false
  | .eXor f => f.wf [0] false false false false
  | .eAndn f => f.wf [0] false false false false
  | .eShl f => f.wf [0] false false false false
  | .eShr f => f.wf [0] false false false false
  | .eSha f => f.wf [0] false false false false
  | .sel f => f.wf [0, 1, 2, 3] false false false false
  | .ePopc f => f.wf [0] false true false false
  | .eClz f => f.wf [0] false true false false
  | .idot4 f => f.wf [0, 1, 2] false false false true
  | .fadd f => f.wf [0] false false false false
  | .fsub f => f.wf [0] false false false false
  | .fmul f => f.wf [0] false false false false
  | .ffma f => f.wf [0] false false false true
  | .fmin f => f.wf [0] false false false false
  | .fmax f => f.wf [0] false false false false
  | .fabs f => f.wf [0] false true false false
  | .fneg f => f.wf [0] false true false false
  | .bfadd2 f => f.wf [0] false false false false
  | .bfmul2 f => f.wf [0] false false false false
  | .bffma2 f => f.wf [0] false false false true
  | .bfdot2 f => f.wf [0] false false false true
  | .hadd2 f => f.wf [0] false false false false
  | .hmul2 f => f.wf [0] false false false false
  | .hfma2 f => f.wf [0] false false false true
  | .fscale f => f.wf [0, 1] false false false false
  | .icmp f => f.wf [0, 1, 2, 3] false false false false
  | .fcmp f => f.wf [0, 1, 2, 3] true false false false
  | .cvtF32I32 f => f.wf [0] false true false false
  | .cvtI32F32 f => f.wf [0] false true false false
  | .cvtBf16F32 f => f.wf [0, 1, 2, 3] false true true false
  | .cvtF32Bf16 f => f.wf [0, 1] false true false false
  | .cvtE4m3F32 f => f.wf [0, 1, 2, 3] false true true false
  | .cvtE5m2F32 f => f.wf [0, 1, 2, 3] false true true false
  | .cvtE2m1F32 f => f.wf [0, 2] false true true false
  | .cvtF32E4m3 f => f.wf [0, 1, 2, 3] false true false false
  | .cvtF32E5m2 f => f.wf [0, 1, 2, 3] false true false false
  | .cvtF32E2m1 f => f.wf [0, 1, 2, 3] false true false false
  | .cvtI8F32 f => f.wf [0, 2] false true true false
  | .cvtF32I8 f => f.wf [0, 1, 2, 3] false true false false
  | .sclx f => f.wf [0] false true false false
  | .cvtF16F32 f => f.wf [0, 1, 2, 3] false true true false
  | .cvtF32F16 f => f.wf [0, 1] false true false false
  | .exp2 f => f.wf [0] false true false false
  | .log2 f => f.wf [0] false true false false
  | .rcp f => f.wf [0] false true false false
  | .rsqrt f => f.wf [0] false true false false
  | .sqrt f => f.wf [0] false true false false
  | .rstat f => f.wf [0] false true false true && (match f.d with | .reg n => decide (n.toNat ≤ 12) | _ => false)
  | .lred f => f.wf [0, 1, 2, 3] false true false false
  | .lscan f => f.wf [0, 1, 2, 3] false true false false
  | .lperm f => f.wf [0] false false false false
  | .lbcast f => f.wf [0] false false false false
  | .lshift f => f.wf [0, 1, 2, 3] false false false false
  | .eShli f => decide (f.imm.toNat < 32)
  | .eShri f => decide (f.imm.toNat < 32)
  | .rmerge d a pd pm => decide (d.toNat ≤ 12) && decide (a.toNat ≤ 14) && pm != .cu && (pm != .none || pd == 0)
  | .sld d _ _ sz sx => d != .none && (!sx || sz == .b || sz == .h)
  | .satm o d _ _ _ => o != .cas || d.isRegister
  | .xld d _ sz sx => d != .none && (!sx || sz == .b || sz == .h)
  | .feld _ d _ sz => d != .none && (sz == .w || sz == .t)
  | .eenq t f _ tg => decide (f.toNat < 16) && (t || tg == 0)
  | .edeq t f tg => decide (f.toNat < 16) && (!t || tg != 7)
  | .ebar na f tg => decide (f.toNat < 16) && (!na || tg == 0)
  | .emit _ d a tg => tokenDst d tg && a.channel
  | .hdr d _ _ tg => tokenDst d tg
  | .drop page a b => a.channel && (if page then b == .reg 0 else b.channel || b == .zero)
  | .lgen _ d _ tg => d.outputs || tg == 0
  | .lgb a _ => a.taking
  | .wsplit _ d a tg => tokenDst d tg && a.taking
  | .wjoin h d _ k => d.isRegister && decide (k.toNat < (if h then 2 else 4))
  | .ordt skip d _ tg => tokenDst d tg && (!skip || d == .none)
  | .ptake a => a.taking
  | .pgive d tg => tokenDst d tg
  | .add _ _ _ _ => true
  | .sub _ _ _ _ => true
  | .and _ _ _ _ => true
  | .or _ _ _ _ => true
  | .xor _ _ _ _ => true
  | .andn _ _ _ _ => true
  | .shl _ _ _ _ => true
  | .shr _ _ _ _ => true
  | .sha _ _ _ _ => true
  | .min _ _ _ _ => true
  | .max _ _ _ _ => true
  | .minn _ _ _ _ => true
  | .maxn _ _ _ _ => true
  | .slt _ _ _ _ => true
  | .sltn _ _ _ _ => true
  | .mul _ _ _ _ => true
  | .mulh _ _ _ _ => true
  | .mulhn _ _ _ _ => true
  | .div _ _ _ _ => true
  | .divn _ _ _ _ => true
  | .rem _ _ _ _ => true
  | .remn _ _ _ _ => true
  | .clz _ _ _ => true
  | .popc _ _ _ => true
  | .home _ _ _ => true
  | .addi _ _ _ _ => true
  | .andi _ _ _ _ => true
  | .ori _ _ _ _ => true
  | .xori _ _ _ _ => true
  | .slti _ _ _ _ => true
  | .sltni _ _ _ _ => true
  | .lui _ _ _ => true
  | .jal _ _ _ => true
  | .jalr _ _ _ _ => true
  | .beq _ _ _ _ => true
  | .bne _ _ _ _ => true
  | .blt _ _ _ _ => true
  | .bge _ _ _ _ => true
  | .bltn _ _ _ _ => true
  | .bgen _ _ _ _ => true
  | .btst _ _ _ _ => true
  | .ld _ _ _ _ _ _ => true
  | .st _ _ _ _ _ _ => true
  | .aadd _ _ _ _ _ _ => true
  | .aand _ _ _ _ _ _ => true
  | .aor _ _ _ _ _ _ => true
  | .axor _ _ _ _ _ _ => true
  | .amin _ _ _ _ _ _ => true
  | .amax _ _ _ _ _ _ => true
  | .aminn _ _ _ _ _ _ => true
  | .amaxn _ _ _ _ _ _ => true
  | .aswap _ _ _ _ _ _ => true
  | .acas _ _ _ _ _ _ => true
  | .afadd _ _ _ _ _ => true
  | .abfadd2 _ _ _ _ _ => true
  | .fence _ _ _ => true
  | .wait _ _ _ _ _ _ => true
  | .clean _ _ _ => true
  | .inval _ _ _ => true
  | .flush _ _ _ => true
  | .discard _ _ _ => true
  | .pref _ _ _ => true
  | .enq _ _ _ => true
  | .tenq _ _ _ _ => true
  | .deq _ _ _ _ => true
  | .tdeq _ _ _ _ _ => true
  | .qinit _ _ _ => true
  | .qstat _ _ _ => true
  | .qdrain _ _ _ _ => true
  | .binit _ _ _ _ => true
  | .barr _ _ _ => true
  | .bwait _ _ _ _ => true
  | .barw _ _ _ => true
  | .bquery _ _ _ => true
  | .bpoison _ _ _ _ => true
  | .launch _ _ _ => true
  | .tdone _ _ => true
  | .tstat _ _ _ => true
  | .cfgld _ _ _ _ _ => true
  | .place _ _ _ _ => true
  | .cfgdrop _ _ _ => true
  | .gcall _ _ _ _ => true
  | .gret _ _ => true
  | .strm _ _ _ _ => true
  | .strmw _ _ _ _ => true
  | .strmc _ _ _ => true
  | .copy _ _ _ _ _ => true
  | .fill _ _ _ _ _ => true
  | .rowcp _ _ _ _ _ => true
  | .rowzero _ _ _ _ => true
  | .subscr _ _ _ _ => true
  | .unsub _ _ _ _ => true
  | .sweep _ _ _ _ => true
  | .swait _ _ _ => true
  | .pksend _ _ _ _ _ => true
  | .cmask _ _ _ => true
  | .cunmask _ _ _ => true
  | .nop _ => true
  | .eret _ => true
  | .halt _ => true
  | .idle _ => true
  | .yield _ => true
  | .tlbi _ _ _ _ => true
  | .tlbia _ _ => true
  | .freeze _ _ _ _ => true
  | .thaw _ _ _ _ => true
  | .kill _ _ _ _ => true
  | .ctxsw _ _ _ => true
  | .phase _ _ => true
  | .evsch _ _ _ => true
  | .trap _ _ => true
  | .limm _ _ _ => true
  | .ldl _ _ _ _ => true
  | .stl _ _ _ _ => true
  | .jall _ _ _ => true
  | .eNop _ _ => true
  | .movi _ _ => true
  | .movhi _ => true
  | .iaddi _ => true
  | .eAndi _ => true
  | .pset _ _ => true
  | .pand _ _ _ _ _ => true
  | .por _ _ _ _ _ => true
  | .pxor _ _ _ _ _ => true
  | .pnot _ _ => true
  | .pmov _ _ _ => true
  | .sst _ _ _ _ => true
  | .spf _ _ _ => true
  | .scln _ _ _ => true
  | .sinv _ _ _ => true
  | .xst _ _ _ => true
  | .fest _ _ _ => true
  | .feclr _ _ => true
  | .mrld _ => true
  | .eGcall _ => true
  | .eGret => true
  | .etrap _ _ _ => true
  | .ehalt _ => true
  | .queueOpCancel _ => true
  | .firingComplete _ _ => true
  | .siteFillArrival _ _ => true
  | .chainTurn _ _ => true
  | .directoryForward _ => true
  | .spreadUpdateApply _ => true
  | .routerForward _ => true
  | .rowPacketDelivery _ _ => true
  | .elementClockGate _ => true
  | .elementPowerGate _ => true
  | .elementWake _ => true
  | .weightLatch _ => true
  | .rowAssembly _ => true
  | .mrowFire _ => true
  | .mrowOutput _ => true
  | .configWordWrite _ => true
  | .configEnd _ => true
  | .bindCheck _ => true
  | .placerServe _ => true
  | .loadEnd _ => true
  | .streamTokenTransfer _ => true
  | .copySector _ => true
  | .bankSector _ => true
  | .rowTransfer _ => true
  | .writebackAccept _ _ => true
  | .orderReadPerform _ _ => true
  | .orderWritePerform _ _ => true
  | .orderApplyPending _ _ => true
  | .loadComplete _ _ => true
  | .lateEccTrap _ => true
  | .walkComplete _ _ => true
  | .shootdownAck _ => true
  | .handleComplete _ => true
  | .asyncEventTake _ => true
  | .idleWake _ => true
  | .yieldTimeout _ => true
  | .faultRecordPost _ => true
  | .contextRetire _ => true
  | .freezeWave _ => true
  | .freezePoint _ => true
  | .calleeBind _ => true
  | .gridReturn _ => true
  | .pleatSpill _ => true
  | .pleatRefill _ => true
  | .launchAdmit _ => true
  | .pinBreak _ => true
  | .taskReady _ => true
  | .agingTick _ => true
  | .taskBind _ => true
  | .groupBind _ => true
  | .preemptTimeout _ => true
  | .taskFaultEnd _ => true
  | .retireComplete _ => true
  | .eenqStatusDelivery _ => true
  | .edeqDelivery _ => true
  | .barReleaseToken _ => true
  | .hostTailWrite _ _ => true
  | .hostHeadWrite _ _ => true
  | .hostMemRead _ _ => true
  | .hostMemWrite _ _ _ => true
  | .biSnoopResponse _ _ => true
  | .pageSend _ _ => true
  | .partialArrival _ _ => true
  | .catchupFetch _ _ => true
  | .endHeaderSend _ => true
  | .flitReceive _ _ _ _ => true
  | .linkTrained _ _ => true
  | .linkTrainingFailure _ => true
  | .linkLaneLoss _ => true
  | .linkFence _ => true
  | .linkRetrain _ => true
  | .ctxtab _ => true
  | .registerWrite _ _ => true
  | .packetArrival _ => true
  | .probeSend _ _ _ => true
  | .probeReturn _ => true
  | .softError _ _ _ => true
  | .wringTest _ => true
  | .wringTestResult _ _ => true
  | .moduleStart _ => true
  | .startRunning => true
  | .startWatchdog => true
  | .firmwareUpdate _ => true
  | .getMeasurements => true
  | .keyLoad _ => true
  | .keyErase _ => true
  | .eventLogRead => true
  | .flitAcknowledgement _ _ _ => true
  | .creditReturn _ => true
  | .spdmSessionRequest _ => true

end Sys2Proof
end

