-- ==== Sys2Proof/Certificates/Slice0/Obligations.lean ====
section
/-! DEFINITION. The statements: what the rules of the spec say of the machine, for the provers. First the words that they
share: what an instruction leaves alone, how a strand goes on, what a register is given. -/

namespace Sys2Proof.Claim

open Sys2Proof Sys2Proof.Machine

/-! ### What a sequencer instruction leaves alone -/

/-- Between two states nothing has changed but strands: memory with every image, the caches, the fabric, the engines, queues,
barriers, tasks, contexts, routes, links and the clock are as before; so is what `tlbs` and walks hold. -/
structure OnlyStrands (s t : State) : Prop where
  cycle  : t.cycle = s.cycle
  agenda : t.agenda = s.agenda
  inputs : t.inputs = s.inputs
  focus  : t.focus = s.focus
  mem    : t.mem = s.mem
  fab    : t.fab = s.fab
  engs   : t.engs = s.engs
  ports  : t.ports = s.ports
  tasks  : t.tasks = s.tasks
  ctxs   : t.ctxs = s.ctxs
  routes : t.routes = s.routes
  outer  : t.outer = s.outer
  tlbs   : t.seqs.tlbs = s.seqs.tlbs
  walks  : t.seqs.walks = s.seqs.walks
  queued : t.seqs.queued = s.seqs.queued
  answers : t.seqs.answers = s.seqs.answers

/-- The other strands are as before, but that one that yielded may have seen this one issue (R230); every L1 cache is as
before. -/
structure OthersKeep (s t : State) : Prop where
  strands : ∀ n, n ≠ s.focus.strand → { t.strand n with yieldTo := none } = { s.strand n with yieldTo := none }
  d1      : ∀ c, (t.core c).d1 = (s.core c).d1
  i1      : ∀ c, (t.core c).i1 = (s.core c).i1

/-- The control registers of a strand, its mode and its links to region and task are as before. -/
structure ControlKeeps (u v : Strand) : Prop where
  status   : v.status = u.status
  epc      : v.epc = u.epc
  ecause   : v.ecause = u.ecause
  eaddr    : v.eaddr = u.eaddr
  einfo    : v.einfo = u.einfo
  tvec     : v.tvec = u.tvec
  scratch  : v.scratch = u.scratch
  ctx      : v.ctx = u.ctx
  asid     : v.asid = u.asid
  prio     : v.prio = u.prio
  faultq   : v.faultq = u.faultq
  probecyc : v.probecyc = u.probecyc
  run      : v.run = u.run
  events   : v.events = u.events
  arms     : v.arms = u.arms
  late     : v.late = u.late
  region   : v.region = u.region
  task     : v.task = u.task

/-- The outstanding operations and handles of a strand are as before. -/
structure PendingKeeps (u v : Strand) : Prop where
  ops     : v.ops = u.ops
  acqArcs : v.acqArcs = u.acqArcs
  handles : v.handles = u.handles

/-- Registers other than d, and results on their way to them, are as before. -/
structure RegsKeep (d : GReg) (u v : Strand) : Prop where
  regs   : ∀ x, x ≠ d → v.reg x = u.reg x
  writes : ∀ w : GReg × DWord × Nat, w.1 ≠ d → (w ∈ v.writes ↔ w ∈ u.writes)

/-- The strand goes on to the next instruction, `len` bytes on (R185): not before GAP has passed, and, where no loop ends at
this instruction, at the next address with the loop stack as it was. -/
structure GoesOn (s t : State) (q : Issue) (len : Nat) : Prop where
  ready : t.cur.readyAt = s.cycle + 1 + q.gap.toNat
  next  : (∀ e, s.cur.loops.getLast? = some e → e.last ≠ s.cur.pc) →
            t.cur.pc = s.cur.pc + BitVec.ofNat 64 len ∧ t.cur.loops = s.cur.loops

/-- gD takes v with latency L (R187): it holds v at the end of cycle + L − 1, once the results due by then are written; with
L = 1 the next instruction reads v, with a longer latency it reads the old value. g0 stays zero. -/
structure Gives (s t : State) (L : Nat) (d : GReg) (v : DWord) : Prop where
  final : (t.cur.commit (s.cycle + L - 1)).reg d = if d = 0 then 0 else v
  soon  : L = 1 → t.cur.reg d = if d = 0 then 0 else v
  old   : 2 ≤ L → t.cur.reg d = s.cur.reg d

/-- The images show the sectors of n bytes at pa as the key of a page reads them (R243): that key wrote them, or they were last
fetched under it, or no key ever wrote them. -/
def KeyShows (s : State) (page : PageAttr) (pa n : Nat) : Prop :=
  ∀ a, pa / 64 * 64 ≤ a → a < pa + n → ∀ k t, s.keyIn page.key = some k → s.sealOf (sectorKey a) = some t →
    ((s.mem.shown.find? fun x => decide (x.1 = a / 64 * 64)).map Prod.snd).getD t = k

/-- What an instruction does that only gives gD a value: it completes from every state. -/
structure Computes (i : Instr) (q : Issue) (len L : Nat) (d : GReg) (v : State → DWord) : Prop where
  completes : ∀ s, ∃ t, exec i s = .next t ∧ GoesOn s t q len ∧ Gives s t L d (v s) ∧
    RegsKeep d s.cur t.cur ∧ PendingKeeps s.cur t.cur ∧ ControlKeeps s.cur t.cur ∧ OnlyStrands s t ∧ OthersKeep s t

end Sys2Proof.Claim

open Sys2Proof Sys2Proof.Machine Sys2Proof.Claim

/-! ### Integer instructions (R202, R203) -/

/-- The one-cycle alu instructions give gD the value that R202's table gives, and change nothing else (R202, R187,
R194). -/
def Obligations.AluGivesResultAtOnce : Prop :=
  ∀ (q : Issue) (d a b : GReg),
    Computes (.add q d a b) q 4 1 d (fun s => BitVec.ofInt 64 ((s.cur.reg a).toInt + (s.cur.reg b).toInt)) ∧
    Computes (.sub q d a b) q 4 1 d (fun s => BitVec.ofInt 64 ((s.cur.reg a).toInt - (s.cur.reg b).toInt)) ∧
    Computes (.and q d a b) q 4 1 d (fun s => s.cur.reg a &&& s.cur.reg b) ∧
    Computes (.or q d a b) q 4 1 d (fun s => s.cur.reg a ||| s.cur.reg b) ∧
    Computes (.xor q d a b) q 4 1 d (fun s => s.cur.reg a ^^^ s.cur.reg b) ∧
    Computes (.andn q d a b) q 4 1 d (fun s => s.cur.reg a &&& ~~~(s.cur.reg b)) ∧
    Computes (.shl q d a b) q 4 1 d (fun s => BitVec.ofNat 64 ((s.cur.reg a).toNat * 2 ^ ((s.cur.reg b).toNat % 64))) ∧
    Computes (.shr q d a b) q 4 1 d (fun s => BitVec.ofNat 64 ((s.cur.reg a).toNat / 2 ^ ((s.cur.reg b).toNat % 64))) ∧
    Computes (.sha q d a b) q 4 1 d (fun s => BitVec.ofInt 64 ((s.cur.reg a).toInt / 2 ^ ((s.cur.reg b).toNat % 64))) ∧
    Computes (.min q d a b) q 4 1 d (fun s => BitVec.ofInt 64 (min (s.cur.reg a).toInt (s.cur.reg b).toInt)) ∧
    Computes (.max q d a b) q 4 1 d (fun s => BitVec.ofInt 64 (max (s.cur.reg a).toInt (s.cur.reg b).toInt)) ∧
    Computes (.minn q d a b) q 4 1 d (fun s => BitVec.ofNat 64 (min (s.cur.reg a).toNat (s.cur.reg b).toNat)) ∧
    Computes (.maxn q d a b) q 4 1 d (fun s => BitVec.ofNat 64 (max (s.cur.reg a).toNat (s.cur.reg b).toNat)) ∧
    Computes (.slt q d a b) q 4 1 d (fun s => if (s.cur.reg a).toInt < (s.cur.reg b).toInt then 1 else 0) ∧
    Computes (.sltn q d a b) q 4 1 d (fun s => if (s.cur.reg a).toNat < (s.cur.reg b).toNat then 1 else 0) ∧
    Computes (.clz q d a) q 4 1 d (fun s => if s.cur.reg a = 0 then 64 else BitVec.ofNat 64 (63 - Nat.log2 (s.cur.reg a).toNat)) ∧
    Computes (.popc q d a) q 4 1 d (fun s =>
      BitVec.ofNat 64 ((List.range 64).filter fun i => (s.cur.reg a).getLsbD i).length)

/-- mul, mulh, mulhn, div, divn, rem and remn give gD its value after 3, 4 or 24 cycles, and never trap (R202, R187).
-/
def Obligations.MulDivGiveResultLate : Prop :=
  ∀ (q : Issue) (d a b : GReg),
    Computes (.mul q d a b) q 4 3 d (fun s => BitVec.ofInt 64 ((s.cur.reg a).toInt * (s.cur.reg b).toInt)) ∧
    Computes (.mulh q d a b) q 4 4 d (fun s => BitVec.ofInt 64 ((s.cur.reg a).toInt * (s.cur.reg b).toInt / 0x10000000000000000)) ∧
    Computes (.mulhn q d a b) q 4 4 d (fun s => BitVec.ofNat 64 ((s.cur.reg a).toNat * (s.cur.reg b).toNat / 0x10000000000000000)) ∧
    Computes (.div q d a b) q 4 24 d (fun s =>
      if s.cur.reg b = 0 then BitVec.ofInt 64 (-1) else BitVec.ofInt 64 ((s.cur.reg a).toInt.tdiv (s.cur.reg b).toInt)) ∧
    Computes (.divn q d a b) q 4 24 d (fun s =>
      if s.cur.reg b = 0 then BitVec.ofInt 64 (-1) else BitVec.ofNat 64 ((s.cur.reg a).toNat / (s.cur.reg b).toNat)) ∧
    Computes (.rem q d a b) q 4 24 d (fun s =>
      if s.cur.reg b = 0 then s.cur.reg a else BitVec.ofInt 64 ((s.cur.reg a).toInt.tmod (s.cur.reg b).toInt)) ∧
    Computes (.remn q d a b) q 4 24 d (fun s =>
      if s.cur.reg b = 0 then s.cur.reg a else BitVec.ofNat 64 ((s.cur.reg a).toNat % (s.cur.reg b).toNat))

/-- The QI and QU forms and limm give gD the value that R203 and R210 give (R203). -/
def Obligations.ImmediateFormsCompute : Prop :=
  (∀ (q : Issue) (d a : GReg) (imm : BitVec 13),
    Computes (.addi q d a imm) q 4 1 d (fun s => BitVec.ofInt 64 ((s.cur.reg a).toInt + imm.toInt)) ∧
    Computes (.andi q d a imm) q 4 1 d (fun s => s.cur.reg a &&& BitVec.ofInt 64 imm.toInt) ∧
    Computes (.ori q d a imm) q 4 1 d (fun s => s.cur.reg a ||| BitVec.ofInt 64 imm.toInt) ∧
    Computes (.xori q d a imm) q 4 1 d (fun s => s.cur.reg a ^^^ BitVec.ofInt 64 imm.toInt) ∧
    Computes (.slti q d a imm) q 4 1 d (fun s => if (s.cur.reg a).toInt < imm.toInt then 1 else 0) ∧
    Computes (.sltni q d a imm) q 4 1 d (fun s => if (s.cur.reg a).toNat < (BitVec.ofInt 64 imm.toInt).toNat then 1 else 0) ∧
    (imm.toNat ≤ 63 →
      Computes (.shli q d a imm) q 4 1 d (fun s => BitVec.ofNat 64 ((s.cur.reg a).toNat * 2 ^ imm.toNat)) ∧
      Computes (.shri q d a imm) q 4 1 d (fun s => BitVec.ofNat 64 ((s.cur.reg a).toNat / 2 ^ imm.toNat)) ∧
      Computes (.shai q d a imm) q 4 1 d (fun s => BitVec.ofInt 64 ((s.cur.reg a).toInt / 2 ^ imm.toNat)))) ∧
  (∀ (q : Issue) (d : GReg) (imm : BitVec 18),
    Computes (.lui q d imm) q 4 1 d (fun _ => BitVec.ofInt 64 (imm.toInt * 8192))) ∧
  (∀ (q : Issue) (d : GReg) (imm : BitVec 45),
    Computes (.limm q d imm) q 8 1 d (fun _ => BitVec.ofInt 64 imm.toInt))

namespace Sys2Proof.Claim

/-- A taken branch or a jump (R185, R205): the strand goes to the target, not before GAP and the bubble have passed. -/
structure GoesTo (s t : State) (q : Issue) (target : DWord) : Prop where
  pc    : t.cur.pc = target
  ready : t.cur.readyAt = max (s.cycle + 1 + q.gap.toNat) (s.cycle + 3)

/-- Whether an address lies in the body of a loop. -/
def inBody (e : LoopEntry) (x : DWord) : Prop := e.start.toNat ≤ x.toNat ∧ x.toNat ≤ e.last.toNat

/-- What a taken branch, or a jump that links nothing, does to the loop stack (R207): a loop stays unless its body holds the
instruction and not the target; a loop that is left so, begun by this code and alone on the stack, is popped. -/
structure LeavesLoops (s t : State) (target : DWord) : Prop where
  keeps : (∀ e, s.cur.loops.getLast? = some e → ¬ (inBody e s.cur.pc ∧ ¬ inBody e target)) → t.cur.loops = s.cur.loops
  pops  : ∀ e, s.cur.loops = [e] → s.cur.lbase = 0 → inBody e s.cur.pc → ¬ inBody e target → t.cur.loops = []

/-- Every register of a strand, and every result on its way to one, is as before. -/
structure AllRegsKeep (u v : Strand) : Prop where
  regs   : ∀ x, v.reg x = u.reg x
  writes : v.writes = u.writes

/-- What a conditional branch does (R205): when its condition holds it goes to its target, else on; it changes nothing else. -/
structure BranchesWhen (i : Instr) (q : Issue) (off : BitVec 13) (cond : State → Prop) : Prop where
  taken : ∀ s, cond s → ∃ t, exec i s = .next t ∧
    GoesTo s t q (s.cur.pc + BitVec.ofInt 64 (4 * off.toInt)) ∧ LeavesLoops s t (s.cur.pc + BitVec.ofInt 64 (4 * off.toInt)) ∧
    AllRegsKeep s.cur t.cur ∧ PendingKeeps s.cur t.cur ∧ ControlKeeps s.cur t.cur ∧ OnlyStrands s t ∧ OthersKeep s t
  falls : ∀ s, ¬ cond s → ∃ t, exec i s = .next t ∧ GoesOn s t q 4 ∧
    AllRegsKeep s.cur t.cur ∧ PendingKeeps s.cur t.cur ∧ ControlKeeps s.cur t.cur ∧ OnlyStrands s t ∧ OthersKeep s t

/-- A trap of strand n in place of an instruction (R199): the results of a fixed latency are written, EPC, ECAUSE, EADDR and
EINFO are set, STATUS saves PRV, AE and LBASE and enters supervisor mode, and the strand goes to TVEC. -/
structure Traps (s t : State) (n : Nat) (epc cause addr info : DWord) : Prop where
  pc      : (t.strand n).pc = (s.strand n).tvec
  epc     : (t.strand n).epc = epc
  ecause  : (t.strand n).ecause = cause
  eaddr   : (t.strand n).eaddr = addr
  einfo   : (t.strand n).einfo = info
  pprv    : (t.strand n).status.getLsbD 8 = (s.strand n).status.getLsbD 7
  prv     : (t.strand n).status.getLsbD 7 = true
  pae     : (t.strand n).status.getLsbD 5 = (s.strand n).status.getLsbD 6
  ae      : (t.strand n).status.getLsbD 6 = false
  plbase  : (t.strand n).status.extractLsb' 13 3 = (s.strand n).status.extractLsb' 10 3
  lbase   : (t.strand n).status.extractLsb' 10 3 = BitVec.ofNat 3 (s.strand n).loops.length
  rest    : (t.strand n).status.extractLsb' 16 48 = 0 ∧ (t.strand n).status.getLsbD 9 = false ∧
              (t.strand n).status.extractLsb' 0 5 = 0
  results : (t.strand n).writes = [] ∧ ∀ w ∈ (s.strand n).writes, w.2.2 < (t.strand n).readyAt
  regs    : ∀ r, (∀ w ∈ (s.strand n).writes, w.1 ≠ r) → (t.strand n).reg r = (s.strand n).reg r
  loops   : (t.strand n).loops = (s.strand n).loops
  ops     : (t.strand n).ops = (s.strand n).ops ∧ (t.strand n).handles = (s.strand n).handles
  tvec    : (t.strand n).tvec = (s.strand n).tvec
  run     : (t.strand n).run = (s.strand n).run
  others  : ∀ m, m ≠ n → t.strand m = s.strand m
  frame   : OnlyStrands s t

end Sys2Proof.Claim

/-- beq, bne, blt, bge, bltn and bgen go to pc + 4 × OFF when their comparison holds, else on (R205, R207, R185). -/
def Obligations.BranchesCompareAndJump : Prop :=
  ∀ (q : Issue) (a b : GReg) (off : BitVec 13),
    BranchesWhen (.beq q a b off) q off (fun s => s.cur.reg a = s.cur.reg b) ∧
    BranchesWhen (.bne q a b off) q off (fun s => s.cur.reg a ≠ s.cur.reg b) ∧
    BranchesWhen (.blt q a b off) q off (fun s => (s.cur.reg a).toInt < (s.cur.reg b).toInt) ∧
    BranchesWhen (.bge q a b off) q off (fun s => (s.cur.reg b).toInt ≤ (s.cur.reg a).toInt) ∧
    BranchesWhen (.bltn q a b off) q off (fun s => (s.cur.reg a).toNat < (s.cur.reg b).toNat) ∧
    BranchesWhen (.bgen q a b off) q off (fun s => (s.cur.reg b).toNat ≤ (s.cur.reg a).toNat)

/-- The state of the command that a value names on the acting strand: a slot whose handle value it is, bit for bit (R190, R191);
none when it reads expired. -/
def Sys2Proof.Claim.named (s : State) (v : DWord) : Option HandleState :=
  (s.cur.handles.find? fun h => h.slot = v.toNat % 64).bind fun h =>
    if v = BitVec.ofNat 64 (h.gen.toNat * 65536 + s.focus.strand / 64 * 8192 + handleStrand s.focus.strand * 256 + h.slot) then some h.st
    else none

/-- btst branches on the state that a handle names in its issue cycle; anything but a matching slot is expired (R192,
R191, R190). -/
def Obligations.HandleTestBranches : Prop :=
  ∀ (q : Issue) (a : GReg) (off : BitVec 13),
    BranchesWhen (.btst q a .busy off) q off (fun s => named s (s.cur.reg a) = some .busy) ∧
    BranchesWhen (.btst q a .done off) q off (fun s => named s (s.cur.reg a) = some .done) ∧
    BranchesWhen (.btst q a .fault off) q off (fun s => named s (s.cur.reg a) = some .fault) ∧
    BranchesWhen (.btst q a .notBusy off) q off (fun s => named s (s.cur.reg a) ≠ some .busy)

/-- What a jump that links does. -/
def Sys2Proof.Claim.JumpsLinking (i : Instr) (q : Issue) (len : Nat) (d : GReg) (target : State → DWord) : Prop :=
  ∀ s, ((target s).toNat % 4 = 0 → ∃ t, exec i s = .next t ∧ GoesTo s t q (target s) ∧
      Gives s t 1 d (s.cur.pc + BitVec.ofNat 64 len) ∧ RegsKeep d s.cur t.cur ∧ PendingKeeps s.cur t.cur ∧
      ControlKeeps s.cur t.cur ∧ OnlyStrands s t ∧ OthersKeep s t ∧
      (d = 0 → LeavesLoops s t (target s)) ∧ (d ≠ 0 → t.cur.loops = s.cur.loops)) ∧
    ((target s).toNat % 4 ≠ 0 → s.cur.atTvec = false → ∃ t, exec i s = .next t ∧
      Traps s t s.focus.strand s.cur.pc 0x03 (target s) 0)

/-- jal, jall and jalr write the return address and jump; a target that is not word aligned traps MISALIGN (R205,
R207, R199). -/
def Obligations.JumpsLinkAndGo : Prop :=
  ∀ (q : Issue) (d a : GReg) (off : BitVec 18) (long : BitVec 45) (imm : BitVec 13),
    JumpsLinking (.jal q d off) q 4 d (fun s => s.cur.pc + BitVec.ofInt 64 (4 * off.toInt)) ∧
    JumpsLinking (.jall q d long) q 8 d (fun s => s.cur.pc + BitVec.ofInt 64 (4 * long.toInt)) ∧
    JumpsLinking (.jalr q d a imm) q 4 d (fun s => s.cur.reg a + BitVec.ofInt 64 imm.toInt)

/-- loop pushes its entry, skips the body when its count is zero, and traps with four entries active (R206). -/
def Obligations.LoopPushesSkipsOrTraps : Prop :=
  ∀ (q : Issue) (a : GReg) (off : BitVec 13) (s : State),
    (∀ e, s.cur.loops.getLast? = some e → e.last ≠ s.cur.pc) →
    (off.toInt < 1 → s.cur.atTvec = false → ∃ t, exec (.loop q a off) s = .next t ∧
      Traps s t s.focus.strand s.cur.pc 0x01 0 (s.focus.word.setWidth 64)) ∧
    (1 ≤ off.toInt →
      (1 ≤ (s.cur.reg a).toNat % 0x100000000 → s.cur.loops.length < 4 → ∃ t, exec (.loop q a off) s = .next t ∧
        t.cur.pc = s.cur.pc + 4 ∧
        t.cur.loops = s.cur.loops ++
          [⟨BitVec.ofNat 32 ((s.cur.reg a).toNat % 0x100000000), s.cur.pc + 4, s.cur.pc + BitVec.ofInt 64 (4 * off.toInt)⟩] ∧
        AllRegsKeep s.cur t.cur ∧ ControlKeeps s.cur t.cur ∧ OnlyStrands s t) ∧
      ((s.cur.reg a).toNat % 0x100000000 = 0 →
        ∀ pa e, s.curTranslate .fetch (s.cur.pc + BitVec.ofInt 64 (4 * off.toInt)).toNat 4 = .ok pa e →
          ∃ t, exec (.loop q a off) s = .next t ∧
            t.cur.pc = s.cur.pc + BitVec.ofInt 64 (4 * off.toInt) +
              (if s.valAt s.curDie pa 4 / 0x800000 % 64 = 0x3F then 8 else 4) ∧
            t.cur.loops = s.cur.loops ∧ AllRegsKeep s.cur t.cur ∧ ControlKeeps s.cur t.cur ∧ OnlyStrands s t) ∧
      (1 ≤ (s.cur.reg a).toNat % 0x100000000 → s.cur.loops.length = 4 → s.cur.atTvec = false → ∃ t,
        exec (.loop q a off) s = .next t ∧ Traps s t s.focus.strand s.cur.pc 0x0D 0 0))

/-- At the end of a loop body the strand repeats while the count is above one, else the loop is popped and the
enclosing one tested (R207, R219). -/
def Obligations.LoopEndRepeatsOrPops : Prop :=
  ∀ (q : Issue) (s : State), ∃ t, exec (.nop q) s = .next t ∧
    AllRegsKeep s.cur t.cur ∧ PendingKeeps s.cur t.cur ∧ ControlKeeps s.cur t.cur ∧ OnlyStrands s t ∧ OthersKeep s t ∧
    GoesOn s t q 4 ∧
    ∀ (rest : List LoopEntry) (e : LoopEntry), s.cur.loops = rest ++ [e] → e.last = s.cur.pc → s.cur.lbase ≤ rest.length →
      (1 < e.count.toNat → t.cur.pc = e.start ∧ t.cur.loops = rest ++ [{ e with count := e.count - 1 }]) ∧
      (e.count.toNat ≤ 1 → (∀ f, rest.getLast? = some f → f.last ≠ s.cur.pc) →
        t.cur.pc = s.cur.pc + 4 ∧ t.cur.loops = rest) ∧
      (e.count.toNat ≤ 1 → ∀ (outer : List LoopEntry) (f : LoopEntry), rest = outer ++ [f] → f.last = s.cur.pc →
        s.cur.lbase ≤ outer.length → 1 < f.count.toNat →
        t.cur.pc = f.start ∧ t.cur.loops = outer ++ [{ f with count := f.count - 1 }])

namespace Sys2Proof.Claim

/-- The arcs of R83 into a new event of the acting strand, and no other: from earlier reads and atomics of an acquire fence,
and from events that have not performed and touch a byte in common, acquire, or, when the new event releases, from every one. -/
structure HasArcs (s : State) (deps : List Nat) (kind : OpKind) (va : Nat) (rel : Bool) : Prop where
  fences  : ∀ i ∈ s.cur.acqArcs, i ∈ deps
  arcs    : ∀ o ∈ s.cur.ops, s.opDone s.curDie o = false → (rel = true ∨ o.acq = true ∨ sameBytes kind va o = true) → o.id ∈ deps
  only    : ∀ i ∈ deps, i ∈ s.cur.acqArcs ∨
              ∃ o ∈ s.cur.ops, o.id = i ∧ s.opDone s.curDie o = false ∧
                (rel = true ∨ o.acq = true ∨ sameBytes kind va o = true)

/-- What an instruction does that issues one operation (R83, R188, R189): the operation stands last in the strand's list,
numbered anew, with its arcs, its time after this cycle, its address and its PC; the strand goes on and nothing else changes. -/
structure Issued (s t : State) (q : Issue) (len : Nat) (kind : OpKind) (dst : GReg) (cls : OpClass) (scope : Option Scope)
    (acq rel vals : Bool) (va : Nat) (o : Op) : Prop where
  listed  : t.cur.ops = s.cur.ops ++ [o]
  id      : o.id = s.serial ∧ t.serial = s.serial + 1
  kindIs  : o.kind = kind
  dstIs   : o.dst = dst ∧ o.vals = vals
  clsIs   : o.cls = cls
  scopeIs : o.scope = scope ∧ o.acq = acq
  pc      : o.pc = s.cur.pc
  vaIs    : o.va = va
  later   : s.cycle < o.due
  open_   : o.result = none ∧ o.before = none ∧ o.stamp = none
  arcs    : HasArcs s o.deps kind va rel
  goes    : GoesOn s t q len
  regs    : AllRegsKeep s.cur t.cur
  handles : t.cur.handles = s.cur.handles ∧ t.cur.acqArcs = s.cur.acqArcs
  control : ControlKeeps s.cur t.cur
  frame   : OnlyStrands s t
  others  : OthersKeep s t

/-- An instruction that completes by issuing an operation. -/
def Issues (i : Instr) (s : State) (q : Issue) (len : Nat) (kind : OpKind) (dst : GReg) (cls : OpClass) (scope : Option Scope)
    (acq rel vals : Bool) (va : Nat) : Prop :=
  ∃ t o, exec i s = .next t ∧ Issued s t q len kind dst cls scope acq rel vals va o

/-- Room in a class of outstanding operations (R189), and a register that no outstanding operation is to write (R83). -/
def hasRoom (s : State) (c : OpClass) : Prop := s.cur.outstanding c < 32

/-- No outstanding operation is to write a register that the instruction uses as address or data (R83, last row). -/
def settled (s : State) (rs : List GReg) : Prop := ∀ r ∈ rs, s.cur.awaits r = false

/-- An instruction changes nothing of the strand's outstanding operations, registers and control registers, and only strands. -/
structure OnlyGoesOn (s t : State) (q : Issue) (len : Nat) : Prop where
  goes    : GoesOn s t q len
  regs    : AllRegsKeep s.cur t.cur
  pending : PendingKeeps s.cur t.cur
  control : ControlKeeps s.cur t.cur
  frame   : OnlyStrands s t
  others  : OthersKeep s t

end Sys2Proof.Claim

/-! ### Loads, stores and atomics (R209 to R211) -/

/-- ld, ldn and ldl issue a read of the translated address with the arcs of R83 (R209, R210, R83, R201, R189). -/
def Obligations.LoadsIssueTranslated : Prop :=
  ∀ (q : Issue) (d a : GReg) (off : BitVec 9) (far : BitVec 40) (sz : Size) (ord : MemOrd) (s : State) (pa : Nat) (e : TlbEntry),
    settled s [a] → hasRoom s .ld →
    (∀ x : DWord, x = s.cur.reg a + BitVec.ofInt 64 (off.toInt * 2 ^ sizeCode sz) →
      x.toNat < 0x200000000000000 → x.toNat % 2 ^ sizeCode sz = 0 → s.curTranslate .read x.toNat (2 ^ sizeCode sz) = .ok pa e →
      Issues (.ld q d a off sz ord) s q 4 (.load pa (2 ^ sizeCode sz) true (ord = .nt) (pageAttr e)) d .ld none
        (ord = .sync) false true x.toNat ∧
      (sz ≠ .d → Issues (.ldn q d a off sz ord) s q 4 (.load pa (2 ^ sizeCode sz) false (ord = .nt) (pageAttr e)) d .ld none
        (ord = .sync) false true x.toNat)) ∧
    (∀ x : DWord, x = s.cur.reg a + BitVec.ofInt 64 far.toInt →
      x.toNat < 0x200000000000000 → x.toNat % 8 = 0 → s.curTranslate .read x.toNat 8 = .ok pa e →
      Issues (.ldl q d a far) s q 8 (.load pa 8 true false (pageAttr e)) d .ld none false false true x.toNat)

/-- st and stl issue a write of gD, read at issue, to the translated address; st with ORD 1 releases (R209, R210, R83,
R201, R189). -/
def Obligations.StoresIssueTranslated : Prop :=
  ∀ (q : Issue) (d a : GReg) (off : BitVec 9) (far : BitVec 40) (sz : Size) (ord : MemOrd) (s : State) (pa : Nat) (e : TlbEntry),
    settled s [a, d] → hasRoom s .st →
    (∀ x : DWord, x = s.cur.reg a + BitVec.ofInt 64 (off.toInt * 2 ^ sizeCode sz) →
      x.toNat < 0x200000000000000 → x.toNat % 2 ^ sizeCode sz = 0 → s.curTranslate .write x.toNat (2 ^ sizeCode sz) = .ok pa e →
      Issues (.st q d a off sz ord) s q 4 (.store pa (2 ^ sizeCode sz) (s.cur.reg d) (ord = .nt) (pageAttr e)) 0 .st none
        false (ord = .sync) false x.toNat) ∧
    (∀ x : DWord, x = s.cur.reg a + BitVec.ofInt 64 far.toInt →
      x.toNat < 0x200000000000000 → x.toNat % 8 = 0 → s.curTranslate .write x.toNat 8 = .ok pa e →
      Issues (.stl q d a far) s q 8 (.store pa 8 (s.cur.reg d) false (pageAttr e)) 0 .st none false false false x.toNat)

/-- The twelve atomics issue one indivisible operation; scopes elem to sys acquire and release (R211, R91, R94, R83,
R189). -/
def Obligations.AtomicsIssueTranslated : Prop :=
  ∀ (q : Issue) (d a b : GReg) (sc : Scope) (dbl : Bool) (s : State) (pa : Nat) (e : TlbEntry),
    settled s [a, b, d] → hasRoom s .ld →
    (∀ n : Nat, n = (if dbl then 8 else 4) → (s.cur.reg a).toNat % n = 0 →
      s.curTranslate .atomic (s.cur.reg a).toNat n = .ok pa e →
      ∀ (i : Instr) (op : AOp),
        (i, op) ∈ [(Instr.aadd q d a b sc dbl, AOp.add), (.aand q d a b sc dbl, .and), (.aor q d a b sc dbl, .or),
          (.axor q d a b sc dbl, .xor), (.amin q d a b sc dbl, .min), (.amax q d a b sc dbl, .max),
          (.aminn q d a b sc dbl, .minn), (.amaxn q d a b sc dbl, .maxn), (.aswap q d a b sc dbl, .swap),
          (.acas q d a b sc dbl, .cas)] →
        Issues i s q 4 (.atomic op pa n (s.cur.reg b) (s.cur.reg d) (pageAttr e)) d .ld (some sc) (sc ≠ .ctx) (sc ≠ .ctx) true
          (s.cur.reg a).toNat) ∧
    ((s.cur.reg a).toNat % 4 = 0 → s.curTranslate .atomic (s.cur.reg a).toNat 4 = .ok pa e →
      Issues (.afadd q d a b sc) s q 4 (.atomic .fadd pa 4 (s.cur.reg b) (s.cur.reg d) (pageAttr e)) d .ld (some sc)
        (sc ≠ .ctx) (sc ≠ .ctx) true (s.cur.reg a).toNat ∧
      Issues (.abfadd2 q d a b sc) s q 4 (.atomic .bfadd2 pa 4 (s.cur.reg b) (s.cur.reg d) (pageAttr e)) d .ld (some sc)
        (sc ≠ .ctx) (sc ≠ .ctx) true (s.cur.reg a).toNat)

/-- A load, store or atomic with a bad address traps in place of issuing (R209, R211, R199, R201). -/
def Obligations.AccessFaultsArePrecise : Prop :=
  ∀ (q : Issue) (d a b : GReg) (off : BitVec 9) (sz : Size) (ord : MemOrd) (sc : Scope) (s : State) (x : DWord),
    settled s [a, b, d] → hasRoom s .ld → hasRoom s .st → s.cur.atTvec = false →
    (x = s.cur.reg a + BitVec.ofInt 64 (off.toInt * 2 ^ sizeCode sz) →
      (0x200000000000000 ≤ x.toNat →
        (∃ t, exec (.ld q d a off sz ord) s = .next t ∧
          Traps s t s.focus.strand s.cur.pc 0x06 x (BitVec.ofNat 64 (sizeCode sz))) ∧
        (∃ t, exec (.st q d a off sz ord) s = .next t ∧
          Traps s t s.focus.strand s.cur.pc 0x07 x (BitVec.ofNat 64 (sizeCode sz + 4)))) ∧
      (x.toNat < 0x200000000000000 → x.toNat % 2 ^ sizeCode sz ≠ 0 →
        (∃ t, exec (.ld q d a off sz ord) s = .next t ∧
          Traps s t s.focus.strand s.cur.pc 0x03 x (BitVec.ofNat 64 (sizeCode sz))) ∧
        (∃ t, exec (.st q d a off sz ord) s = .next t ∧
          Traps s t s.focus.strand s.cur.pc 0x03 x (BitVec.ofNat 64 (sizeCode sz + 4)))) ∧
      (∀ code det, x.toNat < 0x200000000000000 → x.toNat % 2 ^ sizeCode sz = 0 → code ≠ 0x09 →
        (s.curTranslate .read x.toNat (2 ^ sizeCode sz) = .bad code det →
          ∃ t, exec (.ld q d a off sz ord) s = .next t ∧
            Traps s t s.focus.strand s.cur.pc (BitVec.ofNat 64 code) x (BitVec.ofNat 64 (sizeCode sz))) ∧
        (s.curTranslate .write x.toNat (2 ^ sizeCode sz) = .bad code det →
          ∃ t, exec (.st q d a off sz ord) s = .next t ∧
            Traps s t s.focus.strand s.cur.pc (BitVec.ofNat 64 code) x (BitVec.ofNat 64 (sizeCode sz + 4))))) ∧
    ((s.cur.reg a).toNat % 8 ≠ 0 → ∃ t, exec (.aadd q d a b sc true) s = .next t ∧
      Traps s t s.focus.strand s.cur.pc 0x03 (s.cur.reg a) 7)

/-- The condition of a fence's scope (R91). -/
def Sys2Proof.Claim.scopeHolds (s : State) (sc : Scope) : Prop :=
  match sc with
  | .ctx | .elem | .region | .die => True
  | .dev => ∀ e, e < 8 → (s.clock e).covers s.reqClock = true
  | .sys => (∀ e, e < 8 → (s.clock e).covers s.reqClock = true) ∧ s.hostAccepted s.curDie s.reqSerial = true

/-- A class of `wait` within its count. -/
def Sys2Proof.Claim.withinCount (s : State) (c : OpClass) (n : BitVec 4) : Prop := n.toNat = 15 ∨ s.cur.outstanding c ≤ n.toNat

/-- fence stalls until its scope's condition holds; wait stalls until each class is within its count (R212, R91, R193,
R83, R189). -/
def Obligations.FencesAndWaits : Prop :=
  ∀ (q : Issue) (sc : Scope) (ld st cp tl bk : BitVec 4) (s : State),
    (∃ t, exec (.fence q sc .acquire) s = .next t ∧ GoesOn s t q 4 ∧ AllRegsKeep s.cur t.cur ∧ ControlKeeps s.cur t.cur ∧
      OnlyStrands s t ∧ OthersKeep s t ∧ t.cur.ops = s.cur.ops ∧ t.cur.handles = s.cur.handles ∧
      ∀ o ∈ s.cur.ops, s.opDone s.curDie o = false → o.kind.isRead = true → o.id ∈ t.cur.acqArcs) ∧
    (∀ k, k = FenceKind.full ∨ k = FenceKind.release →
      ((∀ o ∈ s.cur.ops, s.opDone s.curDie o = true) → scopeHolds s sc →
        ∃ t, exec (.fence q sc k) s = .next t ∧ OnlyGoesOn s t q 4) ∧
      ((∃ o ∈ s.cur.ops, s.opDone s.curDie o = false) → exec (.fence q sc k) s = .next s)) ∧
    ((withinCount s .ld ld ∧ withinCount s .st st ∧ withinCount s .cp cp ∧ withinCount s .tl tl ∧ withinCount s .bk bk) →
      ∃ t, exec (.wait q ld st cp tl bk) s = .next t ∧ OnlyGoesOn s t q 4) ∧
    (¬ (withinCount s .ld ld ∧ withinCount s .st st ∧ withinCount s .cp cp ∧ withinCount s .tl tl ∧ withinCount s .bk bk) →
      exec (.wait q ld st cp tl bk) s = .next s)

/-- The word of R314 for a task: TASK, STATUS once it has failed or fails, ARCS up to 65,535, STATE. -/
def Sys2Proof.Claim.taskWordIs (s : State) (k : Task) (v : DWord) : Prop :=
  v = BitVec.ofNat 64 (k.no % 0x1000000 * 0x10000000000 + (if k.st = .failed ∨ k.st = .retiring then k.status % 256 else 0) * 0x100000000 +
    min 65535 (k.arcs.length + (s.tasks.breaks.filter fun b => decide (b.task = k.no)).length) * 0x10000 +
    match k.st with
    | .waiting => 0 | .ready => 1 | .running => 2 | .preempted => 3 | .retiring => 4 | .retired => 5 | .failed => 6)

/-- The word of R204 for a read of a page at pa. -/
def Sys2Proof.Claim.homeFields (pa : Nat) (leaf : DWord) : DWord :=
  if leafPlace leaf = 3 then 0x1000
  else BitVec.ofNat 64 ((if leafPlace leaf = 1 then 0x800 else 0) + (if leafPlace leaf = 2 then 0x400 else 0) +
    (if leafMs leaf then 0x200 else 0) + homeSlice pa * 8 + homeDie pa)

/-- home, place, tstat and strmc complete, each with one operation of class LD for gD, which then performs with its
value (R204, R276, R314, R215, R189, R83). -/
def Obligations.ValueOperationsCompleteInLd : Prop :=
  ∀ (q : Issue) (d a b : GReg) (s : State),
    -- they complete
    (hasRoom s .ld → ∀ x : Nat, x = (s.cur.reg a).toNat →
      (∀ pa e, s.curTranslate .read x 1 = .ok pa e → ∃ t o, exec (.home q d a) s = .next t ∧
        Issued s t q 4 (.value (if homeAbsent s e (!s.cur.sup) then 0x8000000000000000 else homeFields pa e.leaf))
          d .ld none false false true x o) ∧
      (∀ c det, s.curTranslate .read x 1 = .bad c det → ∃ t o v, exec (.home q d a) s = .next t ∧
        Issued s t q 4 (.value v) d .ld none false false true x o ∧
        (∀ e, x < 0x200000000000000 → s.curEntry x = some e → v = if homeAbsent s e (!s.cur.sup) then 0x8000000000000000
          else homeFields (leafFrame e.leaf + (x - e.va)) e.leaf) ∧
        ((0x200000000000000 ≤ x ∨ s.curEntry x = none) → v = 0x8000000000000000)) ∧
      (s.curTranslate .read x 1 = .miss → ∃ t, exec (.home q d a) s = .next t ∧ t.cur.pc = s.cur.pc ∧ t.cur.ops = s.cur.ops ∧
        t.mem = s.mem)) ∧
    (hasRoom s .ld → settled s [a, b] → ∃ t o, exec (.place q d a b) s = .next t ∧
      Issued s t q 4 (.place (s.cur.reg a).toNat (s.cur.reg b)) d .ld none false false true 0 o) ∧
    (hasRoom s .ld → settled s [a] → ∃ t o, exec (.tstat q d a) s = .next t ∧ ∃ k : OpKind,
      Issued s t q 4 k d .ld none false false true 0 o ∧
      (s.cur.reg a = 0 → k = .taskWord none) ∧
      (∀ h x p, s.cur.reg a ≠ 0 → s.cur.lookupHandle s.focus.strand (s.cur.reg a) = some h → h.kind = .launch x p →
        k = .taskWord (some h.cmd)) ∧
      (∀ h, s.cur.reg a ≠ 0 → s.cur.lookupHandle s.focus.strand (s.cur.reg a) = some h → (∀ x p, h.kind ≠ .launch x p) →
        k = .value 7) ∧
      (s.cur.reg a ≠ 0 → named s (s.cur.reg a) = none → k = .value 7)) ∧
    (hasRoom s .ld → settled s [a] → ∃ t o, exec (.strmc q d a) s = .next t ∧ ∃ k : OpKind,
      Issued s t q 4 k d .ld none false false true 0 o ∧
      (∀ h w x y, s.cur.lookupHandle s.focus.strand (s.cur.reg a) = some h → h.st = .busy → h.kind = .strm w x y →
        k = .stop h.cmd) ∧
      (∀ h, s.cur.lookupHandle s.focus.strand (s.cur.reg a) = some h → (h.st ≠ .busy ∨ ∀ w x y, h.kind ≠ .strm w x y) →
        k = .value (BitVec.ofNat 64 h.count)) ∧
      (named s (s.cur.reg a) = none → k = .value 0)) ∧
    -- their operations perform
    (∀ (n ev : Nat) (o : Op), s.op n ev = some o → s.mayPerform n o = true →
      (∀ v, o.kind = .value v → ∃ t, exec (.orderReadPerform n ev) s = .next t ∧ t.op n ev = some { o with result := some v } ∧
        t.mem = s.mem) ∧
      (∀ c, o.kind = .taskWord c → ∃ t v, exec (.orderReadPerform n ev) s = .next t ∧
        t.op n ev = some { o with result := some v } ∧ t.mem = s.mem ∧ t.tasks = s.tasks ∧
        (∀ no k, c = none → (s.strand n).task = some no → s.taskNo no = some k → taskWordIs s k v) ∧
        (c = none → (s.strand n).task = none → v = 7) ∧
        (∀ id k, c = some id → (s.tasks.tasks.find? fun k => decide (k.launch = some id)) = some k → taskWordIs s k v) ∧
        (∀ id, c = some id → (∀ k ∈ s.tasks.tasks, k.launch ≠ some id) → v = 7)) ∧
      (∀ id c, o.kind = .stop id → s.cmd id = some c → c.ended ≠ none → ∃ t, exec (.orderReadPerform n ev) s = .next t ∧
        t.op n ev = some { o with result := some (BitVec.ofNat 64 c.count) } ∧ t.engs = s.engs ∧ t.mem = s.mem) ∧
      (∀ id c, o.kind = .stop id → s.cmd id = some c → c.ended = none →
        ∃ t k v, exec (.orderReadPerform n ev) s = .next t ∧ t.op n ev = some { o with result := some v } ∧
          t.cmd id = some k ∧ k.ended = some 0 ∧ v = BitVec.ofNat 64 k.count)) ∧
    (∀ (n ev : Nat) (o : Op) (v : DWord), s.op n ev = some o → o.result = some v → s.opDone (dieOf n) o = true →
      ∃ t, exec (.loadComplete n ev) s = .next t ∧ (t.strand n).reg o.dst = (if o.dst = 0 then 0 else v) ∧
        ∀ r, r ≠ o.dst → (t.strand n).reg r = (s.strand n).reg r)

/-- clean, inval, flush and discard issue an operation of class ST on their range; pref waits for nothing; phase and
evsch count in ST (R213, R217, R189, R199). -/
def Obligations.CacheMaintenanceIssues : Prop :=
  ∀ (q : Issue) (a b : GReg) (s : State), settled s [a, b] → hasRoom s .st →
    (∀ n : Nat, n = (s.cur.reg b).toNat % 0x10000000000 →
      (n = 0 → ∀ i ∈ [Instr.clean q a b, .inval q a b, .flush q a b], ∃ t, exec i s = .next t ∧ OnlyGoesOn s t q 4) ∧
      (n = 0 → (s.cur.reg a).toNat % 64 = 0 → ∃ t, exec (.discard q a b) s = .next t ∧ OnlyGoesOn s t q 4) ∧
      (n ≠ 0 →
        Issues (.clean q a b) s q 4 (.cmo 0 (!s.cur.sup) (s.cur.reg a).toNat n) 0 .st none false false false (s.cur.reg a).toNat ∧
        Issues (.inval q a b) s q 4 (.cmo 1 (!s.cur.sup) (s.cur.reg a).toNat n) 0 .st none false false false (s.cur.reg a).toNat ∧
        Issues (.flush q a b) s q 4 (.cmo 2 (!s.cur.sup) (s.cur.reg a).toNat n) 0 .st none false false false (s.cur.reg a).toNat ∧
        ((s.cur.reg a).toNat % 64 = 0 → n % 64 = 0 →
          Issues (.discard q a b) s q 4 (.cmo 3 (!s.cur.sup) (s.cur.reg a).toNat n) 0 .st none false false false
            (s.cur.reg a).toNat)) ∧
      (((s.cur.reg a).toNat % 64 ≠ 0 ∨ n % 64 ≠ 0) → s.cur.atTvec = false → ∃ t, exec (.discard q a b) s = .next t ∧
        Traps s t s.focus.strand s.cur.pc 0x03 (s.cur.reg a) 0)) ∧
    (∃ t, exec (.pref q a b) s = .next t ∧ GoesOn s t q 4 ∧ AllRegsKeep s.cur t.cur ∧ t.cur.ops = s.cur.ops) ∧
    Issues (.phase q a) s q 4 (.phase ((s.cur.reg a).toNat % 64)) 0 .st none false false false 0 ∧
    (s.cur.sup = true → (s.cur.reg a).toNat % 256 = 0 → ∀ pa e, s.curTranslate .read (s.cur.reg a).toNat 256 = .ok pa e →
      Issues (.evsch q a b) s q 4 (.evsch ((s.cur.reg b).toNat % 64) pa (pageAttr e)) 0 .st none false false false (s.cur.reg a).toNat)

namespace Sys2Proof.Claim

/-- Slot k is unused or has completed (R190). -/
def slotFree (s : State) (k : Nat) : Prop :=
  k < 64 ∧ ∀ h, (s.cur.handles.find? fun h => h.slot = k) = some h → h.st ≠ .busy

/-- The lowest-numbered slot that is unused or has completed (R190, R347). -/
def lowestFree (s : State) (k : Nat) : Prop := slotFree s k ∧ ∀ j, j < k → ¬ slotFree s j

/-- The generation of the next use of a slot (R347): 1, then one more each time, 1 again after 65,535. -/
def genOf (s : State) (k : Nat) : Nat :=
  match s.cur.handles.find? fun h => h.slot = k with
  | none => 1
  | some h => if h.gen.toNat = 65535 then 1 else h.gen.toNat + 1

/-- What accepting a command leaves alone: all but the acting strand, its core's record of the issue, and the list of commands. -/
structure CommandFrame (s t : State) (d : GReg) (k : Nat) : Prop where
  cycle  : t.cycle = s.cycle
  agenda : t.agenda = s.agenda
  inputs : t.inputs = s.inputs
  focus  : t.focus = s.focus
  mem    : t.mem = s.mem
  fab    : t.fab = s.fab
  ports  : t.ports = s.ports
  tasks  : t.tasks = s.tasks
  ctxs   : t.ctxs = s.ctxs
  routes : t.routes = s.routes
  outer  : t.outer = s.outer
  walks  : t.seqs.tlbs = s.seqs.tlbs ∧ t.seqs.walks = s.seqs.walks ∧ t.seqs.queued = s.seqs.queued ∧ t.seqs.answers = s.seqs.answers
  regs   : RegsKeep d s.cur t.cur
  ops    : t.cur.ops = s.cur.ops ∧ t.cur.acqArcs = s.cur.acqArcs
  slots  : ∀ h : Handle, h.slot ≠ k → (h ∈ t.cur.handles ↔ h ∈ s.cur.handles)
  control : ControlKeeps s.cur t.cur
  others : OthersKeep s t

/-- gD takes the handle of the slot (R190): DIE, STRAND, SLOT and GEN of the command; the slot holds the command with that
state. -/
structure HandleGiven (s t : State) (d : GReg) (k : Nat) (kind : CmdKind) (cls : OpClass) (st : HandleState) : Prop where
  value : t.cur.reg d = if d = 0 then 0 else
            BitVec.ofNat 64 (genOf s k * 65536 + s.focus.strand / 64 * 8192 + handleStrand s.focus.strand * 256 + k)
  slot  : (⟨k, BitVec.ofNat 16 (genOf s k), s.serial, kind, cls, st, 0, 0⟩ : Handle) ∈ t.cur.handles
  one   : ∀ h ∈ t.cur.handles, h.slot = k → h = ⟨k, BitVec.ofNat 16 (genOf s k), s.serial, kind, cls, st, 0, 0⟩

/-- A command accepted from the acting strand (R88, R190): it is busy in the lowest free slot, carries the strand's context,
ASID, mode and task, and has an arc from every earlier event of the strand that has not performed. -/
structure Accepted (s t : State) (d : GReg) (k : Nat) (kind : CmdKind) (cls : OpClass) : Prop where
  handle : HandleGiven s t d k kind cls .busy
  listed : ∃ c : Cmd, t.engs = { s.engs with cmds := s.engs.cmds ++ [c] } ∧ c.id = s.serial ∧ c.kind = kind ∧
             c.strand = s.focus.strand ∧ c.slot = some k ∧ c.die = s.curDie ∧ c.ctx = s.cur.ctx ∧ c.asid = s.cur.asid ∧
             c.user = !s.cur.sup ∧ c.task = s.cur.task ∧ c.ended = none ∧ c.began = false ∧ s.cycle < c.due ∧
             (∀ o ∈ s.cur.ops, s.opDone s.curDie o = false → o.id ∈ c.deps) ∧ ∀ i ∈ s.cur.acqArcs, i ∈ c.deps
  frame  : CommandFrame s t d k

/-- An instruction that hands a command to a unit of the machine. -/
def Commands (i : Instr) (s : State) (q : Issue) (d : GReg) (k : Nat) (kind : CmdKind) (cls : OpClass) : Prop :=
  ∃ t, exec i s = .next t ∧ GoesOn s t q 4 ∧ Accepted s t d k kind cls

/-- An instruction whose command has nothing to do: its handle reads done, and no unit is handed anything. -/
def EmptyCommand (i : Instr) (s : State) (q : Issue) (d : GReg) (k : Nat) (kind : CmdKind) (cls : OpClass) : Prop :=
  ∃ t, exec i s = .next t ∧ GoesOn s t q 4 ∧ HandleGiven s t d k kind cls .done ∧ t.engs = s.engs ∧ CommandFrame s t d k

end Sys2Proof.Claim

/-- copy, fill, rowcp, rowzero and the five bank additions give gD a handle of the lowest free slot; length 0 is done
at once (R216, R255, R190, R347, R88). -/
def Obligations.CopyAndBankCommandsGiveHandles : Prop :=
  ∀ (q : Issue) (d a b c : GReg) (k : Nat) (s : State), settled s [a, b, c, c + 1] → lowestFree s k →
    (∀ n : Nat, n = (s.cur.reg c).toNat →
      (n ≠ 0 → Commands (.copy q d a b c) s q d k (.copy (s.cur.reg a).toNat (s.cur.reg b).toNat n) .cp ∧
        Commands (.fill q d a b c) s q d k (.fill (s.cur.reg a).toNat n (s.cur.reg b)) .cp) ∧
      (n = 0 → EmptyCommand (.copy q d a b c) s q d k (.copy (s.cur.reg a).toNat (s.cur.reg b).toNat n) .cp ∧
        EmptyCommand (.fill q d a b c) s q d k (.fill (s.cur.reg a).toNat n (s.cur.reg b)) .cp)) ∧
    (∀ n : Nat, n = (s.cur.reg (c + 1)).toNat % 0x10000000000 →
      ∀ (i : Instr) (sub : Nat), (i, sub) ∈ [(Instr.bfadd q d a b c, 0), (.bfmul q d a b c, 1), (.iadd32 q d a b c, 2),
          (.fadd32 q d a b c, 3), (.bfmax q d a b c, 4)] →
        (n ≠ 0 → Commands i s q d k
          (.bankop sub (s.cur.reg a).toNat (s.cur.reg b).toNat (s.cur.reg c).toNat n) .bk) ∧
        (n = 0 → EmptyCommand i s q d k
          (.bankop sub (s.cur.reg a).toNat (s.cur.reg b).toNat (s.cur.reg c).toNat n) .bk)) ∧
    (∀ n : Nat, n = (s.cur.reg c).toNat % 0x10000000000 →
      (n ≠ 0 → Commands (.rowcp q d a b c) s q d k (.rowcp (s.cur.reg a).toNat (s.cur.reg b).toNat n) .cp) ∧
      (n = 0 → EmptyCommand (.rowcp q d a b c) s q d k (.rowcp (s.cur.reg a).toNat (s.cur.reg b).toNat n) .cp)) ∧
    (∀ n : Nat, n = (s.cur.reg b).toNat % 0x10000000000 →
      (n ≠ 0 → Commands (.rowzero q d a b) s q d k (.rowzero (s.cur.reg a).toNat n) .cp) ∧
      (n = 0 → EmptyCommand (.rowzero q d a b) s q d k (.rowzero (s.cur.reg a).toNat n) .cp))

/-- strm, strmw, cfgld, gcall, launch and sweep give gD a handle and list their command in class TL (R214, R215, R277,
R294, R312, R369, R190, R347, R88). -/
def Obligations.RegionCommandsGiveHandles : Prop :=
  ∀ (q : Issue) (d a b c : GReg) (s : State),
    (∀ k, settled s [a, b, c] → lowestFree s k →
      Commands (.strm q d a b) s q d k (.strm false (s.cur.reg a).toNat (s.cur.reg b)) .tl ∧
      Commands (.strmw q d a b) s q d k (.strm true (s.cur.reg a).toNat (s.cur.reg b)) .tl ∧
      Commands (.cfgld q d a b c) s q d k (.cfgld (s.cur.reg a).toNat (s.cur.reg b) (s.cur.reg c).toNat) .tl ∧
      Commands (.gcall q d a b) s q d k (.gcall (s.cur.reg a) (s.cur.reg b).toNat) .tl ∧
      Commands (.launch q d a) s q d k (.launch (s.cur.reg a).toNat s.cur.prio.toNat) .tl ∧
      Commands (.sweep q d a b) s q d k (.sweep (s.cur.reg a).toNat (s.cur.reg b)) .tl) ∧
    ((∀ k, ¬ slotFree s k) ∨ s.cur.awaits a = true →
      ∀ i ∈ [Instr.strm q d a b, .strmw q d a b, .cfgld q d a b c, .gcall q d a b, .launch q d a, .sweep q d a b],
        exec i s = .next s)

namespace Sys2Proof.Claim

/-- An object instruction of the acting strand stands at issue with everything it waits for (R325, R329, R341): it has begun
nothing and is parked nowhere, its registers await no outstanding value, every earlier event has performed, gA is aligned to n
and translates as an atomic to pa, on a page that is no MS page, whose key shows those bytes and the ranges `also`, with no
uncorrected error in them and no line of them that the host holds; pa can be reached, and, where the step releases, every die
covers the clock of its own. No other party is parked at pa, and the cells of the home image are in their canonical form. -/
structure AtHome (s : State) (a : GReg) (extra : List GReg) (n pa : Nat) (also : List (Nat × Nat)) (release : Bool) : Prop where
  fresh   : s.cur.got = none ∧ s.cur.progress = none ∧ ∀ w ∈ s.ports.parked, w.party ≠ .strand s.focus.strand
  regs    : settled s (a :: extra)
  arcs    : ∀ o ∈ s.cur.ops, s.opDone s.curDie o = true
  aligned : (s.cur.reg a).toNat % n = 0
  maps    : ∃ e, s.curTranslate .atomic (s.cur.reg a).toNat n = .ok pa e ∧ (pageAttr e).ms = false ∧
              s.ownedIn (pageAttr e) pa n = none ∧ ∀ r ∈ (pa, n) :: also, KeyShows s (pageAttr e) r.1 r.2
  clean   : s.spoilt s.curDie (some (coreOf s.focus.strand)) pa n = false
  device  : pa + 64 ≤ 0x8000000000000
  reach   : s.reachPa s.curDie pa = .open_
  covers  : release = true → ∀ e, e < 8 → (s.clock e).covers (s.clock s.curDie) = true
  alone   : ∀ w ∈ s.ports.parked, w.pa ≠ pa
  canon   : Memory.wf (s.image (homeDie pa)).mem = true

/-- What an object instruction leaves alone when no other party is parked at its object: the acting strand but for its place in
the program and the registers named, and everything outside memory, its caches, other strands and the records of the ports. -/
structure ObjectFrame (s t : State) (q : Issue) (ds : List GReg) : Prop where
  goes    : GoesOn s t q 4
  regs    : ∀ x, x ∉ ds → t.cur.reg x = s.cur.reg x
  pending : PendingKeeps s.cur t.cur
  status  : t.cur.status = s.cur.status ∧ t.cur.run = s.cur.run ∧ t.cur.ctx = s.cur.ctx ∧ t.cur.tvec = s.cur.tvec ∧
              t.cur.epc = s.cur.epc
  machine : t.cycle = s.cycle ∧ t.fab = s.fab ∧ t.engs = s.engs ∧ t.tasks = s.tasks ∧ t.ctxs = s.ctxs ∧
              t.routes = s.routes ∧ t.outer = s.outer ∧ t.ports.parked = s.ports.parked

/-- Every byte outside the ranges given reads as before in the image of die h, and every byte in the other images. -/
def OnlyBytes (s t : State) (h : Nat) (ranges : List (Nat × Nat)) : Prop :=
  (∀ x, (∀ r ∈ ranges, x < r.1 ∨ r.1 + r.2 ≤ x) → t.byteAt h x = s.byteAt h x) ∧
  ∀ e, e < 8 → e ≠ h → ∀ x, t.byteAt e x = s.byteAt e x

/-- A value written to gD by the form, at once. -/
def takes (t : State) (d : GReg) (v : DWord) : Prop := t.cur.reg d = if d = 0 then 0 else v

/-- A queue ready for an element of n = 4 or 8 bytes: its block is sound (R323), not CORRUPT, of element size n, its ring slot i
(physical address `slotPa`) is device memory and shares no byte with the block. -/
structure RingReady (s : State) (pa n i : Nat) : Prop where
  sound : (s.qblock (homeDie pa) pa).unsound pa = 0
  live  : (s.qblock (homeDie pa) pa).corrupt = false
  size  : (s.qblock (homeDie pa) pa).esize = n ∧ (n = 4 ∨ n = 8)
  apart : (s.qblock (homeDie pa) pa).slotPa i + n ≤ 0x8000000000000 ∧
            ((s.qblock (homeDie pa) pa).slotPa i + n ≤ pa ∨ pa + 64 ≤ (s.qblock (homeDie pa) pa).slotPa i)

end Sys2Proof.Claim

/-! ### Queues and barriers (R325 to R342) -/

/-- An open queue takes an element: the block's new indices and the slot's bytes. -/
structure Sys2Proof.Claim.Enqueued (s t : State) (pa n : Nat) (v : DWord) (b : QBlock) : Prop where
  slot   : t.valAt (homeDie pa) (b.slotPa b.tail) n = v.toNat % 2 ^ (8 * n)
  tail   : (t.qblock (homeDie pa) pa).tail = (b.tail + 1) % 0x100000000
  free   : (t.qblock (homeDie pa) pa).free = b.free - 1
  enqs   : (t.qblock (homeDie pa) pa).enqs = (b.enqs + 1) % 0x10000000000000000
  head   : (t.qblock (homeDie pa) pa).head = b.head ∧ (t.qblock (homeDie pa) pa).deqs = b.deqs
  static : (t.qblock (homeDie pa) pa).ctl = b.ctl ∧ (t.qblock (homeDie pa) pa).ring = b.ring ∧
             (t.qblock (homeDie pa) pa).mode = b.mode ∧ (t.qblock (homeDie pa) pa).pring = b.pring
  bytes  : OnlyBytes s t (homeDie pa) [(pa, 64), (b.slotPa b.tail, n)]

/-- enq and tenq put gB at the TAIL slot of the home die's ring; TAIL and ENQS rise, FREE falls; a full or closed
queue answers tenq 1 or 2 (R325, R328, R329, R330, R94). -/
def Obligations.EnqueuePutsAtTail : Prop :=
  ∀ (q : Issue) (d a b : GReg) (s : State) (pa n : Nat) (k : QBlock), k = s.qblock (homeDie pa) pa →
    AtHome s a [b] 64 pa [(k.slotPa k.tail, n)] true → RingReady s pa n k.tail →
    (s.qblock s.curDie pa).esize = n → (s.qblock s.curDie pa).pmode ≠ 2 →
    (k.closed = false → 1 ≤ k.free →
      (s.curDie = homeDie pa →
        (∃ t, exec (.enq q a b) s = .next t ∧ Enqueued s t pa n (s.cur.reg b) k ∧ ObjectFrame s t q []) ∧
        (∃ t, exec (.tenq q d a b) s = .next t ∧ Enqueued s t pa n (s.cur.reg b) k ∧ takes t d 0 ∧ ObjectFrame s t q [d])) ∧
      (s.curDie ≠ homeDie pa → ∃ t, exec (.enq q a b) s = .next t ∧ Enqueued s t pa n (s.cur.reg b) k ∧
        ((t.clock s.curDie).covers (t.clock (homeDie pa)) = true → ObjectFrame s t q []) ∧
        ((t.clock s.curDie).covers (t.clock (homeDie pa)) = false → t.cur.pc = s.cur.pc ∧ (∀ x, t.cur.reg x = s.cur.reg x) ∧
          t.cur.got = some (.value 0 [] (some (t.clock (homeDie pa))))))) ∧
    (k.closed = false → k.free = 0 →
      ∃ t, exec (.tenq q d a b) s = .next t ∧ takes t d 1 ∧ ObjectFrame s t q [d] ∧ t.mem = s.mem) ∧
    (k.closed = true →
      (∃ t, exec (.tenq q d a b) s = .next t ∧ takes t d 2 ∧ ObjectFrame s t q [d] ∧ t.mem = s.mem) ∧
      (s.cur.atTvec = false → ∃ t, exec (.enq q a b) s = .next t ∧
        t.mem = s.mem ∧ t.cur.pc = s.cur.tvec ∧ t.cur.epc = s.cur.pc ∧ t.cur.ecause = 0x0B ∧ t.cur.eaddr = s.cur.reg a))

/-- A queue that is not empty gives up the element at HEAD. -/
structure Sys2Proof.Claim.Dequeued (s t : State) (pa : Nat) (b : QBlock) : Prop where
  head   : (t.qblock (homeDie pa) pa).head = (b.head + 1) % 0x100000000
  free   : (t.qblock (homeDie pa) pa).free = (b.free + 1) % 0x100000000
  deqs   : (t.qblock (homeDie pa) pa).deqs = (b.deqs + 1) % 0x10000000000000000
  tail   : (t.qblock (homeDie pa) pa).tail = b.tail ∧ (t.qblock (homeDie pa) pa).enqs = b.enqs
  static : (t.qblock (homeDie pa) pa).ctl = b.ctl ∧ (t.qblock (homeDie pa) pa).ring = b.ring ∧
             (t.qblock (homeDie pa) pa).mode = b.mode ∧ (t.qblock (homeDie pa) pa).pring = b.pring
  bytes  : OnlyBytes s t (homeDie pa) [(pa, 64)]

/-- deq and tdeq take the element at HEAD, zero-extended; HEAD, FREE and DEQS rise; an empty queue answers tdeq 1, or
2 when closed (R325, R329, R331). -/
def Obligations.DequeueTakesFromHead : Prop :=
  ∀ (q : Issue) (d a b c : GReg) (s : State) (pa n : Nat) (k : QBlock),
    k = s.qblock (homeDie pa) pa → AtHome s a [b] 64 pa [(k.slotPa k.head, n)] false → s.curDie = homeDie pa →
    RingReady s pa n k.head → k.cmode ≠ 2 →
    (k.count ≠ 0 →
      (∃ t, exec (.deq q d a b) s = .next t ∧ Dequeued s t pa k ∧ ObjectFrame s t q [d] ∧
        takes t d (BitVec.ofNat 64 (s.valAt (homeDie pa) (k.slotPa k.head) n))) ∧
      (∃ t, exec (.tdeq q d a b c) s = .next t ∧ Dequeued s t pa k ∧ ObjectFrame s t q [d, c] ∧
        takes t c (BitVec.ofNat 64 (s.valAt (homeDie pa) (k.slotPa k.head) n)) ∧ (d ≠ c → takes t d 0))) ∧
    (k.count = 0 →
      ∃ t, exec (.tdeq q d a b c) s = .next t ∧ takes t d (if k.closed then 2 else 1) ∧ ObjectFrame s t q [d] ∧ t.mem = s.mem)

/-- qinit opens an empty ring, qstat gives the state of a block, qdrain closes and opens it (R323, R332, R333, R334).
-/
def Obligations.QueueControlForms : Prop :=
  ∀ (q : Issue) (d a b : GReg) (s : State) (pa : Nat) (k : QBlock), k = s.qblock (homeDie pa) pa →
    (∀ rpa e, AtHome s a [] 64 pa [] true → s.curDie = homeDie pa → k.badField = none → k.home = homeDie pa → k.pmode ≠ 2 →
      s.curTranslate .atomic k.ring 1 = .ok rpa e →
      k.ring + k.esize * k.cap ≤ e.va + e.size → leafPlace e.leaf = 0 → leafFrame e.leaf / 0x8000000000 = k.home →
      ∃ t, exec (.qinit q d a) s = .next t ∧ takes t d 0 ∧ ObjectFrame s t q [d] ∧
        OnlyBytes s t (homeDie pa) [(pa, 64)] ∧
        t.qblock (homeDie pa) pa = { k with head := 0, tail := 0, free := k.cap, mode := k.mode % 0x40000000, chk := k.check,
                                            pring := rpa, enqs := 0, deqs := 0 }) ∧
    (AtHome s a [] 64 pa [] false → k.unsound pa = 0 →
      ∃ t, exec (.qstat q d a) s = .next t ∧ ObjectFrame s t q [d] ∧ t.mem = s.mem ∧
        takes t d (BitVec.ofNat 64 (k.mode / 0x80000000 % 2 * 0x8000000000000000 + k.mode / 0x40000000 % 2 * 0x4000000000000000 + k.mode % 8 * 0x2000000000 +
          k.ctl / 0x10000 % 32 * 0x100000000 + k.count))) ∧
    (AtHome s a [b] 64 pa [] true → s.curDie = homeDie pa → k.unsound pa = 0 → k.corrupt = false →
      (s.cur.reg b = 0 → ∃ t, exec (.qdrain q d a b) s = .next t ∧ takes t d (BitVec.ofNat 64 (k.count * 0x100000000)) ∧
        ObjectFrame s t q [d] ∧ OnlyBytes s t (homeDie pa) [(pa, 64)] ∧
        (t.qblock (homeDie pa) pa).mode = k.mode % 0x40000000 + 0x40000000 ∧ (t.qblock (homeDie pa) pa).head = k.head ∧
        (t.qblock (homeDie pa) pa).tail = k.tail) ∧
      (s.cur.reg b = 1 → ∃ t, exec (.qdrain q d a b) s = .next t ∧ takes t d (BitVec.ofNat 64 (k.count * 0x100000000)) ∧
        ObjectFrame s t q [d] ∧ OnlyBytes s t (homeDie pa) [(pa, 64)] ∧
        (t.qblock (homeDie pa) pa).mode = k.mode % 0x40000000 ∧ (t.qblock (homeDie pa) pa).head = k.head ∧
        (t.qblock (homeDie pa) pa).tail = k.tail) ∧
      (3 ≤ (s.cur.reg b).toNat → (s.cur.sup = true ∨ (s.cur.reg b).toNat % 4 ≠ 2) →
        ∃ t, exec (.qdrain q d a b) s = .next t ∧ takes t d (BitVec.ofNat 64 (k.count * 0x100000000 + 3)) ∧
          ObjectFrame s t q [d] ∧ t.mem = s.mem))

/-- A sound word of a barrier that the acting strand may arrive at. -/
structure Sys2Proof.Claim.Arrives (s : State) (pa : Nat) (w : BWord) : Prop where
  word    : w = s.bword (homeDie pa) pa
  sound   : w.sound pa = true ∧ w.poisoned = false
  allowed : (w.scope = 0 ∨ w.scope = 2) → s.curDie = homeDie pa

/-- An arrival of barr or barw counts, and the last one completes the phase and releases its waiter (R338, R340,
R342). -/
def Obligations.ArrivalsCountAndComplete : Prop :=
  ∀ (q : Issue) (d a : GReg) (s : State) (pa : Nat) (w : BWord),
    (AtHome s a [] 16 pa [] true → Arrives s pa w →
      (w.arrived + 1 < w.count → ∃ t, exec (.barr q d a) s = .next t ∧ takes t d (BitVec.ofNat 64 w.phase) ∧
        ObjectFrame s t q [d] ∧ OnlyBytes s t (homeDie pa) [(pa, 16)] ∧
        t.bword (homeDie pa) pa = { w with arrived := w.arrived + 1 }) ∧
      (w.arrived + 1 = w.count →
        (∃ t, exec (.barr q d a) s = .next t ∧ takes t d (BitVec.ofNat 64 w.phase) ∧
          ObjectFrame s t q [d] ∧ OnlyBytes s t (homeDie pa) [(pa, 16)] ∧
          t.bword (homeDie pa) pa = { w with arrived := 0, phase := (w.phase + 1) % 0x100000000 }) ∧
        (s.curDie = homeDie pa → ∃ t, exec (.barw q d a) s = .next t ∧ takes t d (BitVec.ofNat 64 w.phase) ∧
          ObjectFrame s t q [d] ∧ OnlyBytes s t (homeDie pa) [(pa, 16)] ∧
          t.bword (homeDie pa) pa = { w with arrived := 0, phase := (w.phase + 1) % 0x100000000 }))) ∧
    (∀ (p : Parked) (n : Nat), p.pa = pa → p.side = .barrier → p.party = .strand n → n ≠ s.focus.strand →
      ∀ (others : List Parked) (s0 : State), s.ports.parked = p :: others → s0 = { s with ports := { s.ports with parked := others } } →
        AtHome s0 a [] 16 pa [] true → Arrives s0 pa w → w.arrived + 1 = w.count →
        ∃ t, exec (.barr q d a) s = .next t ∧ takes t d (BitVec.ofNat 64 w.phase) ∧ t.ports.parked = others ∧
          (t.strand n).got = some (.value p.value [] (some (t.clock (homeDie pa))))) ∧
    (AtHome s a [] 16 pa [] true → w = s.bword (homeDie pa) pa → w.sound pa = true → w.poisoned = false →
      (w.scope = 0 ∨ w.scope = 2) → s.curDie ≠ homeDie pa → s.cur.atTvec = false →
        ∃ t, exec (.barr q d a) s = .next t ∧ t.mem = s.mem ∧ t.cur.pc = s.cur.tvec ∧ t.cur.epc = s.cur.pc ∧
          t.cur.ecause = 0x08 ∧ t.cur.eaddr = s.cur.reg a ∧ t.cur.einfo = 16)

/-- binit opens a barrier, bwait of a past phase and bquery give its state, bpoison poisons it (R339, R340, R342). -/
def Obligations.BarrierControlForms : Prop :=
  ∀ (q : Issue) (d a b : GReg) (s : State) (pa : Nat) (w : BWord), w = s.bword (homeDie pa) pa →
    (∀ n : Nat, n = (s.cur.reg b).toNat → AtHome s a [b] 16 pa [] true →
      (1 ≤ n % 0x200000 → n % 0x200000 ≤ 1048576 → n / 0x4000000 = 0 → n / 0x200000 % 8 = 0 →
        ∃ t, exec (.binit q d a b) s = .next t ∧ takes t d 0 ∧ ObjectFrame s t q [d] ∧
          OnlyBytes s t (homeDie pa) [(pa, 16)] ∧
          t.bword (homeDie pa) pa = ⟨0, n % 0x200000, 0, homeDie pa * 4 + n / 0x1000000 % 4⟩) ∧
      ((n % 0x200000 = 0 ∨ 1048576 < n % 0x200000 ∨ n / 0x4000000 ≠ 0 ∨ n / 0x200000 % 8 ≠ 0) →
        ∃ t, exec (.binit q d a b) s = .next t ∧ takes t d 1 ∧ ObjectFrame s t q [d] ∧ t.mem = s.mem)) ∧
    (s.curDie = homeDie pa → w.sound pa = true →
      (AtHome s a [b] 16 pa [] false → w.poisoned = false →
        ((s.cur.reg b).toNat % 0x100000000 ≠ w.phase →
          ∃ t, exec (.bwait q d a b) s = .next t ∧ takes t d (BitVec.ofNat 64 w.phase) ∧ ObjectFrame s t q [d] ∧
            t.mem = s.mem) ∧
        ((s.cur.reg b).toNat % 0x100000000 = w.phase →
          ∃ t, exec (.bwait q d a b) s = .next t ∧ t.mem = s.mem ∧ t.cur.pc = s.cur.pc ∧
            ∃ p, t.ports.parked = s.ports.parked ++ [p] ∧ p.party = .strand s.focus.strand ∧ p.pa = pa ∧
              p.side = .barrier ∧ p.value.toNat = (w.phase + 1) % 0x100000000)) ∧
      (AtHome s a [] 16 pa [] false →
        ∃ t, exec (.bquery q d a) s = .next t ∧ ObjectFrame s t q [d] ∧ t.mem = s.mem ∧
          takes t d (BitVec.ofNat 64 (w.flags / 0x80000000 % 2 * 0x8000000000000000 + w.flags % 4 * 0x2000000000000000 +
            w.flags / 0x10000 % 256 * 0x20000000000000 + w.arrived * 0x100000000 + w.phase))) ∧
      (AtHome s a [b] 16 pa [] true → ∀ c : Nat, c = (s.cur.reg b).toNat % 256 →
        (c = 0 → ∃ t, exec (.bpoison q d a b) s = .next t ∧ takes t d 1 ∧ ObjectFrame s t q [d] ∧ t.mem = s.mem) ∧
        (c ≠ 0 → w.poisoned = true →
          ∃ t, exec (.bpoison q d a b) s = .next t ∧ takes t d 2 ∧ ObjectFrame s t q [d] ∧ t.mem = s.mem) ∧
        (c ≠ 0 → w.poisoned = false →
          ∃ t, exec (.bpoison q d a b) s = .next t ∧ takes t d 0 ∧ ObjectFrame s t q [d] ∧
            OnlyBytes s t (homeDie pa) [(pa, 16)] ∧ (t.bword (homeDie pa) pa).poisoned = true ∧
            (t.bword (homeDie pa) pa).pcode = c ∧ (t.bword (homeDie pa) pa).phase = w.phase)))

namespace Sys2Proof.Claim

/-- An instruction that only gives gD a value with latency 1 in this state. -/
def GivesOnly (i : Instr) (s : State) (q : Issue) (d : GReg) (v : DWord) : Prop :=
  ∃ t, exec i s = .next t ∧ GoesOn s t q 4 ∧ Gives s t 1 d v ∧ RegsKeep d s.cur t.cur ∧ PendingKeeps s.cur t.cur ∧
    ControlKeeps s.cur t.cur ∧ OnlyStrands s t ∧ OthersKeep s t

/-- The value of a control register (R195, R196, R198, R208) that is not TIME. -/
def csrValue (s : State) (n : Nat) : Option DWord :=
  [(0x000, s.cur.status), (0x001, s.cur.epc), (0x002, s.cur.ecause), (0x003, s.cur.eaddr), (0x004, s.cur.einfo),
   (0x005, s.cur.tvec), (0x006, s.cur.scratch),
   (0x010, BitVec.ofNat 64 (s.focus.strand / 64 + s.focus.strand / 4 % 16 * 8 + s.focus.strand % 4 * 128)),
   (0x011, BitVec.ofNat 64 s.cur.ctx.toNat), (0x012, BitVec.ofNat 64 s.cur.asid.toNat),
   (0x013, BitVec.ofNat 64 s.cur.prio.toNat), (0x020, BitVec.ofNat 64 s.cycle),
   (0x022, BitVec.ofNat 64 (s.cur.outstanding .ld % 64 + s.cur.outstanding .st % 64 * 256 +
      s.cur.outstanding .cp % 64 * 0x10000 + s.cur.outstanding .tl % 64 * 0x1000000 + s.cur.outstanding .bk % 64 * 0x100000000)),
   (0x030, BitVec.ofNat 64 ((s.cur.loops[0]?.map fun e => e.count.toNat).getD 0)),
   (0x031, BitVec.ofNat 64 ((s.cur.loops[1]?.map fun e => e.count.toNat).getD 0)),
   (0x032, BitVec.ofNat 64 ((s.cur.loops[2]?.map fun e => e.count.toNat).getD 0)),
   (0x033, BitVec.ofNat 64 ((s.cur.loops[3]?.map fun e => e.count.toNat).getD 0)),
   (0x034, BitVec.ofNat 64 s.cur.loops.length), (0x040, s.cur.faultq),
   (0x041, BitVec.ofNat 64 s.cur.probecyc.toNat)].lookup n

/-- A strand with a control register written (R195 to R197): reserved bits and PRV keep their values, TVEC and FAULTQ their low
zeros, PROBECYC is clamped. -/
def csrWritten (u : Strand) (n : Nat) (x : DWord) : Option Strand :=
  match n with
  | 0x000 => some { u with status := (x &&& 0xFD60) ||| (u.status &&& 0x80) }
  | 0x001 => some { u with epc := x }
  | 0x002 => some { u with ecause := x &&& 0xE0FF }
  | 0x003 => some { u with eaddr := x }
  | 0x004 => some { u with einfo := x }
  | 0x005 => some { u with tvec := x &&& ~~~3#64 }
  | 0x006 => some { u with scratch := x }
  | 0x013 => some { u with prio := BitVec.ofNat 2 (x.toNat % 4) }
  | 0x040 => some { u with faultq := x &&& ~~~63#64 }
  | 0x041 => some { u with probecyc := BitVec.ofNat 32 (if x.toNat < 1024 then 1024 else if 16777216 < x.toNat then 16777216 else x.toNat) }
  | _ => none

/-- An access that gives gD the old value and writes the register. -/
def CsrWrites (i : Instr) (s : State) (q : Issue) (d : GReg) (old : DWord) (u : Strand) : Prop :=
  ∃ t, exec i s = .next t ∧ GoesOn s t q 4 ∧ Gives s t 1 d old ∧ RegsKeep d s.cur t.cur ∧ PendingKeeps s.cur t.cur ∧
    ControlKeeps u t.cur ∧ OnlyStrands s t ∧ OthersKeep s t

end Sys2Proof.Claim

/-! ### Control registers, traps and contexts (R195 to R233) -/

/-- csrr gives a control register, csrw, csrs and csrc write it; a user strand without the access traps PRIV (R195,
R196, R197, R198, R208, R218). -/
def Obligations.ControlRegistersReadAndWrite : Prop :=
  ∀ (q : Issue) (d a : GReg) (csr : BitVec 11) (s : State),
    (∀ v, csrValue s csr.toNat = some v → (s.cur.sup = true ∨ 0x010 ≤ csr.toNat) → GivesOnly (.csrr q d csr) s q d v) ∧
    (csr.toNat = 0x021 → ∃ b : Nat, b ≤ 1 ∧ GivesOnly (.csrr q d csr) s q d (BitVec.ofNat 64 (s.cycle / 21 + b))) ∧
    (∀ old, csrValue s csr.toNat = some old → s.cur.sup = true →
      (∀ u, csrWritten s.cur csr.toNat (s.cur.reg a) = some u → CsrWrites (.csrw q d a csr) s q d old u) ∧
      (∀ u, csrWritten s.cur csr.toNat (old ||| s.cur.reg a) = some u → CsrWrites (.csrs q d a csr) s q d old u) ∧
      (∀ u, csrWritten s.cur csr.toNat (old &&& ~~~(s.cur.reg a)) = some u → CsrWrites (.csrc q d a csr) s q d old u)) ∧
    (s.cur.sup = false → s.cur.atTvec = false →
      (csrValue s csr.toNat ≠ none → csr.toNat < 0x010 → ∃ t, exec (.csrr q d csr) s = .next t ∧
        Traps s t s.focus.strand s.cur.pc 0x02 0 (BitVec.ofNat 64 s.focus.word.toNat)) ∧
      (csrWritten s.cur csr.toNat 0 ≠ none → ∀ i ∈ [Instr.csrw q d a csr, .csrs q d a csr, .csrc q d a csr], ∃ t, exec i s = .next t ∧
        Traps s t s.focus.strand s.cur.pc 0x02 0 (BitVec.ofNat 64 s.focus.word.toNat)))

/-- The strand halts at TVEC with the trap state written, and one record is added (R408). -/
structure Sys2Proof.Claim.HaltsAtTvec (s t : State) (cause addr info told : DWord) : Prop where
  pc     : t.cur.pc = s.cur.tvec ∧ t.cur.run = .halted
  state  : t.cur.epc = s.cur.tvec ∧ t.cur.ecause = cause ∧ t.cur.eaddr = addr ∧ t.cur.einfo = info
  record : ∃ r : FaultRec, t.ctxs.records = s.ctxs.records ++ [r] ∧ r.ctx = s.cur.ctx ∧ r.die = s.curDie ∧
             r.words = recordWords (cause.toNat % 256) 0 0 s.curDie (s.focus.strand % 64) s.cur.asid 0 s.cur.ctx 0
               told s.cur.tvec
  mem    : t.mem = s.mem ∧ t.engs = s.engs ∧ t.fab = s.fab ∧ t.ports = s.ports
  others : ∀ n, n ≠ s.focus.strand → t.strand n = s.strand n

/-- trap enters the handler, or halts there when it is the handler's first instruction; eret returns with PRV, AE and
LBASE restored (R199, R200, R219, R228, R230, R408). -/
def Obligations.TrapEntersAndEretReturns : Prop :=
  ∀ (q : Issue) (code : BitVec 18) (d a : GReg) (imm : BitVec 13) (s : State),
    (s.cur.atTvec = false → ∃ t, exec (.trap q code) s = .next t ∧
      Traps s t s.focus.strand (s.cur.pc + 4) 0x18 0 (BitVec.ofNat 64 code.toNat)) ∧
    (s.cur.sup = true → ∃ t, exec (.eret q) s = .next t ∧ t.cur.pc = s.cur.epc ∧
      t.cur.readyAt = s.cycle + 1 + q.gap.toNat ∧
      t.cur.loops = s.cur.loops.take (s.cur.status.extractLsb' 10 3).toNat ∧
      t.cur.status.getLsbD 7 = s.cur.status.getLsbD 8 ∧ t.cur.status.getLsbD 6 = s.cur.status.getLsbD 5 ∧
      t.cur.status.extractLsb' 10 3 = s.cur.status.extractLsb' 13 3 ∧
      AllRegsKeep s.cur t.cur ∧ PendingKeeps s.cur t.cur ∧
      ControlKeeps { s.cur with status := t.cur.status } t.cur ∧ OnlyStrands s t ∧ OthersKeep s t) ∧
    (s.cur.atTvec = true →
      (∃ t, exec (.trap q code) s = .next t ∧ HaltsAtTvec s t 0x18 0 (BitVec.ofNat 64 code.toNat) s.cur.tvec) ∧
      (∀ x : DWord, x = s.cur.reg a + BitVec.ofInt 64 imm.toInt → x.toNat % 4 ≠ 0 →
        ∃ t, exec (.jalr q d a imm) s = .next t ∧ HaltsAtTvec s t 0x03 x 0 x) ∧
      (s.cur.sup = false → ∃ t, exec (.eret q) s = .next t ∧ HaltsAtTvec s t 0x02 0 (BitVec.ofNat 64 s.focus.word.toNat) s.cur.tvec))

/-- A user strand that issues a supervisor instruction traps PRIV and changes nothing else (R229, R199, R247, R217,
R334). -/
def Obligations.PrivilegedInstructionsTrapInUserMode : Prop :=
  ∀ (q : Issue) (d a b : GReg) (s : State), s.cur.sup = false → s.cur.atTvec = false →
    (∀ i ∈ [Instr.eret q, .tlbi q d a b, .tlbia q d, .freeze q d a b, .thaw q d a b, .kill q d a b, .ctxsw q d a,
        .evsch q a b], ∃ t, exec i s = .next t ∧
      Traps s t s.focus.strand s.cur.pc 0x02 0 (BitVec.ofNat 64 s.focus.word.toNat)) ∧
    ((s.cur.reg b).toNat % 4 = 2 → ∃ t, exec (.qdrain q d a b) s = .next t ∧
      Traps s t s.focus.strand s.cur.pc 0x02 0 (BitVec.ofNat 64 s.focus.word.toNat)) ∧
    (s.cur.task = none → ∃ t, exec (.tdone q a) s = .next t ∧
      Traps s t s.focus.strand s.cur.pc 0x02 0 (BitVec.ofNat 64 s.focus.word.toNat))

/-- halt stops the strand at the next instruction, idle waits for an event, yield lets the core's other ready strands
issue (R230, R187). -/
def Obligations.HaltIdleYieldPause : Prop :=
  ∀ (q : Issue) (s : State),
    (s.cur.writes = [] → ∃ t, exec (.halt q) s = .next t ∧ GoesOn s t q 4 ∧ AllRegsKeep s.cur t.cur ∧
      PendingKeeps s.cur t.cur ∧ ControlKeeps { s.cur with run := .halted } t.cur ∧ OnlyStrands s t ∧ OthersKeep s t) ∧
    (s.cur.writes ≠ [] → exec (.halt q) s = .next s) ∧
    (∃ t, exec (.idle q) s = .next t ∧ GoesOn s t q 4 ∧ AllRegsKeep s.cur t.cur ∧ PendingKeeps s.cur t.cur ∧
      ControlKeeps { s.cur with run := if s.cur.events = [] then .idle else s.cur.run } t.cur ∧ OnlyStrands s t ∧
      OthersKeep s t) ∧
    (∃ t, exec (.yield q) s = .next t ∧ GoesOn s t q 4 ∧ AllRegsKeep s.cur t.cur ∧ PendingKeeps s.cur t.cur ∧
      ControlKeeps s.cur t.cur ∧ OnlyStrands s t ∧ OthersKeep s t ∧
      ∃ c l, t.cur.yieldTo = some (c, l) ∧ c = s.cycle + 5 ∧
        ∀ m, m ∈ l ↔ (m / 4 = s.focus.strand / 4 ∧ m ≠ s.focus.strand ∧ s.ready m = true))

/-- The drop of a shootdown (R248): entries of the ASID in the range go, all others stay. -/
structure Sys2Proof.Claim.Drops (s t : State) (asid : BitVec 16) (lo hi : Nat) : Prop where
  gone : ∀ u e, (u, e) ∈ t.seqs.tlbs → e.asid = asid → 0 < e.size → e.va + e.size ≤ lo ∨ hi ≤ e.va
  kept : ∀ u e, (u, e) ∈ s.seqs.tlbs → (e.asid ≠ asid ∨ e.va + e.size ≤ lo ∨ hi ≤ e.va) → (u, e) ∈ t.seqs.tlbs
  pc   : t.cur.pc = s.cur.pc ∧ t.stage = 2

/-- tlbi and tlbia drop the translations of their range and end when the drain is acknowledged; ctxsw takes the new
descriptor (R221, R229, R233, R247, R248). -/
def Obligations.ShootdownsAndContextSwitches : Prop :=
  (∀ (q : Issue) (d a b : GReg) (s : State), s.cur.sup = true →
    (s.stage = 0 → (∀ o ∈ s.cur.ops, s.opDone s.curDie o = true) → (∀ e, e < 8 → (s.clock e).covers s.reqClock = true) →
      (∀ x n : Nat, x = (s.cur.reg a).toNat → n = (s.cur.reg b).toNat → x < 0x200000000000000 → x + n ≤ 0x200000000000000 →
        (n = 0 → ∃ t, exec (.tlbi q d a b) s = .next t ∧ OnlyGoesOn s t q 4) ∧
        (n ≠ 0 → ∃ t, exec (.tlbi q d a b) s = .next t ∧
          Drops s t ((s.cur.reg d).setWidth 16) (x / 65536 * 65536) ((x + n + 65535) / 65536 * 65536))) ∧
      (∃ t, exec (.tlbia q d) s = .next t ∧ Drops s t ((s.cur.reg d).setWidth 16) 0 (0x200000000000000))) ∧
    (s.stage = 3 →
      ((s.cur.reg a).toNat < 0x200000000000000 → (s.cur.reg a).toNat + (s.cur.reg b).toNat ≤ 0x200000000000000 →
        ∃ t, exec (.tlbi q d a b) s = .next t ∧ OnlyGoesOn s t q 4) ∧
      ∃ t, exec (.tlbia q d) s = .next t ∧ OnlyGoesOn s t q 4) ∧
    (s.cur.atTvec = false → (0x200000000000000 ≤ (s.cur.reg a).toNat ∨ 0x200000000000000 < (s.cur.reg a).toNat + (s.cur.reg b).toNat) →
      ∃ t, exec (.tlbi q d a b) s = .next t ∧ Traps s t s.focus.strand s.cur.pc 0x03 (s.cur.reg a) 0)) ∧
  (∀ (q : Issue) (d a : GReg) (s : State) (n : Nat), s.cur.sup = true → n = (s.cur.reg a).toNat →
    (n < 1024 → s.cur.writes = [] → s.cur.outstanding .ld = 0 → s.cur.outstanding .st = 0 →
      ((s.desc s.curDie n).v = true → ∃ t, exec (.ctxsw q d a) s = .next t ∧
        takes t d (BitVec.ofNat 64 s.cur.ctx.toNat) ∧ (∀ x, x ≠ d → t.cur.reg x = s.cur.reg x) ∧
        t.cur.ctx = BitVec.ofNat 10 n ∧ t.cur.asid = (s.desc s.curDie n).asid ∧
        t.cur.prio.toNat = (s.desc s.curDie n).prio ∧
        t.cur.faultq = (s.desc s.curDie n).faultq &&& ~~~63#64 ∧ t.cur.loops = [] ∧
        t.cur.status.extractLsb' 10 3 = 0 ∧ t.cur.status.extractLsb' 13 3 = 0 ∧
        t.cur.status.extractLsb' 5 4 = s.cur.status.extractLsb' 5 4 ∧ t.cur.handles = s.cur.handles) ∧
      ((s.desc s.curDie n).v = false → GivesOnly (.ctxsw q d a) s q d (BitVec.ofInt 64 (-1)))) ∧
    (1024 ≤ n → GivesOnly (.ctxsw q d a) s q d (BitVec.ofInt 64 (-1))) ∧
    (n < 1024 → s.cur.writes ≠ [] → exec (.ctxsw q d a) s = .next s))

/-- freeze, thaw and kill of another strand leave it FROZEN, RUNNING, or HALTED with registers zero, and give status 0
(R231, R232). -/
def Obligations.FreezeThawKillActOnStrands : Prop :=
  ∀ (q : Issue) (d a b : GReg) (s : State) (n : Nat), s.cur.sup = true → s.stage = 0 → n < 512 →
    ((s.cur.reg a).toNat = n / 64 * 0x200000000000000 + n % 64 →
      (n ≠ s.focus.strand → (s.strand n).killed = false →
        ((∀ w ∈ s.ports.parked, w.party ≠ .strand n) →
          ((s.strand n).run ≠ .frozen → ∃ t, exec (.freeze q d a b) s = .next t ∧ takes t d 0 ∧
            (t.strand n).run = .frozen ∧ (t.strand n).pc = (s.strand n).pc ∧ (t.strand n).writes = [] ∧ t.mem = s.mem) ∧
          ((∀ c ∈ s.engs.cmds, c.strand = n → c.ended ≠ none) → (s.strand n).task = none → s.ports.phases = [] →
            ∃ t, exec (.kill q d a b) s = .next t ∧ takes t d 0 ∧ (t.strand n).run = .halted ∧
              (t.strand n).killed = true ∧ (t.strand n).loops = [] ∧ (∀ r, (t.strand n).reg r = 0) ∧ t.mem = s.mem)) ∧
        ((s.strand n).run = .frozen → ∃ t, exec (.freeze q d a b) s = .next t ∧ takes t d 2 ∧ OnlyStrands s t) ∧
        (((s.strand n).run = .frozen ∨ (s.strand n).run = .halted) → (s.strand n).worker = false →
          ∃ t, exec (.thaw q d a b) s = .next t ∧ takes t d 0 ∧ (t.strand n).run = .running ∧
            (t.strand n).pc = (s.strand n).pc ∧ t.mem = s.mem) ∧
        ((s.strand n).run = .running → ∃ t, exec (.thaw q d a b) s = .next t ∧ takes t d 2 ∧ OnlyStrands s t)) ∧
      (n = s.focus.strand → ∀ i ∈ [Instr.freeze q d a b, .thaw q d a b, .kill q d a b],
        ∃ t, exec i s = .next t ∧ takes t d 3 ∧ OnlyStrands s t) ∧
      (n ≠ s.focus.strand → (s.strand n).killed = true → ∀ i ∈ [Instr.freeze q d a b, .thaw q d a b, .kill q d a b],
        ∃ t, exec i s = .next t ∧ takes t d 1 ∧ OnlyStrands s t)) ∧
    ((s.cur.reg a).toNat / 0x100000000 % 0x2000000 ≠ 0 → ∀ i ∈ [Instr.freeze q d a b, .thaw q d a b, .kill q d a b],
      ∃ t, exec i s = .next t ∧ takes t d 4 ∧ OnlyStrands s t)

/-! ### Tasks, regions, sweeps and packets (R278 to R386) -/

/-- A strand that gives status v, and changes nothing else but the machine's regions and what belongs to them. -/
def Sys2Proof.Claim.GivesStatus (i : Instr) (s : State) (d : GReg) (v : DWord) (p : State → Prop) : Prop :=
  ∃ t, exec i s = .next t ∧ takes t d v ∧ (∀ x, x ≠ d → t.cur.reg x = s.cur.reg x) ∧ t.cycle = s.cycle ∧ p t

/-- tdone makes its strand a free worker; cfgdrop and gret end a configuration and a call with their status; swait
gives a sweep's result (R313, R278, R295, R370, R275). -/
def Obligations.TdoneCfgdropGretSwait : Prop :=
  ∀ (q : Issue) (d a : GReg) (s : State),
    ((s.cur.sup = true ∨ s.cur.task ≠ none) → (∀ c : OpClass, s.cur.outstanding c = 0) →
      ∃ t, exec (.tdone q a) s = .next t ∧ t.cur.worker = true ∧ t.cur.run = .idle ∧ t.cur.task = none ∧ t.cur.region = none) ∧
    (s.cur.progress = none →
      (2 ≤ (s.cur.reg a).toNat → GivesOnly (.cfgdrop q d a) s q d 4) ∧
      ((s.cur.reg a).toNat ≤ 1 → s.cur.region = none → GivesOnly (.cfgdrop q d a) s q d 1) ∧
      (∀ g : Region, (s.cur.reg a).toNat ≤ 1 → s.bound s.focus.strand = some g → g.strand = some s.focus.strand →
        (∀ c ∈ s.engs.cmds, c.strand ≠ s.focus.strand) → g.wave = none →
        (g.st = .reserved → s.cur.reg a = 1 → GivesOnly (.cfgdrop q d a) s q d 2) ∧
        (g.st = .reserved → s.cur.reg a = 0 → g.byDisp = false →
          GivesStatus (.cfgdrop q d a) s d 2 fun t => t.region g.id = none ∧ t.cur.region = none ∧
            ((∀ e ∈ g.elems, (s.elem e).sectors = []) → s.ports.parked = [] → t.mem = s.mem)) ∧
        (g.st = .ended → s.cur.reg a = 0 → g.byDisp = false →
          GivesStatus (.cfgdrop q d a) s d 0 fun t => t.region g.id = none ∧ t.cur.region = none) ∧
        (g.st = .ended → (s.cur.reg a = 1 ∨ g.byDisp = true) →
          GivesStatus (.cfgdrop q d a) s d 0 fun t => ∃ h, t.region g.id = some h ∧ h.st = .reserved)) ∧
      (s.cur.region = none → GivesOnly (.gret q d) s q d 1) ∧
      (∀ g : Region, s.bound s.focus.strand = some g → g.strand = some s.focus.strand →
        (g.st ≠ .frozen → g.depth = 0 → GivesOnly (.gret q d) s q d 1) ∧
        (g.st = .running → 0 < g.depth → g.wave = none → g.call = none → g.ret = none →
          ∃ t, exec (.gret q d) s = .next t ∧ t.cur.pc = s.cur.pc ∧ t.mem = s.mem ∧
            ∃ h, t.region g.id = some h ∧ h.ret = some none ∧ h.ending = true))) ∧
    (∀ (g : Region) (p : Progress), s.bound s.focus.strand = some g → s.cur.progress = some p → p.stage = 1 →
      g.depth < p.value.toNat → GivesOnly (.gret q d) s q d 0) ∧
    (s.cur.awaits a = false →
      (s.cur.lookupHandle s.focus.strand (s.cur.reg a) = none → GivesOnly (.swait q d a) s q d 0xFF) ∧
      ∀ h, s.cur.lookupHandle s.focus.strand (s.cur.reg a) = some h →
        (∀ x y, h.kind = .sweep x y → h.st ≠ .busy →
          GivesOnly (.swait q d a) s q d (BitVec.ofNat 64 (h.count % 65536 * 256 + h.code % 256))) ∧
        (h.st ≠ .busy → (∀ x y, h.kind ≠ .sweep x y) → GivesOnly (.swait q d a) s q d 0xFF) ∧
        (h.st = .busy → exec (.swait q d a) s = .next s))

/-- What a subscription leaves: bit q of the bitmap at its home, the status, and every other bit and byte as before. -/
structure Sys2Proof.Claim.SetsBit (s t : State) (d : GReg) (bits n : Nat) (on : Bool) : Prop where
  bit    : (t.byteAt (homeDie bits) (bits + n / 8)).getLsbD (n % 8) = on
  status : takes t d (if (s.byteAt (homeDie bits) (bits + n / 8)).getLsbD (n % 8) = on then 2 else 0)
  rest   : ∀ i, i < 8 → i ≠ n % 8 →
             (t.byteAt (homeDie bits) (bits + n / 8)).getLsbD i = (s.byteAt (homeDie bits) (bits + n / 8)).getLsbD i
  bytes  : OnlyBytes s t (homeDie bits) [(bits + n / 8, 1)]
  regs   : ∀ x, x ≠ d → t.cur.reg x = s.cur.reg x

/-- subscr sets and unsub clears bit q of the page's bitmap at its home, and gives 2 when it was so already (R368,
R239, R94). -/
def Obligations.SubscriptionsSetOneBit : Prop :=
  ∀ (q : Issue) (d a b : GReg) (s : State) (pa bits : Nat) (e f : TlbEntry) (x : DWord),
    s.cur.got = none → s.cur.progress = none → settled s [a, b] → (∀ o ∈ s.cur.ops, s.opDone s.curDie o = true) →
    (s.cur.reg a).toNat % 32 = 0 → s.curTranslate .read (s.cur.reg a).toNat 32 = .ok pa e →
    x = s.dwordAt s.curDie (pa + 0x18) → x.toNat % 32 = 0 → s.curTranslate .atomic x.toNat 32 = .ok bits f →
    s.ownedIn (pageAttr e) pa 32 = none → s.ownedIn (pageAttr f) bits 32 = none → (pageAttr f).ms = false →
    s.spoilt s.curDie (some (coreOf s.focus.strand)) pa 32 = false → s.spoilt s.curDie (some (coreOf s.focus.strand)) bits 32 = false →
    KeyShows s (pageAttr e) pa 32 → KeyShows s (pageAttr f) bits 32 →
    bits + 32 ≤ 0x8000000000000 → s.curDie = homeDie bits → s.reachPa s.curDie bits = .open_ →
    (∀ e, e < 8 → (s.clock e).covers (s.clock s.curDie) = true) → Memory.wf (s.image (homeDie bits)).mem = true →
    (∀ n : Nat, n = (s.cur.reg b).toNat → n ≤ 159 →
      (∃ t, exec (.subscr q d a b) s = .next t ∧ GoesOn s t q 4 ∧ SetsBit s t d bits n true) ∧
      (∃ t, exec (.unsub q d a b) s = .next t ∧ GoesOn s t q 4 ∧ SetsBit s t d bits n false)) ∧
    (159 < (s.cur.reg b).toNat → GivesOnly (.subscr q d a b) s q d 1 ∧ GivesOnly (.unsub q d a b) s q d 1)

/-- pksend puts its payload in the outbound queue or gives 1 or 2; cmask and cunmask change the mask set of their die
(R384, R385, R386). -/
def Obligations.PacketsAcceptedAndClassesMasked : Prop :=
  (∀ (q : Issue) (d a b c : GReg) (s : State) (k n : Nat) (en : RouteEntry), settled s [a, b, c] →
    k = (s.cur.reg a).toNat → n = (s.cur.reg c).toNat → en = s.entry s.curDie k →
    ((16 ≤ k ∨ n = 0 ∨ 256 < n) → GivesOnly (.pksend q d a b c) s q d 1) ∧
    (k < 16 → 1 ≤ n → n ≤ 256 →
      ((en.w.getLsbD 63 = false ∨ (s.cur.sup = false ∧ en.w.toNat / 0x2000000000000000 % 4 ≠ 3 ∧ en.w.toNat / 0x40000000000 % 1024 ≠ s.cur.ctx.toNat)) →
        ∃ t, exec (.pksend q d a b c) s = .next t ∧ GoesOn s t q 4 ∧ takes t d 2 ∧ t.mem = s.mem ∧
          t.routes.out = s.routes.out) ∧
      (en.w.getLsbD 63 = true → (s.cur.sup = true ∨ en.w.toNat / 0x2000000000000000 % 4 = 3 ∨ en.w.toNat / 0x40000000000 % 1024 = s.cur.ctx.toNat) →
        (∀ o ∈ s.cur.ops, s.opDone s.curDie o = true) → (s.routes.out.filter fun p => p.die = s.curDie).length < 16 →
        (s.cur.reg b).toNat % 65536 + n ≤ 65536 →
        ∀ pa e, s.curTranslate .read (s.cur.reg b).toNat n = .ok pa e → s.ownedIn (pageAttr e) pa n = none →
          s.spoilt s.curDie (some (coreOf s.focus.strand)) pa n = false → KeyShows s (pageAttr e) pa n →
          ∃ t p, exec (.pksend q d a b c) s = .next t ∧ GoesOn s t q 4 ∧ takes t d 0 ∧
            (∀ x, x ≠ d → t.cur.reg x = s.cur.reg x) ∧ (∀ e x, t.byteAt e x = s.byteAt e x) ∧ t.routes.out = s.routes.out ++ [p] ∧ p.klass = k ∧
            p.die = s.curDie ∧ p.srcDie = s.curDie ∧ p.ctx = s.cur.ctx ∧ p.payload = s.bytesAt s.curDie pa n ∧
            p.clock = s.clock s.curDie ∧ p.hops = 0 ∧ s.cycle < p.due))) ∧
  (∀ (q : Issue) (d a : GReg) (s : State) (m : Nat), s.cur.awaits a = false → m = (s.cur.reg a).toNat →
    (0x10000 ≤ m → GivesOnly (.cmask q d a) s q d (BitVec.ofInt 64 (-1)) ∧ GivesOnly (.cunmask q d a) s q d (BitVec.ofInt 64 (-1))) ∧
    (m < 0x10000 →
      (∀ own : Prop, own = (∀ c, c < 16 → m.testBit c = true → (s.entry s.curDie c).kind ≠ 3 ∧ (s.entry s.curDie c).ctx = s.cur.ctx) →
        ((s.cur.sup = true ∨ own) →
          (∃ t, exec (.cmask q d a) s = .next t ∧ GoesOn s t q 4 ∧ takes t d (BitVec.ofNat 64 (s.masks s.curDie).toNat) ∧
            (∀ x, x ≠ d → t.cur.reg x = s.cur.reg x) ∧ t.mem = s.mem ∧
            t.masks s.curDie = (s.masks s.curDie ||| BitVec.ofNat 16 m) ∧ ∀ e, e ≠ s.curDie → t.masks e = s.masks e) ∧
          (∃ t, exec (.cunmask q d a) s = .next t ∧ GoesOn s t q 4 ∧ takes t d (BitVec.ofNat 64 (s.masks s.curDie).toNat) ∧
            (∀ x, x ≠ d → t.cur.reg x = s.cur.reg x) ∧ t.mem = s.mem ∧
            t.masks s.curDie = (s.masks s.curDie &&& ~~~BitVec.ofNat 16 m) ∧ ∀ e, e ≠ s.curDie → t.masks e = s.masks e)) ∧
        (s.cur.sup = false → ¬ own → s.cur.atTvec = false → ∀ i ∈ [Instr.cmask q d a, .cunmask q d a],
          ∃ t, exec i s = .next t ∧ Traps s t s.focus.strand s.cur.pc 0x08 0 0))))

namespace Sys2Proof.Claim

/-- A trigger context may fire (R101): nothing in flight, a token that READY can see at the head of every channel it names, and a
free entry in every output that its destination names. -/
structure CanFire (s : State) (d : Dst) (srcs : List Src) : Prop where
  idle : s.curCtx.fly = none
  full : ∀ c : BitVec 2, (.take c ∈ srcs ∨ .keep c ∈ srcs) →
           ∃ e rest, s.curElem.pl.inq c.toNat = e :: rest ∧ e.at_ < s.cycle
  room : ∀ o : Bool, dstNames d o = true → s.curElem.pl.outUsed o s.cycle < 2

/-- What a firing does to its element (R103, R125): the head of each channel it takes goes (a landing token takes the entry that
frees), each output it names reserves an entry for the context; the registers and predicates of every context, the instructions
of the other contexts, slots and bindings are as before, and so are all other elements. -/
structure FireChannels (s t : State) (d : Dst) (srcs : List Src) : Prop where
  others : ∀ e, e ≠ s.focus.elem → t.elem e = s.elem e
  body   : t.curElem.st = s.curElem.st ∧ t.curElem.region = s.curElem.region ∧
             t.curElem.pl.sites = s.curElem.pl.sites ∧ t.curElem.pl.slots = s.curElem.pl.slots
  regs   : ∀ c, (t.curElem.pl.ctx c).x = (s.curElem.pl.ctx c).x ∧ (t.curElem.pl.ctx c).p = (s.curElem.pl.ctx c).p ∧
             (t.curElem.pl.ctx c).stopped = (s.curElem.pl.ctx c).stopped
  flys   : ∀ c, c % 4 ≠ s.focus.ctx % 4 → (t.curElem.pl.ctx c).fly = (s.curElem.pl.ctx c).fly
  taken  : ∀ c : BitVec 2, .take c ∈ srcs →
             t.curElem.pl.inq c.toNat = (s.curElem.pl.inq c.toNat).drop 1 ++ (s.curElem.pl.landq c.toNat).take 1 ∧
             t.curElem.pl.landq c.toNat = (s.curElem.pl.landq c.toNat).drop 1
  kept   : ∀ c : BitVec 2, .take c ∉ srcs → t.curElem.pl.inq c.toNat = s.curElem.pl.inq c.toNat ∧
             t.curElem.pl.landq c.toNat = s.curElem.pl.landq c.toNat
  outs   : ∀ o : Bool, t.curElem.pl.outq o =
             s.curElem.pl.outq o ++ if dstNames d o then [.reserved s.focus.ctx] else []

/-- The storage of the element that acts is as before: scratch with its full bits and its spoilt words, site buffers, posted
operations. -/
def StoreKeeps (s t : State) : Prop :=
  t.curElem.sectors = s.curElem.sectors ∧ t.curElem.scr = s.curElem.scr ∧ t.curElem.full = s.curElem.full ∧
    t.curElem.spoilt = s.curElem.spoilt ∧ t.curElem.posted = s.curElem.posted

/-- A firing that changes nothing else: memory, strands, buffers, scratch are as before. -/
structure FireFrame (s t : State) (d : Dst) (srcs : List Src) : Prop where
  chans : FireChannels s t d srcs
  store : StoreKeeps s t
  rest  : t = { s with fab := { s.fab with elems := t.fab.elems } }

/-- What is in flight of an instruction of latency L (R103, R123): at the end of cycle + L − 1 a register named takes v in the
lanes that execute, and an output named a token of v in those lanes, zero in the others, with its tag; `preds` as given. -/
structure InFlightOf (s : State) (f : InFlight) (i : Instr) (L : Nat) (d : Dst) (tg : BitVec 3) (v : Nat → Word) : Prop where
  instr : f.instr = i ∧ f.exec_ = s.focus.lanes ∧ f.wait = .no
  due   : f.due = s.cycle + L - 1
  reg   : ∀ n, d = .reg n → ∃ r : Data256, f.regs = [(n, r, s.focus.lanes)] ∧ ∀ l, l < 8 → laneOf r l = v l
  noReg : (∀ n, d ≠ .reg n) → f.regs = []
  token : ∀ tok, (f.o0 = some tok ∨ f.o1 = some tok) → tok.tag = tg ∧ tok.k = false ∧
            ∀ l, l < 8 → laneOf tok.data l = if s.focus.lanes.getLsbD l then v l else 0
  outs  : f.o0.isSome = dstNames d false ∧ f.o1.isSome = dstNames d true

/-- The predicate update of PM (R123): p[PD] takes the test of each lane that executes. -/
def PredOf (s : State) (f : InFlight) (pd : PReg) (pm : PUpd) (v : Nat → Word) (c : Nat → Bool) : Prop :=
  match pm with
  | .none => f.preds = []
  | .nz => ∃ b : BitVec 8, f.preds = [(pd, b, s.focus.lanes)] ∧ ∀ l, l < 8 → b.getLsbD l = (v l != 0)
  | .neg => ∃ b : BitVec 8, f.preds = [(pd, b, s.focus.lanes)] ∧ ∀ l, l < 8 → b.getLsbD l = (v l).getLsbD 31
  | .cu => ∃ b : BitVec 8, f.preds = [(pd, b, s.focus.lanes)] ∧ ∀ l, l < 8 → b.getLsbD l = c l

/-- Lane l of a source (R64), and of the register that an accumulating instruction names. -/
def srcLane (s : State) (a : Src) (l : Nat) : Word := laneOf (s.src a) l

/-- D(l) of R123. -/
def accLane (s : State) (d : Dst) (l : Nat) : Word :=
  match d with
  | .reg n => laneOf (s.curCtx.reg n) l
  | _ => 0

/-- An instruction of the format EA with its OPERATION on lanes, its carry (none where PM = 3 is illegal) and its latency: it
fires from every state in which its context may fire. -/
def FiresLanes (i : EA → Instr) (L : Nat) (op : EA → Word → Word → Word → Word) (carry : Option (Word → Word → Bool)) : Prop :=
  ∀ (f : EA) (s : State), CanFire s f.d [f.a, f.b] → (f.pm = .cu → carry ≠ none) →
    ∃ t g, exec (i f) s = .next t ∧ t.curCtx.fly = some g ∧ FireFrame s t f.d [f.a, f.b] ∧
      InFlightOf s g (i f) L f.d f.tg (fun l => op f (srcLane s f.a l) (srcLane s f.b l) (accLane s f.d l)) ∧
      PredOf s g f.pd f.pm (fun l => op f (srcLane s f.a l) (srcLane s f.b l) (accLane s f.d l))
        (fun l => (carry.getD fun _ _ => false) (srcLane s f.a l) (srcLane s f.b l))

/-- The exact sum or difference of two signed words clamped to a signed word (R7). -/
def clampWord (v : Int) : Word := BitVec.ofInt 32 (if v < -(0x80000000) then -(0x80000000) else if 0x80000000 - 1 < v then 0x80000000 - 1 else v)

/-- Whether clamping changes a value. -/
def isClamped (v : Int) : Bool := v < -(0x80000000) || 0x80000000 - 1 < v

/-- Byte j of a word, signed or not. -/
def byteAs (signed : Bool) (w : Word) (j : Nat) : Int :=
  if signed then (w.extractLsb' (8 * j) 8).toInt else ((w.extractLsb' (8 * j) 8).toNat : Int)

end Sys2Proof.Claim

/-! ### Elements: computing (R123 to R141) -/

/-- A source reads a register, the head token's lanes, the lane number, the element's own identity or zero (R64, R18,
R6). -/
def Obligations.ElementSourcesRead : Prop :=
  ∀ (s : State) (l : Nat), l < 8 →
    (∀ n : XReg, srcLane s (.reg n) l = ((s.curCtx.x)[n.toNat]'n.isLt).extractLsb' (32 * l) 32) ∧
    (∀ (c : BitVec 2) (e : Entry) (rest : List Entry), s.curElem.pl.inq c.toNat = e :: rest → e.at_ < s.cycle →
      srcLane s (.take c) l = e.tok.data.extractLsb' (32 * l) 32 ∧
      srcLane s (.keep c) l = e.tok.data.extractLsb' (32 * l) 32) ∧
    srcLane s .lane l = BitVec.ofNat 32 l ∧ srcLane s .zero l = 0 ∧
    (s.focus.elem.die < 8 → s.focus.elem.row < 64 → s.focus.elem.col < 80 → s.focus.ctx < 4 →
      srcLane s .here l = BitVec.ofNat 32 (s.focus.elem.die * 0x20000000 + s.focus.elem.row * 0x800000 + s.focus.elem.col * 0x10000 +
        s.focus.ctx * 16384 + l * 2048))

/-- The integer and logic instructions of elements fire with the OPERATION and carry of R128 in every lane, latency 2
(R128, R123, R126, R103). -/
def Obligations.IntegerLanesCompute : Prop :=
  (∀ (a b : Src) (s : State), CanFire s .none [a, b] →
    ∃ t g, exec (.eNop a b) s = .next t ∧ t.curCtx.fly = some g ∧ FireFrame s t .none [a, b] ∧ g.regs = [] ∧ g.preds = [] ∧
      g.o0 = none ∧ g.o1 = none ∧ g.due = s.cycle + 1) ∧
  FiresLanes .mov 2 (fun _ a _ _ => a) none ∧
  FiresLanes .iadd 2 (fun _ a b _ => BitVec.ofInt 32 (a.toInt + b.toInt)) (some fun a b => 0x100000000 ≤ a.toNat + b.toNat) ∧
  FiresLanes .isub 2 (fun _ a b _ => BitVec.ofInt 32 (a.toInt - b.toInt)) (some fun a b => a.toNat < b.toNat) ∧
  FiresLanes .iadds 2 (fun _ a b _ => clampWord (a.toInt + b.toInt)) (some fun a b => isClamped (a.toInt + b.toInt)) ∧
  FiresLanes .isubs 2 (fun _ a b _ => clampWord (a.toInt - b.toInt)) (some fun a b => isClamped (a.toInt - b.toInt)) ∧
  FiresLanes .imul 2 (fun _ a b _ => BitVec.ofInt 32 (a.toInt * b.toInt)) none ∧
  FiresLanes .imulh 2 (fun _ a b _ => BitVec.ofInt 32 (a.toInt * b.toInt / 0x100000000)) none ∧
  FiresLanes .imulhn 2 (fun _ a b _ => BitVec.ofNat 32 (a.toNat * b.toNat / 0x100000000)) none ∧
  FiresLanes .imad 2 (fun _ a b d => BitVec.ofInt 32 (a.toInt * b.toInt + d.toInt)) none ∧
  FiresLanes .imin 2 (fun _ a b _ => BitVec.ofInt 32 (min a.toInt b.toInt)) none ∧
  FiresLanes .imax 2 (fun _ a b _ => BitVec.ofInt 32 (max a.toInt b.toInt)) none ∧
  FiresLanes .nmin 2 (fun _ a b _ => BitVec.ofNat 32 (min a.toNat b.toNat)) none ∧
  FiresLanes .nmax 2 (fun _ a b _ => BitVec.ofNat 32 (max a.toNat b.toNat)) none ∧
  FiresLanes .iabs 2 (fun _ a _ _ => clampWord (a.toInt.natAbs : Int)) none ∧
  FiresLanes .eAnd 2 (fun _ a b _ => a &&& b) none ∧
  FiresLanes .eOr 2 (fun _ a b _ => a ||| b) none ∧
  FiresLanes .eXor 2 (fun _ a b _ => a ^^^ b) none ∧
  FiresLanes .eAndn 2 (fun _ a b _ => a &&& ~~~b) none ∧
  FiresLanes .eShl 2 (fun _ a b _ => if b.toNat < 32 then BitVec.ofNat 32 (a.toNat * 2 ^ b.toNat) else 0) none ∧
  FiresLanes .eShr 2 (fun _ a b _ => if b.toNat < 32 then BitVec.ofNat 32 (a.toNat / 2 ^ b.toNat) else 0) none ∧
  FiresLanes .eSha 2 (fun _ a b _ => BitVec.ofInt 32 (a.toInt / 2 ^ min b.toNat 31)) none ∧
  FiresLanes .ePopc 2 (fun _ a _ _ => BitVec.ofNat 32 ((List.range 32).filter fun i => a.getLsbD i).length) none ∧
  FiresLanes .eClz 2 (fun _ a _ _ => if a = 0 then 32 else BitVec.ofNat 32 (31 - Nat.log2 a.toNat)) none ∧
  FiresLanes .idot4 2 (fun f a b d => BitVec.ofInt 32 (d.toInt +
    byteAs (f.md = 0) a 0 * byteAs (f.md ≠ 2) b 0 + byteAs (f.md = 0) a 1 * byteAs (f.md ≠ 2) b 1 +
    byteAs (f.md = 0) a 2 * byteAs (f.md ≠ 2) b 2 + byteAs (f.md = 0) a 3 * byteAs (f.md ≠ 2) b 3)) none ∧
  (∀ (f : EA) (s : State), CanFire s f.d [f.a, f.b] → f.pm ≠ .cu → ∀ v : Nat → Word,
    (v = fun l => if (s.curCtx.pred (f.md.setWidth 3)).getLsbD l then srcLane s f.a l else srcLane s f.b l) →
    ∃ t g, exec (.sel f) s = .next t ∧ t.curCtx.fly = some g ∧ FireFrame s t f.d [f.a, f.b] ∧
      InFlightOf s g (.sel f) 2 f.d f.tg v ∧ PredOf s g f.pd f.pm v fun _ => false)

/-- An instruction of the format EI. -/
def Sys2Proof.Claim.FiresImmediate (i : Instr) (s : State) (d : Dst) (a : Src) (v : Nat → Word) : Prop :=
  CanFire s d [a] → ∃ t g, exec i s = .next t ∧ t.curCtx.fly = some g ∧ FireFrame s t d [a] ∧ InFlightOf s g i 2 d 0 v ∧
    g.preds = []

/-- movi, movhi, iaddi, andi, shli and shri of elements fire with the value of R129, tag 0 and no predicate update
(R129, R103). -/
def Obligations.ImmediateLanesCompute : Prop :=
  ∀ (f : EI) (d : Dst) (imm : BitVec 15) (s : State),
    FiresImmediate (.movi d imm) s d .zero (fun _ => BitVec.ofInt 32 imm.toInt) ∧
    FiresImmediate (.movhi f) s f.d f.a (fun l => BitVec.ofNat 32 ((srcLane s f.a l).toNat * 32768 + f.imm.toNat)) ∧
    FiresImmediate (.iaddi f) s f.d f.a (fun l => BitVec.ofInt 32 ((srcLane s f.a l).toInt + f.imm.toInt)) ∧
    FiresImmediate (.eAndi f) s f.d f.a (fun l => srcLane s f.a l &&& BitVec.ofInt 32 f.imm.toInt) ∧
    (f.imm.toNat ≤ 31 →
      FiresImmediate (.eShli f) s f.d f.a (fun l => BitVec.ofNat 32 ((srcLane s f.a l).toNat * 2 ^ f.imm.toNat)) ∧
      FiresImmediate (.eShri f) s f.d f.a (fun l => BitVec.ofNat 32 ((srcLane s f.a l).toNat / 2 ^ f.imm.toNat)))

/-- The floating-point and compare instructions of elements round the exact value once, in every lane, with the
latencies of R126 (R130, R131, R132, R133, R126). -/
def Obligations.FloatLanesRoundOnce : Prop :=
  FiresLanes .fadd 4 (fun _ a b _ => rneF32 ((f32 a).add (f32 b))) none ∧
  FiresLanes .fsub 4 (fun _ a b _ => rneF32 ((f32 a).add (f32 b).neg)) none ∧
  FiresLanes .fmul 4 (fun _ a b _ => rneF32 ((f32 a).mul (f32 b))) none ∧
  FiresLanes .ffma 4 (fun _ a b d => rneF32 (((f32 a).mul (f32 b)).add (f32 d))) none ∧
  FiresLanes .fmin 4 (fun _ a b _ => BitVec.ofNat 32 (fminmax fmtF32 false a.toNat b.toNat)) none ∧
  FiresLanes .fmax 4 (fun _ a b _ => BitVec.ofNat 32 (fminmax fmtF32 true a.toNat b.toNat)) none ∧
  FiresLanes .fabs 4 (fun _ a _ _ => if f32 a = .nan then 0x7FC00000 else BitVec.ofNat 32 (a.toNat % 0x80000000)) none ∧
  FiresLanes .fneg 4 (fun _ a _ _ => if f32 a = .nan then 0x7FC00000 else a ^^^ 0x80000000) none ∧
  FiresLanes .bfadd2 4 (fun _ a b d => packedAdd fmtBf16 a b d) none ∧
  FiresLanes .bfmul2 4 (fun _ a b d => packedMul fmtBf16 a b d) none ∧
  FiresLanes .bffma2 4 (fun _ a b d => packedFma fmtBf16 a b d) none ∧
  FiresLanes .hadd2 4 (fun _ a b d => packedAdd fmtF16 a b d) none ∧
  FiresLanes .hmul2 4 (fun _ a b d => packedMul fmtF16 a b d) none ∧
  FiresLanes .hfma2 4 (fun _ a b d => packedFma fmtF16 a b d) none ∧
  FiresLanes .bfdot2 4 (fun _ a b d => bfdot2F32 a b d) none ∧
  FiresLanes .fscale 4 (fun f a b _ =>
    if f.md = 1 && b.toNat % 256 = 255 then 0x7FC00000
    else rneF32 ((f32 a).scale (max (-1000) (min 1000 (if f.md = 1 then (b.toNat % 256 : Int) - 127 else b.toInt))))) none ∧
  FiresLanes .icmp 2 (fun f a b _ =>
    if (if f.md = 0 then a = b else if f.md = 1 then a ≠ b else if f.md = 2 then a.toInt < b.toInt else a.toNat < b.toNat)
    then 1 else 0) none ∧
  FiresLanes .fcmp 2 (fun f a b _ =>
    if (if f.md = 0 then (f32 a).cmp (f32 b) = some .eq else if f.md = 1 then (f32 a).cmp (f32 b) = some .lt
      else if f.md = 2 then ((f32 a).cmp (f32 b) = some .lt ∨ (f32 a).cmp (f32 b) = some .eq)
      else (f32 a).cmp (f32 b) ≠ some .eq) then 1 else 0) (some fun a b => f32 a = .nan || f32 b = .nan)

/-- The input of a conversion with `.sc` (R136). -/
def Sys2Proof.Claim.scaledIn (md : BitVec 2) (a b : Word) : Fp :=
  if md.getLsbD 1 = false then f32 a
  else if b.toNat % 256 = 255 then .nan else (f32 a).scale (127 - (b.toNat % 256 : Int))

/-- Conversions and special functions of elements fire with the value of R135 to R137, latency 2 and 8 (R135, R136,
R137, R126). -/
def Obligations.ConversionLanesAndFunctions : Prop :=
  (∀ (i : EA → Instr) (t : Fmt), (i, t) ∈ [(Instr.cvtBf16F32, fmtBf16), (Instr.cvtE4m3F32, fmtE4m3), (Instr.cvtE5m2F32, fmtE5m2),
      (Instr.cvtE2m1F32, fmtE2m1), (Instr.cvtF16F32, fmtF16)] →
    FiresLanes i 2 (fun f a b _ => BitVec.ofNat 32 (t.narrow (f.md.getLsbD 0) (scaledIn f.md a b))) none) ∧
  (∀ (i : EA → Instr) (t : Fmt) (n : Nat), (i, t, n) ∈ [(Instr.cvtF32Bf16, fmtBf16, 16), (Instr.cvtF32E4m3, fmtE4m3, 8),
      (Instr.cvtF32E5m2, fmtE5m2, 8), (Instr.cvtF32E2m1, fmtE2m1, 4), (Instr.cvtF32F16, fmtF16, 16)] →
    FiresLanes i 2 (fun f a _ _ => rneF32 (t.value (a.toNat / 2 ^ (n * f.md.toNat) % 2 ^ n))) none) ∧
  FiresLanes .cvtF32I32 2 (fun _ a _ _ => rneF32 (Fp.ofInt a.toInt 0)) none ∧
  FiresLanes .cvtI32F32 2 (fun _ a _ _ => BitVec.ofInt 32 (toIntSat 32 (f32 a))) none ∧
  FiresLanes .cvtI8F32 2 (fun f a b _ => BitVec.ofInt 32 (toIntSat 8 (scaledIn f.md a b))) none ∧
  FiresLanes .cvtF32I8 2 (fun f a _ _ => rneF32 (Fp.ofInt (byteAs true a f.md.toNat) 0)) none ∧
  FiresLanes .sclx 2 (fun _ a _ _ => BitVec.ofNat 32 (sclxByte a)) none ∧
  FiresLanes .exp2 8 (fun _ a _ _ => exp2F32 a) none ∧
  FiresLanes .log2 8 (fun _ a _ _ => log2F32 a) none ∧
  FiresLanes .rcp 8 (fun _ a _ _ => rcpF32 a) none ∧
  FiresLanes .rsqrt 8 (fun _ a _ _ => rsqrtF32 a) none ∧
  FiresLanes .sqrt 8 (fun _ a _ _ => sqrtF32 a) none

/-- An instruction that only writes a predicate. -/
def Sys2Proof.Claim.FiresPredicate (i : Instr) (s : State) (pd : PReg) (v : Nat → Bool) : Prop :=
  s.curCtx.fly = none → ∃ t g, exec i s = .next t ∧ t.curCtx.fly = some g ∧ FireFrame s t .none [] ∧ g.due = s.cycle + 1 ∧
    g.regs = [] ∧ g.o0 = none ∧ g.o1 = none ∧
    ∃ b : BitVec 8, g.preds = [(pd, b, s.focus.lanes)] ∧ ∀ l, l < 8 → b.getLsbD l = v l

/-- pset, pand, por, pxor, pnot and pmov give p[PD] the value of R134 in the lanes that execute (R134, R123). -/
def Obligations.PredicatesTakeTheirValue : Prop :=
  ∀ (pd pa pb : PReg) (v na nb : Bool) (s : State) (p : PReg → Nat → Bool), (p = fun n l => (s.curCtx.pred n).getLsbD l) →
    FiresPredicate (.pset pd v) s pd (fun _ => v) ∧
    FiresPredicate (.pand pd pa pb na nb) s pd (fun l => (p pa l != na) && (p pb l != nb)) ∧
    FiresPredicate (.por pd pa pb na nb) s pd (fun l => (p pa l != na) || (p pb l != nb)) ∧
    FiresPredicate (.pxor pd pa pb na nb) s pd (fun l => (p pa l != na) != (p pb l != nb)) ∧
    FiresPredicate (.pnot pd pa) s pd (fun l => !p pa l) ∧
    FiresPredicate (.pmov pd pa .each) s pd (fun l => p pa l) ∧
    FiresPredicate (.pmov pd pa .any) s pd (fun _ => (List.range 8).any fun k => s.focus.lanes.getLsbD k && p pa k) ∧
    FiresPredicate (.pmov pd pa .all) s pd (fun _ => (List.range 8).all fun k => !s.focus.lanes.getLsbD k || p pa k)

/-- A lane operation of latency 3 that gives lane l of its result. -/
def Sys2Proof.Claim.FiresMove (i : EA → Instr) (v : State → EA → Nat → Word) : Prop :=
  ∀ (f : EA) (s : State), CanFire s f.d [f.a, f.b] → f.pm ≠ .cu →
    ∃ t g, exec (i f) s = .next t ∧ t.curCtx.fly = some g ∧ FireFrame s t f.d [f.a, f.b] ∧
      InFlightOf s g (i f) 3 f.d f.tg (v s f) ∧ PredOf s g f.pd f.pm (v s f) fun _ => false

/-- lperm, lbcast and lshift move the lanes of A as B says; only the lanes that execute are written (R141). -/
def Obligations.LaneMovesPermute : Prop :=
  FiresMove .lperm (fun s f l => srcLane s f.a ((srcLane s f.b l).toNat % 8)) ∧
  FiresMove .lbcast (fun s f _ => srcLane s f.a ((srcLane s f.b 0).toNat % 8)) ∧
  FiresMove .lshift (fun s f l =>
    if f.md = 0 then (if l + (srcLane s f.b 0).toNat % 8 ≤ 7 then srcLane s f.a (l + (srcLane s f.b 0).toNat % 8) else 0)
    else if f.md = 1 then (if (srcLane s f.b 0).toNat % 8 ≤ l then srcLane s f.a (l - (srcLane s f.b 0).toNat % 8) else 0)
    else if f.md = 2 then srcLane s f.a ((l + (srcLane s f.b 0).toNat % 8) % 8)
    else srcLane s f.a ((l + 8 - (srcLane s f.b 0).toNat % 8) % 8)) ∧
  ∀ f : EA, f.pm = .cu → (Instr.lperm f).wf = false ∧ (Instr.lbcast f).wf = false ∧ (Instr.lshift f).wf = false

/-- The combine of R140. -/
def Sys2Proof.Claim.combine (md : BitVec 2) (x y : Word) : Word :=
  if md = 0 then x + y else if md = 1 then rneF32 ((f32 x).add (f32 y))
  else if md = 2 then BitVec.ofNat 32 (fminmax fmtF32 true x.toNat y.toNat) else if x.toInt ≤ y.toInt then y else x

/-- The new state of a lane of `rstat` (R138): m′, l′, c, p. -/
def Sys2Proof.Claim.rstatOf (m l x : Word) : List Word :=
  if fmaxF32 m x = 0xFF800000 then [fmaxF32 m x, 0, 0, 0]
  else [fmaxF32 m x, fmaF32 l (exp2F32 (subF32 m (fmaxF32 m x))) (exp2F32 (subF32 x (fmaxF32 m x))),
        exp2F32 (subF32 m (fmaxF32 m x)), exp2F32 (subF32 x (fmaxF32 m x))]

/-- A firing of latency 12 that writes the group of four registers from x[D]; the PM test is that of the first (R138, R139). -/
def Sys2Proof.Claim.FiresGroup (i : Instr) (s : State) (d : XReg) (srcs : List Src) (pd : PReg) (pm : PUpd) (v : Nat → Nat → Word) :
    Prop :=
  ∃ t g, exec i s = .next t ∧ t.curCtx.fly = some g ∧ FireFrame s t .none srcs ∧ g.due = s.cycle + 11 ∧ g.o0 = none ∧
    g.o1 = none ∧ PredOf s g pd pm (v 0) (fun _ => false) ∧
    ∃ r : Nat → Data256, g.regs = [(d, r 0, s.focus.lanes), (d + 1, r 1, s.focus.lanes), (d + 2, r 2, s.focus.lanes),
      (d + 3, r 3, s.focus.lanes)] ∧ ∀ k l, k < 4 → l < 8 → laneOf (r k) l = v k l

/-- lred and lscan combine the lanes that execute in the fixed order of R140; rstat and rmerge write four registers of
R138 and R139 (R138, R139, R140, R126). -/
def Obligations.LaneReductionsAndStatistics : Prop :=
  (∀ (f : EA) (s : State), CanFire s f.d [f.a, f.b] → f.pm ≠ .cu → ∀ (x : Nat → Word) (op : Word → Word → Word),
    x = srcLane s f.a → op = combine f.md →
    (s.focus.lanes = 0xFF → ∃ t g, exec (.lred f) s = .next t ∧ t.curCtx.fly = some g ∧ FireFrame s t f.d [f.a, f.b] ∧
      InFlightOf s g (.lred f) 3 f.d f.tg (fun _ => op (op (op (x 0) (x 1)) (op (x 2) (x 3))) (op (op (x 4) (x 5)) (op (x 6) (x 7))))) ∧
    (s.focus.lanes = 0xFF → ∃ t g, exec (.lscan f) s = .next t ∧ t.curCtx.fly = some g ∧ FireFrame s t f.d [f.a, f.b] ∧
      InFlightOf s g (.lscan f) 3 f.d f.tg (fun l => ((List.range l).foldl (fun acc k => op acc (x (k + 1))) (x 0)))) ∧
    (∀ k, k < 8 → s.focus.lanes = BitVec.ofNat 8 (2 ^ k) → ∀ i ∈ [Instr.lred f, Instr.lscan f],
      ∃ t g, exec i s = .next t ∧ t.curCtx.fly = some g ∧ FireFrame s t f.d [f.a, f.b] ∧ g.due = s.cycle + 2 ∧
        (∀ n, f.d = .reg n → ∃ r, g.regs = [(n, r, s.focus.lanes)] ∧ laneOf r k = x k))) ∧
  (∀ (f : EA) (d : XReg) (s : State), f.d = .reg d → CanFire s .none [f.a] → f.pm ≠ .cu →
    FiresGroup (.rstat f) s d [f.a] f.pd f.pm (fun k l =>
      (rstatOf (laneOf (s.curCtx.reg d) l) (laneOf (s.curCtx.reg (d + 1)) l) (srcLane s f.a l))[k]?.getD 0)) ∧
  (∀ (d a : XReg) (pd : PReg) (pm : PUpd) (s : State), s.curCtx.fly = none → pm ≠ .cu →
    FiresGroup (.rmerge d a pd pm) s d [] pd pm (fun k l =>
      let z := mergeML (laneOf (s.curCtx.reg d) l) (laneOf (s.curCtx.reg (d + 1)) l) (laneOf (s.curCtx.reg a) l)
        (laneOf (s.curCtx.reg (a + 1)) l)
      [z.1, z.2.1, z.2.2.1, z.2.2.2][k]?.getD 0))

namespace Sys2Proof.Claim

/-- A firing whose instruction the element's storage, ports or nest look at: nothing outside the elements changes. -/
structure Acts (s t : State) (d : Dst) (srcs : List Src) : Prop where
  chans : FireChannels s t d srcs
  rest  : t = { s with fab := { s.fab with elems := t.fab.elems }, serial := s.serial + 1 }

/-- What is in flight only completes at the end of the next cycle: it writes and emits nothing. -/
def Plain (s : State) (g : InFlight) : Prop :=
  g.wait = .no ∧ g.due = s.cycle + 1 ∧ g.regs = [] ∧ g.preds = [] ∧ g.o0 = none ∧ g.o1 = none

/-- The lane and offset of each access (R157): A(l) in each lane that executes, A(0) for a whole token. -/
def accesses (s : State) (sz : ESize) (a : Src) : List (Nat × Nat) := laneOffsets s.focus.lanes sz (s.src a)

/-- What access x of a store sets at byte i of a range that begins at `lo`: its bytes of B, in lanes that execute. -/
def stores (s : State) (sz : ESize) (b : Src) (lo : Nat) (x : Nat × Nat) (i : Nat) : Option Byte :=
  if x.2 ≤ lo + i then ((accessBytes s.focus.lanes sz (s.src b) x.1)[lo + i - x.2]?).join else none

/-- The value that a load gives in lane l from the bytes of each access (R157): m is the lanes that execute, v the offsets. -/
def laneValue (m : BitVec 8) (sz : ESize) (sx : Bool) (v : Data256) (read : Nat → List Byte) (l : Nat) : Word :=
  if sz = .t then BitVec.ofNat 32 (leNat (((read (laneOf v 0).toNat).drop (4 * l)).take 4))
  else if m.getLsbD l then
    (if sx then (BitVec.ofNat (8 * esizeBytes sz) (leNat (read (laneOf v l).toNat))).signExtend 32
     else BitVec.ofNat 32 (leNat (read (laneOf v l).toNat)))
  else 0

/-- That value for the load that fires. -/
def loadedLane (s : State) (sz : ESize) (sx : Bool) (a : Src) (read : Nat → List Byte) (l : Nat) : Word :=
  laneValue s.focus.lanes sz sx (s.src a) read l

/-- Accesses to scratch within its 131,072 bytes and aligned (R155). -/
def InScratch (n : Nat) (xs : List (Nat × Nat)) : Prop := ∀ x ∈ xs, x.2 + n ≤ 131072 ∧ x.2 % n = 0

/-- No word of the accesses has met an uncorrected error (R392). -/
def Unspoilt (s : State) (n : Nat) (xs : List (Nat × Nat)) : Prop := ∀ x ∈ xs, s.curElem.meetsSpoilt x.2 n = false

/-- Scratch after a store: each byte is that of the last access that sets it, and as before where none does. -/
def ScratchStored (s t : State) (sz : ESize) (a b : Src) : Prop :=
  Memory.wf s.curElem.scr = true → ∀ k,
    ((∀ x ∈ accesses s sz a, stores s sz b k x 0 = none) → memRead t.curElem.scr k = memRead s.curElem.scr k) ∧
    (∀ x ∈ accesses s sz a, ∀ v, stores s sz b k x 0 = some v →
      (∀ y ∈ accesses s sz a, x.1 < y.1 → stores s sz b k y 0 = none) → memRead t.curElem.scr k = v)

/-- A site operation that may be looked at when it fires (R145, R149): its binding, its turn, its window, the page of each access
in the TLB of its hem tile, and no line that the host holds (R241). -/
structure SiteOpen (s : State) (g : Region) (t : Site) (k : SiteNo) (acc : Access) (n : Nat) (xs : List (Nat × Nat))
    (pa : Nat → Nat) (en : Nat → TlbEntry) : Prop where
  region : s.regionOf s.focus.elem = some g
  site   : s.curElem.pl.site k = some t
  turn   : s.hasTurn s.focus.elem t s.serial = true
  window : ∀ x ∈ xs, x.2 + n ≤ t.extent ∧ x.2 % n = 0
  pages  : ∀ x ∈ xs, s.lookup (hemOf s.focus.elem) t.asid acc true g.task (t.base + x.2) n = .ok (pa x.2) (en x.2) ∧
             (t.base + x.2) % 65536 + n ≤ 65536
  host   : ∀ x ∈ xs, s.ownedIn (pageAttr (en x.2)) (pa x.2) n = none

/-- The turn of a chain has passed to the next site of its round (R149). -/
def TurnPasses (s t : State) (b : Site) : Prop :=
  b.chain ≠ 0 → t.curElem.pl.turnAt b.chain = (s.curElem.pl.moveTurn b.chain).turnAt b.chain

/-- No write-back of the acting element waits for the host, no dirty sector lies in a line that the host holds (R241), and the
images show the dirty sectors under the keys of their pages (R243). -/
structure MayWriteBack (s : State) : Prop where
  none_ : s.holdsBack s.focus.elem = false
  free  : ∀ x ∈ s.curElem.sectors, x.dirty ≠ 0 → s.ownedIn x.page x.pa.toNat 64 = none
  keys  : ∀ x ∈ s.curElem.sectors, x.dirty ≠ 0 → KeyShows s x.page x.pa.toNat 64
  lines : ∀ x ∈ s.curElem.sectors, 0 ≤ x.pa ∧ x.pa % 64 = 0

/-- Dirty bytes of the sectors that P picks stand in the image of the element's die; no other byte of any image changes (R147). -/
def WrittenBack (s t : State) (P : SiteSector → Prop) : Prop :=
  MemInv s →
    (∀ x ∈ s.curElem.sectors, P x → ∀ i, i < 64 → x.dirty.getLsbD i = true →
      (∀ y ∈ s.curElem.sectors, P y → y ≠ x → ∀ j, j < 64 → y.dirty.getLsbD j = true → y.pa.toNat + j ≠ x.pa.toNat + i) →
      t.byteAt s.focus.elem.die (x.pa.toNat + i) = x.data.extractLsb' (8 * i) 8) ∧
    (∀ d a, (∀ x ∈ s.curElem.sectors, P x → ∀ i, i < 64 → x.dirty.getLsbD i = true → a ≠ x.pa.toNat + i) →
      t.byteAt d a = s.byteAt d a) ∧
    (∀ d a, isHostPa a = false → d % 8 ≠ s.focus.elem.die % 8 → t.byteAt d a = s.byteAt d a)

/-- The atomic steps of a `satm` in ascending lane order (R158): the value that each lane found, and the state. -/
def laneAtomics (s : State) (g : Region) (op : AOp) (b : Data256) (expect : Data256) (pa : Nat → Nat) (en : Nat → TlbEntry) :
    List (Nat × Nat) → List (Nat × Nat) × State
  | [] => ([], s)
  | x :: rest =>
    let r := s.atomicStep op (pa x.2) 4 (laneOf b x.1).toNat (laneOf expect x.1).toNat
      (s.mark g.ctx 63 false (pageAttr (en x.2)))
    let q := laneAtomics r.2 g op b expect pa en rest
    ((x.1, r.1) :: q.1, q.2)

end Sys2Proof.Claim

/-! ### Elements: storage, channels, ports and control (R142 to R175) -/

/-- xld, feld, xst, fest and feclr act on scratch and full bits as R155, R157 and R162 say (R155, R156, R157, R162,
R176). -/
def Obligations.ScratchInstructionsAct : Prop :=
  ∀ (d : Dst) (a b : Src) (sz : ESize) (sx take : Bool) (s : State),
    (CanFire s d [a, .zero] → InScratch (esizeBytes sz) (accesses s sz a) → Unspoilt s (esizeBytes sz) (accesses s sz a) →
      (∃ t g, exec (.xld d a sz sx) s = .next t ∧ t.curCtx.fly = some g ∧ Acts s t d [a, .zero] ∧ StoreKeeps s t ∧ g.preds = [] ∧
        InFlightOf s g (.xld d a sz sx) 4 d 0 (loadedLane s sz sx a fun o => readN s.curElem.scr o (esizeBytes sz))) ∧
      ((∀ k ∈ granulesOf (esizeBytes sz) (accesses s sz a), k ∈ s.curElem.full) →
        ∃ t g, exec (.feld take d a sz) s = .next t ∧ t.curCtx.fly = some g ∧ Acts s t d [a, .zero] ∧ g.preds = [] ∧
          t.curElem.scr = s.curElem.scr ∧ t.curElem.sectors = s.curElem.sectors ∧ t.curElem.posted = s.curElem.posted ∧
          (∀ k, k ∈ t.curElem.full ↔
            k ∈ s.curElem.full ∧ ¬(take = true ∧ k ∈ granulesOf (esizeBytes sz) (accesses s sz a))) ∧
          InFlightOf s g (.feld take d a sz) 4 d 0
            (loadedLane s sz false a fun o => readN s.curElem.scr o (esizeBytes sz))) ∧
      ((∃ k ∈ granulesOf (esizeBytes sz) (accesses s sz a), k ∉ s.curElem.full) →
        ∃ t g, exec (.feld take d a sz) s = .next t ∧ t.curCtx.fly = some g ∧ Acts s t d [a, .zero] ∧ StoreKeeps s t ∧
          g.wait = .granule ∧ g.due = s.cycle + 1)) ∧
    (CanFire s .none [a, b] → InScratch (esizeBytes sz) (accesses s sz a) →
      (∃ t g, exec (.xst a b sz) s = .next t ∧ t.curCtx.fly = some g ∧ Acts s t .none [a, b] ∧ Plain s g ∧
        ScratchStored s t sz a b ∧ t.curElem.full = s.curElem.full ∧ t.curElem.sectors = s.curElem.sectors ∧
        t.curElem.posted = s.curElem.posted) ∧
      (∃ t g, exec (.fest a b sz) s = .next t ∧ t.curCtx.fly = some g ∧ Acts s t .none [a, b] ∧ Plain s g ∧
        ScratchStored s t sz a b ∧ t.curElem.sectors = s.curElem.sectors ∧ t.curElem.posted = s.curElem.posted ∧
        (∀ k, k ∈ t.curElem.full ↔ k ∈ s.curElem.full ∨
          ∃ x ∈ accesses s sz a, x.2 / 16 ≤ k ∧ k ≤ (x.2 + esizeBytes sz - 1) / 16))) ∧
    (CanFire s .none [a, b] → ∀ o n, o = (laneOf (s.src a) 0).toNat → n = (laneOf (s.src b) 0).toNat →
      o % 16 = 0 → n % 16 = 0 → o + n ≤ 131072 →
      ∃ t g, exec (.feclr a b) s = .next t ∧ t.curCtx.fly = some g ∧ Acts s t .none [a, b] ∧ Plain s g ∧
        t.curElem.scr = s.curElem.scr ∧ t.curElem.sectors = s.curElem.sectors ∧ t.curElem.posted = s.curElem.posted ∧
        ∀ k, k ∈ t.curElem.full ↔ k ∈ s.curElem.full ∧ ¬(o ≤ 16 * k ∧ 16 * k < o + n))

/-- A store into a site buffer without anything fetched or dropped first: no spread group, every sector's line its own, all accesses
to a sector checked at one address. -/
structure Sys2Proof.Claim.StoreFits (s : State) (g : Region) (t : Site) (n : Nat) (xs : List (Nat × Nat)) (pa : Nat → Nat) :
    Prop where
  buffer : t.fill ≠ .none ∧ s.spread g t.group = false
  hits   : ∀ x ∈ xs, ∀ p : Part, p.off = x.2 → p.n = n → s.storeHits g s.focus.elem t (s.curElem.pl.bufSite t) n p = true
  lines  : ∀ x ∈ xs, ∀ y ∈ xs, t.lineOf x.2 % (s.curElem.pl.bufSite t).blines = t.lineOf y.2 % (s.curElem.pl.bufSite t).blines →
             t.lineOf x.2 = t.lineOf y.2
  agree  : ∀ x ∈ xs, ∀ y ∈ xs, x.2 / 64 = y.2 / 64 → pa x.2 + y.2 % 64 = pa y.2 + x.2 % 64
  held   : ∀ x ∈ xs, ∀ y ∈ s.curElem.sectors, y.site = (s.curElem.pl.bufSite t).no → y.lvl = s.levelsBelow s.focus.elem →
             y.va = t.base + x.2 / 64 * 64 → y.dirty = 0 ∨ y.pa + (x.2 % 64 : Nat) = (pa x.2 : Nat)

/-- The sectors of the element after such a store. -/
def Sys2Proof.Claim.SectorsStored (s t' : State) (t : Site) (sz : ESize) (a b : Src) : Prop :=
  let buf := (s.curElem.pl.bufSite t).no
  let lvl := s.levelsBelow s.focus.elem
  (∀ k l va, (∀ x ∈ accesses s sz a, ¬(k = buf ∧ l = lvl ∧ va = t.base + x.2 / 64 * 64)) →
    t'.curElem.sectorAt k l va = s.curElem.sectorAt k l va) ∧
  ∀ x ∈ accesses s sz a, ∃ y', t'.curElem.sectorAt buf lvl (t.base + x.2 / 64 * 64) = some y' ∧ ∀ i, i < 64 →
    (∀ v, stores s sz b (x.2 / 64 * 64) x i = some v →
      (∀ z ∈ accesses s sz a, x.1 < z.1 → stores s sz b (x.2 / 64 * 64) z i = none) →
      y'.data.extractLsb' (8 * i) 8 = v ∧ y'.dirty.getLsbD i = true) ∧
    ((∀ z ∈ accesses s sz a, stores s sz b (x.2 / 64 * 64) z i = none) →
      match s.curElem.sectorAt buf lvl (t.base + x.2 / 64 * 64) with
      | some y => y'.data.extractLsb' (8 * i) 8 = y.data.extractLsb' (8 * i) 8 ∧ y'.dirty.getLsbD i = y.dirty.getLsbD i
      | none => y'.dirty.getLsbD i = false)

/-- Whether a sector lies in a window range of a site's buffer on the active level (R159). -/
def Sys2Proof.Claim.inRange (s : State) (t : Site) (a b : Src) (x : SiteSector) : Prop :=
  t.covers (s.curElem.pl.bufSite t) (s.levelsBelow s.focus.elem) (t.range (s.src a) (s.src b)) x = true

/-- Whether a sector stands in a buffer line that `sinv` drops. -/
def Sys2Proof.Claim.inLines (s : State) (t : Site) (a b : Src) (x : SiteSector) : Prop :=
  x.site = (s.curElem.pl.bufSite t).no ∧ x.lvl = s.levelsBelow s.focus.elem ∧
    ∃ y ∈ s.curElem.sectors, inRange s t a b y ∧ y.line = x.line ∧ y.base = x.base

/-- sld, sst, satm, spf, scln, sinv and ordt act on buffers and memory once their turn, window and pages allow it
(R144, R145, R146, R147, R149, R150, R157, R158, R159). -/
def Obligations.SiteInstructionsAct : Prop :=
  ∀ (d : Dst) (k : SiteNo) (a b : Src) (sz : ESize) (sx : Bool) (op : AOp) (tg : BitVec 3) (s : State) (g : Region) (t : Site)
    (pa : Nat → Nat) (en : Nat → TlbEntry),
    (CanFire s d [a, .zero] → SiteOpen s g t k .read (esizeBytes sz) (accesses s sz a) pa en →
      (t.fill ≠ .none → (∀ x ∈ accesses s sz a, s.loadHits s.focus.elem t (s.curElem.pl.bufSite t) x.2 (esizeBytes sz) = true) →
        ∃ t' f, exec (.sld d k a sz sx) s = .next t' ∧ t'.curCtx.fly = some f ∧ Acts s t' d [a, .zero] ∧ StoreKeeps s t' ∧
          TurnPasses s t' t ∧ f.preds = [] ∧ InFlightOf s f (.sld d k a sz sx) 6 d 0
            (loadedLane s sz sx a fun o => s.sectorBytes s.focus.elem t (s.curElem.pl.bufSite t) o (esizeBytes sz))) ∧
      ((t.fill = .none ∨ ∃ x ∈ accesses s sz a,
          s.loadHits s.focus.elem t (s.curElem.pl.bufSite t) x.2 (esizeBytes sz) = false) →
        ∃ t' f, exec (.sld d k a sz sx) s = .next t' ∧ t'.curCtx.fly = some f ∧ FireChannels s t' d [a, .zero] ∧
          StoreKeeps s t' ∧ (if t.fill = .stream then f.wait = .turn else f.wait = .fill ∧ s.cycle < f.due) ∧ t'.mem = s.mem)) ∧
    (CanFire s .none [a, b] → SiteOpen s g t k .write (esizeBytes sz) (accesses s sz a) pa en →
      StoreFits s g t (esizeBytes sz) (accesses s sz a) pa →
      ∃ t' f, exec (.sst k a b sz) s = .next t' ∧ t'.curCtx.fly = some f ∧ Acts s t' .none [a, b] ∧ Plain s f ∧ TurnPasses s t' t ∧
        SectorsStored s t' t sz a b ∧ t'.curElem.scr = s.curElem.scr ∧ t'.curElem.full = s.curElem.full) ∧
    (CanFire s .none [a, b] → SiteOpen s g t k .write (esizeBytes sz) (accesses s sz a) pa en → t.fill = .none →
      ∀ x ∈ accesses s sz a, (∀ y ∈ accesses s sz a, y = x) → pa x.2 + 32 ≤ 0x8000000000000 → MemInv s →
      KeyShows s (pageAttr (en x.2)) (pa x.2) (esizeBytes sz) →
      ∃ t' f, exec (.sst k a b sz) s = .next t' ∧ t'.curCtx.fly = some f ∧ FireChannels s t' .none [a, b] ∧ StoreKeeps s t' ∧
        Plain s f ∧ ∀ i, t'.byteAt s.focus.elem.die (pa x.2 + i) =
          (((accessBytes s.focus.lanes sz (s.src b) x.1)[i]?).join).getD (s.byteAt s.focus.elem.die (pa x.2 + i))) ∧
    (CanFire s d [a, b] → SiteOpen s g t k .atomic 4 (accesses s .w a) pa en → s.spread g t.group = false →
      (∀ x ∈ accesses s .w a, s.spoilt s.focus.elem.die none (pa x.2) 4 = false) →
      (d = .none → ∃ t' f, exec (.satm op d k a b) s = .next t' ∧ t'.curCtx.fly = some f ∧ FireChannels s t' .none [a, b] ∧
        StoreKeeps s t' ∧ Plain s f ∧ t'.mem = (laneAtomics { s with serial := s.serial + 1 } g op (s.src b) 0 pa en
          (accesses s .w a)).2.mem) ∧
      (d ≠ .none → ∃ t' f, exec (.satm op d k a b) s = .next t' ∧ t'.curCtx.fly = some f ∧ FireChannels s t' d [a, b] ∧
        StoreKeeps s t' ∧ f.wait = .reply ∧ s.cycle < f.due ∧ t'.mem = s.mem)) ∧
    (CanFire s .none [a, b] → SiteOpen s g t k .read 1 [] pa en →
      (t.fill ≠ .demand → ∃ t' f, exec (.spf k a b) s = .next t' ∧ t'.curCtx.fly = some f ∧ Acts s t' .none [a, b] ∧
        StoreKeeps s t' ∧ Plain s f ∧ TurnPasses s t' t) ∧
      (∀ o, t.fill = .demand → rangeSectors (t.range (s.src a) (s.src b)) = [o] → ∀ p e,
        s.lookup (hemOf s.focus.elem) t.asid .read true g.task (t.base + o) 1 = .ok p e → (t.base + o) % 65536 + 64 ≤ 65536 →
        s.ownedIn (pageAttr e) p 64 = none → s.spoilt s.focus.elem.die none p 64 = false →
        ∃ t' f, exec (.spf k a b) s = .next t' ∧ t'.curCtx.fly = some f ∧ FireChannels s t' .none [a, b] ∧ Plain s f ∧
          t'.loadHits s.focus.elem t (s.curElem.pl.bufSite t) o 64 = true) ∧
      (MayWriteBack s → ∃ t' f, exec (.scln k a b) s = .next t' ∧ t'.curCtx.fly = some f ∧ FireChannels s t' .none [a, b] ∧ Plain s f ∧
        WrittenBack s t' (inRange s t a b) ∧ t'.curElem.sectors.length = s.curElem.sectors.length ∧
        (∀ x ∈ s.curElem.sectors, (inRange s t a b x → { x with dirty := 0 } ∈ t'.curElem.sectors) ∧
          (¬inRange s t a b x → x ∈ t'.curElem.sectors))) ∧
      (MayWriteBack s → ∃ t' f, exec (.sinv k a b) s = .next t' ∧ t'.curCtx.fly = some f ∧ FireChannels s t' .none [a, b] ∧ Plain s f ∧
        WrittenBack s t' (inLines s t a b) ∧
        ∀ x, x ∈ t'.curElem.sectors ↔ x ∈ s.curElem.sectors ∧ ¬inLines s t a b x)) ∧
    (CanFire s d [.zero, .zero] →
      (s.siteDone s.focus.elem k s.serial = true →
        ∃ t' f, exec (.ordt false d k tg) s = .next t' ∧ t'.curCtx.fly = some f ∧ Acts s t' d [.zero, .zero] ∧ StoreKeeps s t' ∧
          f.preds = [] ∧ InFlightOf s f (.ordt false d k tg) 2 d tg fun _ => 0) ∧
      (s.siteDone s.focus.elem k s.serial = false →
        ∃ t' f, exec (.ordt false d k tg) s = .next t' ∧ t'.curCtx.fly = some f ∧ Acts s t' d [.zero, .zero] ∧ StoreKeeps s t' ∧
          f.wait = .performed ∧ f.due = s.cycle + 1)) ∧
    (CanFire s .none [.zero, .zero] → SiteOpen s g t k .read 1 [] pa en →
      ∃ t' f, exec (.ordt true d k tg) s = .next t' ∧ t'.curCtx.fly = some f ∧ Acts s t' .none [.zero, .zero] ∧ StoreKeeps s t' ∧
        Plain s f ∧ TurnPasses s t' t)

/-- What is in flight completes at the end of the next cycle, with one token for each output that D names. -/
def Sys2Proof.Claim.Emits (s : State) (g : InFlight) (d : Dst) (tok : Token) : Prop :=
  g.wait = .no ∧ g.due = s.cycle + 1 ∧ g.regs = [] ∧ g.preds = [] ∧
    g.o0 = (if dstNames d false then some tok else none) ∧ g.o1 = (if dstNames d true then some tok else none)

/-- The predicate that an instruction of the nest writes, if it names one: v in every executing lane. -/
def Sys2Proof.Claim.WritesPred (s : State) (g : InFlight) (pr : Option PReg) (v : Bool) : Prop :=
  match pr with
  | none => g.preds = []
  | some p => ∃ b : BitVec 8, g.preds = [(p, b, s.focus.lanes)] ∧ ∀ l, l < 8 → b.getLsbD l = v

/-- Index, count and stride of level j (1 to 4) of a nest (R167, R168). -/
def Sys2Proof.Claim.nestIdx (n : LoopGen) (j : Nat) : Nat := (n.idx[j - 1]?).getD 0
/-- Count. -/
def Sys2Proof.Claim.nestCnt (n : LoopGen) (j : Nat) : Nat := ((n.cnts[j - 1]?).getD 0).toNat
/-- Stride. -/
def Sys2Proof.Claim.nestStride (n : LoopGen) (j : Nat) : Word := BitVec.ofInt 32 (((n.words[j]?).getD 0).extractLsb' 0 16).toInt

/-- Whether level j is used and not at its end. -/
def Sys2Proof.Claim.nestMore (n : LoopGen) (j : Nat) : Prop := nestCnt n j ≠ 0 ∧ nestIdx n j + 1 < nestCnt n j

/-- The nest after one value (R168): the lowest level that is not at its end steps and those below it restart; at the end of all
the nest restarts, or in token mode is disarmed. -/
structure Sys2Proof.Claim.Advanced (n m : LoopGen) : Prop where
  same : m.words = n.words ∧ m.base = n.base ∧ m.cnts = n.cnts
  step : ∀ k, 1 ≤ k → k ≤ 4 → nestMore n k → (∀ j, 1 ≤ j → j < k → ¬nestMore n j) → m.armed = n.armed ∧
           ∀ j, 1 ≤ j → j ≤ 4 → nestIdx m j = if j < k then 0 else if j = k then nestIdx n j + 1 else nestIdx n j
  last : (∀ j, 1 ≤ j → j ≤ 4 → ¬nestMore n j) → (∀ j, 1 ≤ j → j ≤ 4 → nestIdx m j = 0) ∧
           m.armed = !((n.words[5]?.getD 0).getLsbD 0)

/-- The scratch offset of a reload's weight block: A(0), or of `mrld` the one that NW0 gives (R165, R181). -/
def Sys2Proof.Claim.blockAt (s : State) (src : Option Src) (m : ElemId) : Nat :=
  match src with
  | some a => (laneOf (s.src a) 0).toNat
  | none => 16 * wfield ((s.elem m).pl.node 0) 31 19

/-- emit, hdr, drop, lgen, lgb, wsplit, wjoin and mrld of elements do what R165 to R171 say (R111, R165, R168, R169,
R170, R171). -/
def Obligations.ChannelInstructionsAct : Prop :=
  ∀ (d : Dst) (a b : Src) (c : BitVec 2) (tg : BitVec 3) (kt lane half : Bool) (pr : Option PReg) (k : BitVec 5) (s : State),
    (∀ e rest, CanFire s d [a, .zero] → (a = .take c ∨ a = .keep c) → s.curElem.pl.inq c.toNat = e :: rest →
      ∃ t g, exec (.emit kt d a tg) s = .next t ∧ t.curCtx.fly = some g ∧ FireFrame s t d [a, .zero] ∧
        Emits s g d ⟨e.tok.data, if kt then e.tok.tag else tg, e.tok.k⟩) ∧
    (CanFire s d [a, b] → ∃ t g tok, exec (.hdr d a b tg) s = .next t ∧ t.curCtx.fly = some g ∧ FireFrame s t d [a, b] ∧
      Emits s g d tok ∧ tok.tag = tg ∧ tok.k = true ∧ laneOf tok.data 0 = srcLane s a 0 ∧
      ∀ l, 1 ≤ l → l < 8 → laneOf tok.data l = srcLane s b l) ∧
    (CanFire s .none [asTake a, asTake b] → ∃ t g, exec (.drop false a b) s = .next t ∧ t.curCtx.fly = some g ∧
      Acts s t .none [asTake a, asTake b] ∧ StoreKeeps s t ∧ Plain s g) ∧
    (∀ e rest, CanFire s .none [.keep c, .zero] → (a = .take c ∨ a = .keep c) → s.curElem.pl.inq c.toNat = e :: rest →
      (e.tok.k = true → ∃ t g, exec (.drop true a b) s = .next t ∧ t.curCtx.fly = some g ∧
        Acts s t .none [.keep c, .zero] ∧ StoreKeeps s t ∧ Plain s g) ∧
      (e.tok.k = false → ∃ t g, exec (.drop true a b) s = .next t ∧ t.curCtx.fly = some g ∧
        Acts s t .none [.take c, .zero] ∧ StoreKeeps s t ∧ g.wait = .page ∧ g.due = s.cycle + 1)) ∧
    (CanFire s d [.zero, .zero] →
      (∀ n, s.curElem.pl.lgen = some n → n.armed = true →
        ∃ t g m, exec (.lgen lane d pr tg) s = .next t ∧ t.curCtx.fly = some g ∧ Acts s t d [.zero, .zero] ∧ StoreKeeps s t ∧
          t.curElem.pl.lgen = some m ∧ Advanced n m ∧
          InFlightOf s g (.lgen lane d pr tg) 2 d tg (fun l => n.base + BitVec.ofNat 32 (nestIdx n 1) * nestStride n 1 +
            BitVec.ofNat 32 (nestIdx n 2) * nestStride n 2 + BitVec.ofNat 32 (nestIdx n 3) * nestStride n 3 +
            BitVec.ofNat 32 (nestIdx n 4) * nestStride n 4 + if lane then BitVec.ofNat 32 (4 * l) else 0) ∧
          ((∀ j, 1 ≤ j → j ≤ 4 → ¬nestMore n j) → WritesPred s g pr true) ∧
          ((∃ j, 1 ≤ j ∧ j ≤ 4 ∧ nestMore n j) → WritesPred s g pr false)) ∧
      ((∀ n, s.curElem.pl.lgen = some n → n.armed = false) →
        ∃ t g, exec (.lgen lane d pr tg) s = .next t ∧ t.curCtx.fly = some g ∧ Acts s t d [.zero, .zero] ∧ StoreKeeps s t ∧
          t.curElem.pl.lgen = s.curElem.pl.lgen ∧ g.wait = .nest ∧ g.due = s.cycle + 1)) ∧
    (∀ n, CanFire s .none [a, .zero] → s.curElem.pl.lgen = some n →
      ∃ t g m, exec (.lgb a pr) s = .next t ∧ t.curCtx.fly = some g ∧ Acts s t .none [a, .zero] ∧ StoreKeeps s t ∧
        g.wait = .no ∧ g.due = s.cycle + 1 ∧ g.regs = [] ∧ g.o0 = none ∧ g.o1 = none ∧
        t.curElem.pl.lgen = some m ∧ m.words = n.words ∧ m.base = srcLane s a 0 ∧
        (∀ j, 1 ≤ j → j ≤ 4 → nestIdx m j = 0 ∧ nestCnt m j =
          if ((n.words[j]?).getD 0).extractLsb' 16 16 = 0 then 0 else (srcLane s a j).toNat % 65536) ∧
        (m.armed = true ↔ ∀ j, 1 ≤ j → j ≤ 4 → ((n.words[j]?).getD 0).extractLsb' 16 16 ≠ 0 →
          (srcLane s a j).toNat % 65536 ≠ 0) ∧ WritesPred s g pr (!m.armed)) ∧
    (∀ w, w = (if half then 16 else 8) → CanFire s d [a, .zero] →
      ∃ t g tok, exec (.wsplit half d a tg) s = .next t ∧ t.curCtx.fly = some g ∧ Acts s t d [a, .zero] ∧ StoreKeeps s t ∧
        g.wait = .pieces 1 ∧ g.due = s.cycle + 1 ∧ g.regs = [] ∧ g.preds = [] ∧
        g.o0 = (if dstNames d false then some tok else none) ∧ g.o1 = (if dstNames d true then some tok else none) ∧
        tok.tag = tg ∧ tok.k = false ∧ ∀ l, l < 8 → laneOf tok.data l =
          if s.focus.lanes.getLsbD l then BitVec.ofNat 32 ((s.src a).toNat / 2 ^ (w * l) % 2 ^ w) else 0) ∧
    (∀ n w, d = .reg n → w = (if half then 16 else 8) → CanFire s .none [a, .zero] →
      ∃ t g r, exec (.wjoin half d a k) s = .next t ∧ t.curCtx.fly = some g ∧ Acts s t .none [a, .zero] ∧ StoreKeeps s t ∧
        g.wait = .no ∧ g.due = s.cycle + 1 ∧ g.preds = [] ∧ g.o0 = none ∧ g.o1 = none ∧ g.regs = [(n, r, 0xFF)] ∧
        ∀ i, i < 256 → r.getLsbD i =
          if 8 * w * k.toNat ≤ i ∧ i < 8 * w * (k.toNat + 1) ∧ s.focus.lanes.getLsbD ((i - 8 * w * k.toNat) / w) = true then
            (srcLane s a ((i - 8 * w * k.toNat) / w)).getLsbD ((i - 8 * w * k.toNat) % w)
          else (s.curCtx.reg n).getLsbD i) ∧
    (∀ (src : Option Src) (m : ElemId), m = eastOf s.focus.elem → CanFire s .none [src.getD .zero, .zero] →
      ((s.elem m).pl.inert = true ∨ (s.elem m).region ≠ s.curElem.region →
        ∃ t g, exec (.mrld src) s = .next t ∧ t.curCtx.fly = some g ∧ Acts s t .none [src.getD .zero, .zero] ∧
          StoreKeeps s t ∧ Plain s g) ∧
      (∀ o, (s.elem m).pl.inert = false → (s.elem m).region = s.curElem.region → o = blockAt s src m → o % 16 = 0 →
        o + blockBytes ((s.elem m).pl.node 0) ≤ 131072 →
        ((s.elem m).pl.mel.reload = none → ∃ t g, exec (.mrld src) s = .next t ∧ t.curCtx.fly = some g ∧ Plain s g ∧
          StoreKeeps s t ∧ t.mem = s.mem ∧ (∀ e, e ≠ s.focus.elem → e ≠ m → t.elem e = s.elem e) ∧
          t.elem m = { s.elem m with pl := { (s.elem m).pl with
            mel := { (s.elem m).pl.mel with reload := some ⟨o, [], none⟩ } } }) ∧
        ((s.elem m).pl.mel.reload ≠ none → ∃ t g, exec (.mrld src) s = .next t ∧ t.curCtx.fly = some g ∧
          Acts s t .none [src.getD .zero, .zero] ∧ StoreKeeps s t ∧ g.wait = .latch ∧ g.due = s.cycle + 1)))

/-- The object of a port of the element that acts (R163, R164): its region's binding, translated as an atomic at the hem tile, in
no line that the host holds, and with no word that an uncorrected error has spoilt. -/
structure Sys2Proof.Claim.PortOpen (s : State) (g : Region) (barrier : Bool) (f n pa : Nat) (en : TlbEntry) : Prop where
  region : s.regionOf s.focus.elem = some g
  free   : s.snoopFirst (pageAttr en) pa = false
  clean  : s.spoilt s.focus.elem.die none pa n = false
  maps   : ∃ va, s.portVa s.focus.elem barrier f = some va ∧
             s.lookup (hemOf s.focus.elem) g.asid .atomic true g.task va n = .ok pa en

/-- One operation handed to the port of the element that acts; nothing else of storage or memory changes. -/
structure Sys2Proof.Claim.PostsOne (s t : State) (srcs : List Src) (kind : PostKind) (pa size : Nat) (tg : BitVec 3)
    (data : List Byte) : Prop where
  chans  : FireChannels s t .none srcs
  posted : ∃ p : Posted, t.curElem.posted = s.curElem.posted ++ [p] ∧ p.ctx = s.focus.ctx ∧ p.kind = kind ∧ p.pa = pa ∧
             p.size = size ∧ p.tag = tg ∧ p.data = data ∧ p.clock = s.clock s.focus.elem.die ∧ s.cycle < p.due ∧
             p.lvl = s.levelsBelow s.focus.elem
  keeps  : t.curElem.scr = s.curElem.scr ∧ t.curElem.full = s.curElem.full ∧ t.curElem.sectors = s.curElem.sectors ∧ t.mem = s.mem

/-- The element that an enqueue of a port carries: the first bytes of its token, zero in lanes that do not execute. -/
def Sys2Proof.Claim.portBytes (s : State) (b : Src) (n : Nat) : List Byte :=
  (toBytes 32 (maskLanes s.focus.lanes (s.src b)).toNat).take n

/-- eenq, edeq, ebar, ptake, pgive, gcall, gret, etrap and ehalt of elements act on ports, permits and regions (R163,
R164, R172, R174, R175, R283, R284, R94). -/
def Obligations.PortsPermitsAndControlAct : Prop :=
  ∀ (f : BitVec 5) (a : Src) (d : Dst) (tg : BitVec 3) (na load : Bool) (code : BitVec 10) (s : State) (g : Region) (pa : Nat)
    (en : TlbEntry) (k : QBlock),
    (PortOpen s g false f.toNat 64 pa en → k = s.qblock s.focus.elem.die pa → k.esize ≤ 32 →
      (CanFire s .none [a, .zero] → k.pmode ≠ 2 →
        ∃ t h, exec (.eenq true f a tg) s = .next t ∧ t.curCtx.fly = some h ∧ Plain s h ∧
          PostsOne s t [a, .zero] .enq pa k.esize tg (portBytes s a k.esize)) ∧
      (CanFire s .none [.zero, .zero] → k.cmode ≠ 2 →
        ∃ t h, exec (.edeq true f tg) s = .next t ∧ t.curCtx.fly = some h ∧ Plain s h ∧
          PostsOne s t [.zero, .zero] .deq pa k.esize tg []) ∧
      (k = s.qblock (homeDie pa) pa → k.unsound pa = 0 → k.corrupt = false → k.closed = false → pa + 64 ≤ 0x8000000000000 →
        (∀ w ∈ s.ports.parked, w.pa ≠ pa) → Memory.wf (s.image (homeDie pa)).mem = true →
        (pageAttr en).ms = false → KeyShows s (pageAttr en) pa 64 →
        (s.clock (homeDie pa)).covers (s.clock s.focus.elem.die) = true →
        (CanFire s .none [a, .zero] → k.pmode ≠ 2 → 1 ≤ k.free → KeyShows s (pageAttr en) (k.slotPa k.tail) k.esize → k.slotPa k.tail + k.esize ≤ 0x8000000000000 →
          (k.slotPa k.tail + k.esize ≤ pa ∨ pa + 64 ≤ k.slotPa k.tail) →
          ∃ t h, exec (.eenq false f a tg) s = .next t ∧ t.curCtx.fly = some h ∧ h.wait = .stamp ∧ h.due = s.cycle ∧
            h.clock = t.clock (homeDie pa) ∧ h.regs = [] ∧ h.preds = [] ∧ h.o0 = none ∧ h.o1 = none ∧ FireChannels s t .none [a, .zero] ∧ StoreKeeps s t ∧
            t.bytesAt (homeDie pa) (k.slotPa k.tail) k.esize = portBytes s a k.esize ∧
            (t.qblock (homeDie pa) pa).tail = (k.tail + 1) % 0x100000000 ∧ (t.qblock (homeDie pa) pa).free = k.free - 1 ∧
            (t.qblock (homeDie pa) pa).head = k.head) ∧
        (CanFire s .none [.zero, .zero] → k.cmode ≠ 2 → k.count ≠ 0 → k.slotPa k.head + k.esize ≤ 0x8000000000000 →
          KeyShows s (pageAttr en) (k.slotPa k.head) k.esize →
          ∃ t h p, exec (.edeq false f tg) s = .next t ∧ t.curCtx.fly = some h ∧ h.wait = .delivery ∧
            FireChannels s t .none [.zero, .zero] ∧ StoreKeeps s t ∧
            t.fab.packets = s.fab.packets ++ [p] ∧ p.dst = s.focus.elem ∧ p.frees = some s.focus.ctx ∧ p.clock = some (t.clock (homeDie pa)) ∧
            p.load = .queue 2 (tokenOf (s.bytesAt (homeDie pa) (k.slotPa k.head) k.esize) tg) ∧
            (t.qblock (homeDie pa) pa).head = (k.head + 1) % 0x100000000 ∧ (t.qblock (homeDie pa) pa).tail = k.tail))) ∧
    (PortOpen s g true f.toNat 16 pa en → CanFire s .none [.zero, .zero] →
      ∃ t h, exec (.ebar na f tg) s = .next t ∧ t.curCtx.fly = some h ∧ Plain s h ∧
        PostsOne s t [.zero, .zero] (if na then .barNa else .bar) pa 16 tg []) ∧
    (CanFire s .none [a, .zero] → ∃ t h, exec (.ptake a) s = .next t ∧ t.curCtx.fly = some h ∧ Acts s t .none [a, .zero] ∧
      StoreKeeps s t ∧ Plain s h) ∧
    (CanFire s d [.zero, .zero] →
      ((∀ p ∈ s.curElem.posted, p.ctx ≠ s.focus.ctx) → (∀ u ∈ s.fab.updates, u.src = s.focus.elem → u.ctx ≠ s.focus.ctx) →
        ∃ t h, exec (.pgive d tg) s = .next t ∧ t.curCtx.fly = some h ∧ Acts s t d [.zero, .zero] ∧ StoreKeeps s t ∧
          Emits s h d ⟨0, tg, false⟩) ∧
      ((∃ p ∈ s.curElem.posted, p.ctx = s.focus.ctx) → ∃ t h, exec (.pgive d tg) s = .next t ∧ t.curCtx.fly = some h ∧
        Acts s t d [.zero, .zero] ∧ StoreKeeps s t ∧ h.wait = .permit ∧ h.due = s.cycle + 1)) ∧
    (s.regionOf s.focus.elem = some g → CanFire s .none [.zero] → g.call = none → g.ret = none → g.wave = none →
      (∃ t h, exec (.eGcall f) s = .next t ∧ t.curCtx.fly = some h ∧ h.instr = .eGcall f ∧ Plain s h ∧
        FireChannels s t .none [.zero] ∧ StoreKeeps s t ∧ t.mem = s.mem ∧
        t.region g.id = some { g with call := some (s.focus.elem, f.toNat) } ∧ ∀ id, id ≠ g.id → t.region id = s.region id) ∧
      (∃ t h, exec .eGret s = .next t ∧ t.curCtx.fly = some h ∧ h.instr = .eGret ∧ Plain s h ∧
        FireChannels s t .none [.zero] ∧ StoreKeeps s t ∧ t.mem = s.mem ∧
        t.region g.id = some { g with ret := some (some s.focus.elem) } ∧ ∀ id, id ≠ g.id → t.region id = s.region id)) ∧
    (s.regionOf s.focus.elem = some g → s.focus.elem.col % 8 ≠ 3 → CanFire s .none [a] → ∀ words,
      words = recordWords 0x18 0 1 s.focus.elem.die (whoElem s.focus.elem) g.asid s.focus.ctx g.ctx code.toNat
        ((srcLane s a 0).setWidth 64) 0 →
      (∃ t h r, exec (.etrap true a code) s = .next t ∧ t.curCtx.fly = some h ∧ Plain s h ∧ FireChannels s t .none [a] ∧
        StoreKeeps s t ∧ t.ctxs.records = s.ctxs.records ++ [r] ∧ r.words = words ∧ r.ctx = g.ctx ∧ t.tasks = s.tasks ∧
        t.mem = s.mem) ∧
      (∃ t r, exec (.etrap false a code) s = .next t ∧ t.curCtx.fly = none ∧ t.curCtx.stopped = true ∧ StoreKeeps s t ∧
        t.ctxs.records = s.ctxs.records ++ (if g.failed = none then [r] else []) ∧ r.words = words ∧ r.ctx = g.ctx ∧ t.mem = s.mem ∧
        ∃ h, t.region g.id = some h ∧ h.failed = some (g.failed.getD 0x18))) ∧
    (CanFire s .none [.zero] → ∃ t h, exec (.ehalt load) s = .next t ∧ t.curCtx.fly = some h ∧ h.instr = .ehalt load ∧
      Plain s h ∧ FireFrame s t .none [.zero])

namespace Sys2Proof.Claim

/-- Elements other than those named are as before, and so is everything outside the fabric but the element in focus and the count of
events. -/
def OnlyElems (s t : State) (es : List ElemId) : Prop :=
  (∀ e, e ∉ es → t.elem e = s.elem e) ∧
    t = { s with fab := { s.fab with elems := t.fab.elems }, focus := t.focus, serial := t.serial }

/-- A completing firing's register writes, each register named once: lanes under the mask take the value (R103). -/
def RegsWritten (old new : TCtx) (f : InFlight) : Prop :=
  (∀ w ∈ f.regs, ∀ l, l < 8 → laneOf (new.reg w.1) l = if w.2.2.getLsbD l then laneOf w.2.1 l else laneOf (old.reg w.1) l) ∧
  (∀ n, (∀ w ∈ f.regs, w.1 ≠ n) → new.reg n = old.reg n) ∧
  (∀ w ∈ f.preds, ∀ l, l < 8 → (new.pred w.1).getLsbD l = if w.2.2.getLsbD l then w.2.1.getLsbD l else (old.pred w.1).getLsbD l) ∧
  (∀ n, (∀ w ∈ f.preds, w.1 ≠ n) → new.pred n = old.pred n)

/-- The first entry that a context reserved in an output queue takes the token of its firing (R103, R125). -/
def OutFilled (old new : List OutEntry) (c cycle : Nat) (tok : Option Token) : Prop :=
  match tok with
  | none => new = old
  | some k => ∀ pre post, old = pre ++ [OutEntry.reserved c] ++ post → OutEntry.reserved c ∉ pre →
      new = pre ++ [OutEntry.filled ⟨k, cycle⟩] ++ post

end Sys2Proof.Claim

/-! ### What happens without an instruction: the fabric -/

/-- FIRING_COMPLETE writes results; SITE_FILL_ARRIVAL and CHAIN_TURN end waits; gating and waking follow R118 (R103,
R118, R144, R149, R150, R170, R175, R283, R284). -/
def Obligations.FiringsCompleteAndWaitsEnd : Prop :=
  ∀ (e : ElemId) (c : Nat) (s : State),
    (∀ f, s.flying e c = some f → f.due ≤ s.cycle → f.wait = .no → (f.regs.map Prod.fst).Nodup → (f.preds.map Prod.fst).Nodup →
      ∃ t, exec (.firingComplete e c) s = .next t ∧ t.flying e c = none ∧
        RegsWritten ((s.elem e).pl.ctx c) ((t.elem e).pl.ctx c) f ∧
        (∀ k, k % 4 ≠ c % 4 → (t.elem e).pl.ctx k = (s.elem e).pl.ctx k) ∧
        (f.instr ≠ .eGret → OutFilled ((s.elem e).pl.outq false) ((t.elem e).pl.outq false) c s.cycle f.o0 ∧
          OutFilled ((s.elem e).pl.outq true) ((t.elem e).pl.outq true) c s.cycle f.o1) ∧
        (t.elem e).scr = (s.elem e).scr ∧ (t.elem e).sectors = (s.elem e).sectors ∧ t.mem = s.mem ∧
        (∀ k, (t.elem e).pl.inq k = (s.elem e).pl.inq k) ∧
        ((∀ x, f.instr ≠ .eGcall x) → f.instr ≠ .eGret → (∀ x, f.instr ≠ .ehalt x) →
          OnlyElems s t [e] ∧ ((t.elem e).pl.ctx c).stopped = ((s.elem e).pl.ctx c).stopped) ∧
        (f.instr = .ehalt false → ((t.elem e).pl.ctx c).stopped = true ∧ t.tasks = s.tasks) ∧
        (∀ g, s.regionOf e = some g →
          (f.instr = .ehalt true → t.region g.id = some { g with ending := true }) ∧
          (f.instr = .eGret → (∃ h, t.region g.id = some h ∧ h.ending = true) ∧ (f.o0 = none → f.o1 = none → ∀ o : Bool,
            (t.elem e).pl.outq o = if g.depth = 0 then ((s.elem e).pl.outq o).filter fun z =>
                match z with | .filled x => x.tok.tag != 7 | .reserved _ => true
              else (s.elem e).pl.outq o)) ∧
          (∀ x, f.instr = .eGcall x → g.wave = none →
            ∃ h, t.region g.id = some h ∧ h.wave = some ⟨[.call x.toNat (some e) none], s.cycle⟩))) ∧
    (∀ f half d src tg k, s.flying e c = some f → f.due ≤ s.cycle → f.instr = .wsplit half d src tg → f.wait = .pieces k →
      s.waving e = false → ∀ n w, n = (if half then 2 else 4) → w = (if half then 16 else 8) →
      ∃ t, exec (.firingComplete e c) s = .next t ∧ OnlyElems s t [e] ∧
        (k = n → t.flying e c = none ∧ OutFilled ((s.elem e).pl.outq false) ((t.elem e).pl.outq false) c s.cycle f.o0 ∧
          OutFilled ((s.elem e).pl.outq true) ((t.elem e).pl.outq true) c s.cycle f.o1) ∧
        (k < n → (∀ o, dstNames d o = true → (s.elem e).pl.outUsed o s.cycle < 2) → ∃ h tok, t.flying e c = some h ∧
          h.wait = .pieces (k + 1) ∧ h.due = s.cycle + 1 ∧ h.o0 = (if dstNames d false then some tok else none) ∧
          h.o1 = (if dstNames d true then some tok else none) ∧ tok.tag = tg ∧ tok.k = false ∧
          ∀ l, l < 8 → laneOf tok.data l =
            if f.exec_.getLsbD l then BitVec.ofNat 32 (f.a.toNat / 2 ^ (w * (8 * k + l)) % 2 ^ w) else 0)) ∧
    (∀ f d k a sz sx g b (pa : Nat → Nat) (en : Nat → TlbEntry), s.flying e c = some f → f.wait = .fill → f.due ≤ s.cycle → f.instr = .sld d k a sz sx →
      f.fails = none → s.regionOf e = some g → (s.elem e).pl.site k = some b → s.hasTurn e b f.id = true → b.fill = .none →
      (∀ x ∈ laneOffsets f.exec_ sz f.a, x.2 + esizeBytes sz ≤ b.extent ∧ x.2 % esizeBytes sz = 0 ∧
        s.lookup (hemOf e) b.asid .read true g.task (b.base + x.2) (esizeBytes sz) = .ok (pa x.2) (en x.2) ∧
        (b.base + x.2) % 65536 + esizeBytes sz ≤ 65536 ∧ s.ownedIn (pageAttr (en x.2)) (pa x.2) (esizeBytes sz) = none ∧
        s.spoilt e.die none (pa x.2) (esizeBytes sz) = false ∧ KeyShows s (pageAttr (en x.2)) (pa x.2) (esizeBytes sz)) →
      ∃ t h, exec (.siteFillArrival e c) s = .next t ∧ t.flying e c = some h ∧ h.wait = .no ∧ h.due = s.cycle + 5 ∧
        (∀ n, d = .reg n → ∃ r, h.regs = [(n, r, f.exec_)] ∧
          ∀ l, l < 8 → laneOf r l = laneValue f.exec_ sz sx f.a (fun o => s.bytesAt e.die (pa o) (esizeBytes sz)) l)) ∧
    (∀ f k g b, s.flying e c = some f → f.wait = .turn → s.waving e = false → s.regionOf e = some g →
      siteNamed f.instr = some k → (s.elem e).pl.site k = some b → b.chain ≠ 0 → s.hasTurn e b f.id = true →
      (f.fails ≠ none → ∃ t, exec (.chainTurn e c) s = .next t ∧ t.flying e c = none ∧ OnlyElems s t [e] ∧
        (t.elem e).pl.turnAt b.chain = ((s.elem e).pl.moveTurn b.chain).turnAt b.chain) ∧
      (∀ d tg, f.fails = none → f.instr = .ordt true d k tg → ∃ t h, exec (.chainTurn e c) s = .next t ∧
        t.flying e c = some h ∧ h.wait = .no ∧ h.due = s.cycle + 1 ∧ OnlyElems s t [e] ∧
        (t.elem e).pl.turnAt b.chain = ((s.elem e).pl.moveTurn b.chain).turnAt b.chain)) ∧
    ((s.elem e).gate = .awake → 16 ≤ (s.elem e).idleFor → (s.elem e).idle = true →
      exec (.elementClockGate e) s = .next (s.setElem e { s.elem e with gate := .clock })) ∧
    ((s.elem e).gate = .clock → 4096 ≤ (s.elem e).idleFor → (s.elem e).idle = true →
      exec (.elementPowerGate e) s = .next (s.setElem e { s.elem e with gate := .power })) ∧
    ((s.elem e).gate ≠ .power → (s.elem e).st = .unconfigured →
      exec (.elementPowerGate e) s = .next (s.setElem e { s.elem e with gate := .power })) ∧
    (∀ u, (s.elem e).gate = .waking u → u ≤ s.cycle →
      exec (.elementWake e) s = .next (s.setElem e { s.elem e with gate := .awake, idleFor := 0 }))

/-- A posted port operation that its port can send: the way to its home is open, the home covers the clock of its request, the host
holds no line of its object, which lies on no MS page, and the key of its page shows its first n bytes; nobody is parked there. -/
structure Sys2Proof.Claim.Sends (s : State) (e : ElemId) (p : Posted) (n : Nat) : Prop where
  path   : s.reachPa e.die p.pa = .open_
  covers : (s.clock (homeDie p.pa)).covers p.clock = true
  free   : s.ownedIn p.page p.pa 16 = none
  page   : p.page.ms = false ∧ KeyShows s p.page p.pa n ∧ p.pa + n ≤ 0x8000000000000
  alone  : ∀ w ∈ s.ports.parked, w.pa ≠ p.pa
  canon  : Memory.wf (s.image (homeDie p.pa)).mem = true

/-- A ring as the step of a posted operation needs it. -/
structure Sys2Proof.Claim.RingAlone (s : State) (pa : Nat) (k : QBlock) : Prop where
  block : k = s.qblock (homeDie pa) pa ∧ k.unsound pa = 0 ∧ k.corrupt = false

/-- A token from o0 of an element on plane A to i0 of its neighbour in the east. -/
def Sys2Proof.Claim.RouterMoves (e x : ElemId) (s : State) : Prop :=
  -- a token from o0 of an element on plane A to i0 of its neighbour in the east
  (∀ h rest, x = { e with col := e.col + 1 } → e.col < 79 → (s.elem e).pl.outq false = .filled h :: rest → h.at_ < s.cycle →
    (h.tok.tag ≠ 7 ∨ isM e = true) → (s.elem e).pl.dirs .a 5 = [1] → (s.elem e).pl.sel .a 4 ≠ 5 →
    (s.elem e).pl.hopOn .a = false → (s.elem e).pl.dirs .b 5 = [] → (s.elem e).pl.sel .b 4 ≠ 5 → s.joined e x = true →
    (s.elem x).pl.sel .a 4 = 4 → (s.elem x).pl.dirs .a 4 = [] → (s.elem x).gate = .awake →
    ((s.elem x).pl.inq 0).length < 4 → s.mayMove e = true →
    ∃ t, exec (.routerForward (.out e false)) s = .next t ∧ OnlyElems s t [e, x] ∧
      (t.elem e).pl.outq false = rest ∧ (t.elem e).pl.outq true = (s.elem e).pl.outq true ∧
      (t.elem x).pl.inq 0 = (s.elem x).pl.inq 0 ++ [(⟨h.tok, s.cycle⟩ : Entry)] ∧
      (∀ k, k % 4 ≠ 0 → (t.elem x).pl.inq k = (s.elem x).pl.inq k) ∧ (∀ k, (t.elem e).pl.inq k = (s.elem e).pl.inq k))

/-- What the row network delivers. -/
def Sys2Proof.Claim.RowPacketArrives (e x : ElemId) (s : State) : Prop :=
  (∀ i p, s.fab.packets[i]? = some p → p.dst = e → p.by_ = 0 → s.deliverable p = true → p.frees = none →
    (∀ ch tok, p.load = .queue ch tok → ((s.elem e).pl.inq ch).length < 4 →
      ∃ t, exec (.rowPacketDelivery e.die i) s = .next t ∧ t.fab.packets = s.fab.packets.erase p ∧
        (t.elem e).pl.inq ch = (s.elem e).pl.inq ch ++ [(⟨tok, s.cycle⟩ : Entry)] ∧ t.mem = s.mem ∧
        (∀ k, k % 4 ≠ ch % 4 → (t.elem e).pl.inq k = (s.elem e).pl.inq k) ∧ ∀ y, y ≠ e → t.elem y = s.elem y) ∧
    (∀ off tok, p.load = .scratch off tok → Memory.wf (s.elem e).scr = true →
      ∃ t, exec (.rowPacketDelivery e.die i) s = .next t ∧ t.fab.packets = s.fab.packets.erase p ∧ t.mem = s.mem ∧
        readN (t.elem e).scr off 32 = toBytes 32 tok.data.toNat ∧
        (∀ k, k < off ∨ off + 32 ≤ k → memRead (t.elem e).scr k = memRead (s.elem e).scr k) ∧
        (∀ k, k ∈ (t.elem e).full ↔ k ∈ (s.elem e).full ∨ (off / 16 ≤ k ∧ k ≤ (off + 31) / 16)) ∧
        ∀ y, y ≠ e → t.elem y = s.elem y))

/-- Updates of spread groups: to the directory, and to the holders. -/
def Sys2Proof.Claim.UpdatesGoRound (e x : ElemId) (s : State) : Prop :=
  (∀ g u, s.nextForward g = some u → ∀ hs, hs = (s.holdersOf (((s.region g).map Region.key).getD 0) u.group u.va).filter (· != u.src) →
    (hs ≠ [] → ∃ t v, exec (.directoryForward g) s = .next t ∧ t.fab.updates = s.fab.updates.erase u ++ [v] ∧
      v.stage = 1 ∧ v.toward = hs ∧ v.va = u.va ∧ v.mask = u.mask ∧ v.data = u.data ∧ v.src = u.src ∧ s.cycle < v.due ∧
      t.fab.elems = s.fab.elems ∧ t.mem = s.mem) ∧
    (hs = [] → ∃ t, exec (.directoryForward g) s = .next t ∧ t.fab.updates = s.fab.updates.erase u ∧ t.mem = s.mem)) ∧
  (∀ g, (∀ y ∈ s.toApply g, (s.elem y.2).gate ≠ .awake) → ∃ t, exec (.spreadUpdateApply g) s = .next t ∧
    t.fab.updates = s.fab.updates ∧ ∀ y ∈ s.toApply g, (s.elem y.2).gate = .clock → (t.elem y.2).gate = .waking (s.cycle + 2)) ∧
  (∀ g u, (s.toApply g).find? (fun y => decide ((s.elem y.2).gate = .awake)) = some (u, e) → ∃ t, exec (.spreadUpdateApply g) s = .next t ∧ t.mem = s.mem ∧
    (t.elem e).sectors.length = (s.elem e).sectors.length ∧
    (∀ y ∈ (s.elem e).sectors, y.va = u.va → (∃ b ∈ (s.elem e).pl.sites, b.no = y.site ∧ b.group = u.group) →
      ∃ y' ∈ (t.elem e).sectors, y' = { y with data := y'.data } ∧ ∀ i, i < 64 → y'.data.extractLsb' (8 * i) 8 =
        if u.mask.getLsbD i then u.data.extractLsb' (8 * i) 8 else y.data.extractLsb' (8 * i) 8) ∧
    (∀ y ∈ (s.elem e).sectors, y.va ≠ u.va → y ∈ (t.elem e).sectors))

/-- What an element asked of a queue by `eenq.t` gives. -/
def Sys2Proof.Claim.EnqueueAnswers (e x : ElemId) (s : State) : Prop :=
  -- what the ports answer
  (∀ p k, s.firstPost e (fun z => z = .enq) = some p → Sends s e p 64 → RingAlone s p.pa k →
    p.size = k.esize → k.closed = false → p.data.length = k.esize →
    (k.free = 0 → ∃ t q tok, exec (.eenqStatusDelivery e) s = .next t ∧ t.fab.packets = s.fab.packets ++ [q] ∧ q.dst = e ∧
      q.load = .queue 2 tok ∧ tok.tag = p.tag ∧ laneOf tok.data 0 = 0 ∧ t.mem = s.mem ∧
      (t.elem e).posted = (s.elem e).posted.erase p) ∧
    (1 ≤ k.free → KeyShows s p.page (k.slotPa k.tail) k.esize → k.slotPa k.tail + k.esize ≤ 0x8000000000000 → (k.slotPa k.tail + k.esize ≤ p.pa ∨ p.pa + 64 ≤ k.slotPa k.tail) →
      ∃ t q tok, exec (.eenqStatusDelivery e) s = .next t ∧ t.fab.packets = s.fab.packets ++ [q] ∧ q.dst = e ∧
        q.load = .queue 2 tok ∧ tok.tag = p.tag ∧ laneOf tok.data 0 = 1 ∧ (t.elem e).posted = (s.elem e).posted.erase p ∧
        t.bytesAt (homeDie p.pa) (k.slotPa k.tail) k.esize = p.data ∧
        (t.qblock (homeDie p.pa) p.pa).tail = (k.tail + 1) % 0x100000000))

/-- What `edeq.t` gives. -/
def Sys2Proof.Claim.DequeueAnswers (e x : ElemId) (s : State) : Prop :=
  (∀ p k, s.firstPost e (fun z => z = .deq) = some p → Sends s e p 64 → RingAlone s p.pa k → p.size = k.esize →
    (k.count = 0 → k.closed = false → ∃ t q, exec (.edeqDelivery e) s = .next t ∧ t.fab.packets = s.fab.packets ++ [q] ∧
      q.dst = e ∧ q.load = .queue 2 ⟨0, 7, false⟩ ∧ t.mem = s.mem ∧ (t.elem e).posted = (s.elem e).posted.erase p) ∧
    (k.count ≠ 0 → KeyShows s p.page (k.slotPa k.head) k.esize → k.slotPa k.head + k.esize ≤ 0x8000000000000 → ∃ t q, exec (.edeqDelivery e) s = .next t ∧
      t.fab.packets = s.fab.packets ++ [q] ∧ q.dst = e ∧ (t.elem e).posted = (s.elem e).posted.erase p ∧
      q.load = .queue 2 (tokenOf (s.bytesAt (homeDie p.pa) (k.slotPa k.head) k.esize) p.tag) ∧
      (t.qblock (homeDie p.pa) p.pa).head = (k.head + 1) % 0x100000000))

/-- What `ebar` gives. -/
def Sys2Proof.Claim.ArrivalAnswers (e x : ElemId) (s : State) : Prop :=
  (∀ p w, s.firstPost e (fun z => z = .bar || z = .barNa) = some p → p.kind = .bar →
    Sends s e p 16 → w = s.bword (homeDie p.pa) p.pa → w.sound p.pa = true →
    w.poisoned = false → ((w.scope = 0 ∨ w.scope = 2) → e.die = homeDie p.pa) →
    ((w.scope = 1 ∨ w.scope = 3) → ∀ d, d < 8 → (s.clock d).covers p.clock = true) →
    (w.arrived + 1 = w.count → ∃ t q, exec (.barReleaseToken e) s = .next t ∧ t.fab.packets = s.fab.packets ++ [q] ∧
      q.dst = e ∧ q.control = true ∧ q.load = .queue 3 (tokenOf (toBytes 4 w.phase) p.tag) ∧
      t.bword (homeDie p.pa) p.pa = { w with arrived := 0, phase := (w.phase + 1) % 0x100000000 }) ∧
    (w.arrived + 1 < w.count → ∃ t v, exec (.barReleaseToken e) s = .next t ∧ t.fab.packets = s.fab.packets ∧
      t.ports.parked = s.ports.parked ++ [v] ∧ v.party = .elem e p.ctx ∧ v.pa = p.pa ∧ v.side = .barrier ∧
      t.bword (homeDie p.pa) p.pa = { w with arrived := w.arrived + 1 }))

/-- A parked queue operation taken back. -/
def Sys2Proof.Claim.WaiterCancelled (e x : ElemId) (s : State) : Prop :=
  (∀ n w, s.ports.parked.find? (fun v => decide (v.party = .strand n)) = some w → w.side ≠ .barrier → s.cancels (.strand n) = true →
    ∃ t, exec (.queueOpCancel (.strand n)) s = .next t ∧ t.ports.parked = s.ports.parked.erase w ∧
      (t.strand n).progress = none ∧ (t.strand n).g = (s.strand n).g ∧ (t.strand n).pc = (s.strand n).pc)

/-- Routers, the row network, directories and ports deliver tokens, updates, status, elements and releases (R87, R107,
R108, R110, R153, R163, R164, R326, R340). -/
def Obligations.TokensUpdatesAndPortsMove : Prop :=
  ∀ (e x : ElemId) (s : State),
    RouterMoves e x s ∧ RowPacketArrives e x s ∧ UpdatesGoRound e x s ∧ EnqueueAnswers e x s ∧ DequeueAnswers e x s ∧ ArrivalAnswers e x s ∧ WaiterCancelled e x s

/-- The M-element's own state after an event, all other elements and the rest of the machine being as before. -/
def Sys2Proof.Claim.MelOnly (s t : State) (e : ElemId) (m : MElem) : Prop :=
  OnlyElems s t [e] ∧ (t.elem e).pl.mel = m ∧ (t.elem e).scr = (s.elem e).scr ∧ (t.elem e).full = (s.elem e).full ∧
    (t.elem e).pl.nw = (s.elem e).pl.nw

/-- WEIGHT_LATCH, ROW_ASSEMBLY, MROW_FIRE and MROW_OUTPUT do the work of an M-element (R26, R29, R48, R49, R111, R112,
R113, R115, R183). -/
def Obligations.MElementsLoadAssembleAndFire : Prop :=
  ∀ (e : ElemId) (s : State) (p : Plane4K) (m : MElem), p = (s.elem e).pl → m = p.mel →
    (∀ r, m.reload = some r →
      (∀ n got, r.ends = none → n = min 128 (blockBytes (p.node 0) - r.got.length) →
        (∀ k ∈ readGranules (r.off + r.got.length) n, k ∈ (s.elem e).full) →
        (s.elem e).meetsSpoilt (r.off + r.got.length) n = false →
        got = r.got ++ readN (s.elem e).scr (r.off + r.got.length) n →
        ∃ t, exec (.weightLatch e) s = .next t ∧ MelOnly s t e
          { m with reload := some ⟨r.off, got, if blockBytes (p.node 0) ≤ got.length then some (s.cycle + 4) else none⟩ }) ∧
      (∀ u, r.ends = some u → u ≤ s.cycle → ∃ t, exec (.weightLatch e) s = .next t ∧
        MelOnly s t e { m with reload := none, weights := some ⟨p.node 0, r.got⟩ })) ∧
    (∀ x rest, s.melRuns e = true → p.inq p.nextChan = x :: rest → x.at_ < s.cycle → p.inq (1 - p.nextChan) = [] →
      m.rowq.length < 4 →
      (x.tok.k = false → m.part.length + 1 ≠ p.rowTokens → ∃ t, exec (.rowAssembly e) s = .next t ∧
        MelOnly s t e { m with part := m.part ++ [x.tok] } ∧
        (t.elem e).pl.inq p.nextChan = rest ++ (p.landq p.nextChan).take 1) ∧
      (x.tok.k = false → m.part.length + 1 = p.rowTokens → ∃ t, exec (.rowAssembly e) s = .next t ∧
        MelOnly s t e { m with part := [], rowq := m.rowq ++ [(m.part ++ [x.tok], m.scales)], onI1 := !m.onI1 } ∧
        (t.elem e).pl.inq p.nextChan = rest ++ (p.landq p.nextChan).take 1) ∧
      (x.tok.k = true → m.part = [] → scaleHeader p.afmt (laneOf x.tok.data 0) = true → ∃ t, exec (.rowAssembly e) s = .next t ∧
        MelOnly s t e { m with scales := some ⟨(laneOf x.tok.data 0).extractLsb' 8 4,
          [0, 1, 2, 3].map fun b => (laneOf x.tok.data b).extractLsb' 0 8⟩ }) ∧
      (x.tok.k = true → (m.part ≠ [] ∨ scaleHeader p.afmt (laneOf x.tok.data 0) = false) →
        ∃ t, exec (.rowAssembly e) s = .next t ∧ (t.elem e).pl.mel.stopped = true ∧ t.mem = s.mem)) ∧
    (∀ w, s.headerAstray e = some w → s.melRuns e = true → ∃ t, exec (.mrowFire e) s = .next t ∧
      (t.elem e).pl.mel.stopped = true ∧ t.mem = s.mem) ∧
    (∀ toks sc rest w, s.headerAstray e = none → m.rowq = (toks, sc) :: rest → m.weights = some w → s.melRuns e = true → m.reload = none →
      p.pos = 0 → p.csrc = 0 → s.sinkRoom e m.fired.length = true → s.rateAllows e w = true →
      ∃ t vals, exec (.mrowFire e) s = .next t ∧ MelOnly s t e
          { m with rowq := rest, fired := m.fired ++ [(⟨vals, s.cycle + if 9 ≤ planesOf (wfield w.nw0 3 0) then 6 else 5⟩ : FiredRow)],
                   rowsNow := if m.lastRow = s.cycle + 1 then m.rowsNow + 1 else 1, lastRow := s.cycle + 1 } ∧
        vals = rowResults p w toks sc (List.replicate 32 0) ∧
        (p.path = 2 → ∀ n, n < 32 → vals[n]? = some ((List.range 64).foldl (fun a k =>
          a + codeInt p.afmt (packedAt (formatBits p.afmt) (leNat (toks.flatMap fun z => toBytes 32 z.data.toNat)) k) *
            codeInt (wfield w.nw0 3 0) (packedAt (formatBits (wfield w.nw0 3 0)) (leNat w.block) (32 * k + n))) 0))) ∧
    (∀ r rest bs, m.fired = r :: rest → r.due ≤ s.cycle → (∀ q ∈ rest.head?, s.cycle < q.due) → s.sinkRoom e 0 = true → r.vals.length = 32 →
      bs = r.vals.flatMap (outBytes p) →
      (wfield (p.node 2) 9 9 = 0 → p.ofmt = 5 → ∃ t, exec (.mrowOutput e) s = .next t ∧
        MelOnly s t e { m with fired := rest } ∧
        (t.elem e).pl.outq false = p.outq false ++ [.filled ⟨tokenOf bs 0, s.cycle⟩] ∧
        (t.elem e).pl.outq true = p.outq true ++ [.filled ⟨tokenOf (bs.drop 32) 0, s.cycle⟩]) ∧
      (wfield (p.node 2) 9 9 = 0 → p.ofmt ≠ 5 → ∃ t, exec (.mrowOutput e) s = .next t ∧
        MelOnly s t e { m with fired := rest } ∧
        (t.elem e).pl.outq false = p.outq false ++ [.filled ⟨tokenOf bs 0, s.cycle⟩, .filled ⟨tokenOf (bs.drop 64) 0, s.cycle⟩] ∧
        (t.elem e).pl.outq true =
          p.outq true ++ [.filled ⟨tokenOf (bs.drop 32) 0, s.cycle⟩, .filled ⟨tokenOf (bs.drop 96) 0, s.cycle⟩]) ∧
      (wfield (p.node 2) 9 9 = 1 → Memory.wf (s.elem e).scr = true → ∃ t, exec (.mrowOutput e) s = .next t ∧
        OnlyElems s t [e] ∧ (t.elem e).pl.mel = { m with fired := rest, ringAt := (m.ringAt + p.rowBytes) % p.ringBytes } ∧
        readN (t.elem e).scr (p.ringOff 0) bs.length = bs ∧
        (∀ k ∈ granulesOf bs.length [(0, p.ringOff 0)], k ∈ (t.elem e).full) ∧
        ∀ k, k < p.ringOff 0 ∨ p.ringOff 0 + bs.length ≤ k → memRead (t.elem e).scr k = memRead (s.elem e).scr k))

/-! ### What happens without an instruction: regions -/

/-- PLACER_SERVE, BIND_CHECK, CONFIG_WORD_WRITE, CONFIG_END, LOAD_END and TASK_FAULT_END take a region through its
states (R68, R119, R175, R267, R270, R272, R274, R276, R277, R305, R389). -/
def Obligations.RegionsBindConfigureAndEnd : Prop :=
  ∀ (r : Nat) (s : State) (g : Region),
    (∀ die n o image req, s.placeReqs die = [.place n o image req] → field req 63 16 = 0 → field req 14 9 = 0 →
      (∀ k, (s.strand n).region = some k → ∃ t, exec (.placerServe die) s = .next t ∧ t.tasks = s.tasks ∧ t.mem = s.mem ∧
        ∀ p ∈ (t.strand n).ops, p.id = o.id → p.result = some (BitVec.ofNat 64 (2 * 65536 + dieOf n % 8 * 8192))) ∧
      (∀ b s1 x y, (s.strand n).region = none →
        s.readImage ⟨.op n o.id, dieOf n, (s.strand n).ctx, (s.strand n).asid, !(s.strand n).sup, (s.strand n).task⟩ image = (.inl b, s1) →
        (headerOf b).badField b = none →
        s1.chooseOrigin (headerOf b) (dieOf n) (if req.getLsbD 15 then [(field req 8 5, field req 4 0)] else origins) = some (x, y) →
        (∀ h ∈ s1.tasks.regions, h.st ≠ .held ∧ h.id ≠ s1.serial) →
        ∃ t h, exec (.placerServe die) s = .next t ∧ (t.strand n).region = some h.id ∧ t.region h.id = some h ∧
          h.st = .reserved ∧ h.strand = some n ∧ h.die = dieOf n ∧ h.trow = x ∧ h.tcol = y ∧
          h.trows = (headerOf b).trows ∧ h.tcols = (headerOf b).tcols ∧ t.mem = s1.mem ∧
          ∀ p ∈ (t.strand n).ops, p.id = o.id →
            p.result = some (BitVec.ofNat 64 (0x8000000000000000 + dieOf n % 8 * 8192 + x % 16 * 512 + y % 32 * 16)))) ∧
    (s.region r = some g →
      (∀ c image load args b s1, g.st = .reserved → g.wave = none → s.nextLoad g = some (c, image, load, args) →
        s.seenAs c.strand g = (.reserved, c.ctx) → field load 63 8 = 0 →
        s.readImage ⟨.cmd c.id, g.die, g.ctx, g.asid, c.user, c.task⟩ image = (.inl b, s1) → loadUnfit g (headerOf b) load = none →
        ∃ t, exec (.bindCheck r) s = .next t ∧ t.mem = s1.mem ∧ t.region r =
          some { g with st := .checking, cfgCmd := some c.id, probe := (s.strand c.strand).probecyc.toNat }) ∧
      (∀ image load args user task b s1, g.st = .checking → s.binding g = some (image, load, args, user, task) →
        s.readImage ⟨.region r, g.die, g.ctx, g.asid, user, task⟩ image = (.inl b, s1) →
        (∀ x s2, s1.checkBinding ⟨.region r, g.die, g.ctx, g.asid, user, task⟩ b image load args g.row0 g.col0 = (.inl x, s2) →
          ∃ t h re, exec (.bindCheck r) s = .next t ∧ t.region r = some h ∧ h.st = .configuring ∧ h.next = some x.info ∧
            h.items = itemsOf g x re ∧ (g.info = none → re = false) ∧ h.bad = [] ∧
            ∀ e ∈ g.rect x.info.trows x.info.tcols, e ∈ g.elems → (s.elem e).st ≠ .fenced →
              (t.elem e).st = .configuring ∧ (t.elem e).region = some r ∧ ∀ k, (t.elem e).pl.inq k = []) ∧
        (∀ f s2 c d, s1.checkBinding ⟨.region r, g.die, g.ctx, g.asid, user, task⟩ b image load args g.row0 g.col0 = (.inr f, s2) → f.waits = false →
          g.cfgCmd = some c → s.cmd c = some d → d.ended = none →
          ∃ t h k, exec (.bindCheck r) s = .next t ∧ t.region r = some h ∧ h.st = .reserved ∧ h.info = none ∧
            t.cmd c = some k ∧ k.ended = some f.code)) ∧
      (∀ e pos k trig op rest, g.st = .configuring → g.wave = none → g.items = .word e pos 0 k [trig, op] :: rest →
        (s.elem e).st = .configuring →
        (wordBad e 0 [trig, op] = none → ∃ t, exec (.configWordWrite r) s = .next t ∧ t.region r = some { g with items := rest } ∧
          (t.elem e).st = .configuring ∧ (k, trig, op) ∈ (t.elem e).pl.slots ∧
          (∀ x ∈ (s.elem e).pl.slots, x.1 ≠ k → x ∈ (t.elem e).pl.slots) ∧ ∀ y, y ≠ e → t.elem y = s.elem y) ∧
        (∀ q, wordBad e 0 [trig, op] = some q → ∃ t, exec (.configWordWrite r) s = .next t ∧ (t.elem e).st = .blocked ∧
          t.region r = some { g with items := rest, bad := g.bad ++ [(e, pos, q * 4096 + k)] })) ∧
      (g.st = .configuring → g.items = [] → g.wave = none →
        (g.bad = [] → (∀ e ∈ g.elems, ∀ b ∈ (s.elem e).pl.sites, b.fill ≠ .pinned) →
          (g.cfgCmd ≠ none → ∃ t, exec (.configEnd r) s = .next t ∧ t.mem = s.mem ∧
            t.region r = some { g with st := .running, info := g.next, next := none, ending := false } ∧
            ∀ e ∈ g.elems, (s.elem e).st = .configuring → (t.elem e).st = .running ∧ (t.elem e).pl = (s.elem e).pl) ∧
          (g.byDisp = true → g.cfgCmd = none → g.levels = [] → ∃ t, exec (.configEnd r) s = .next t ∧
            t.region r = some { g with st := .ended, info := g.next, next := none, ending := true })) ∧
        (∀ e pos w c d, g.bad = [(e, pos, w)] → g.levels = [] → g.cfgCmd = some c → s.cmd c = some d → d.ended = none →
          ∃ t h k, exec (.configEnd r) s = .next t ∧ t.region r = some h ∧ h.st = .reserved ∧ t.cmd c = some k ∧
            k.ended = some 0x12)) ∧
      (g.st = .running → g.dropBy = none → g.failed = none → g.levels = [] →
        (g.ending = false → s.allHalted g = true → ∃ t, exec (.loadEnd r) s = .next t ∧ t.mem = s.mem ∧
          t.region r = some { g with ending := true }) ∧
        (∀ c d, g.ending = true → s.settledLoad g = true → s.streamsOf g 0 = [] → g.cfgCmd = some c → s.cmd c = some d →
          d.ended = none → (∀ w ∈ s.engs.sweeps, w.region ≠ r) →
          ∃ t k, exec (.loadEnd r) s = .next t ∧ t.region r = some { g with st := .ended, cfgCmd := none } ∧
            t.cmd c = some k ∧ k.ended = some 0)) ∧
      (∀ code no k, g.failed = some code → g.st = .running → g.dropBy = none → g.ending = true → s.quiet g = true →
        g.task = some no → s.taskNo no = some k → k.open_ = true → ∃ t h j, exec (.taskFaultEnd r) s = .next t ∧
          t.region r = some h ∧ h.st = .reserved ∧ t.taskNo no = some j ∧ j.st = .retiring ∧ j.status = code))

/-- A parked queue operation of a region's trigger contexts. -/
def Sys2Proof.Claim.parkedIn (g : Region) (w : Parked) : Prop :=
  w.side ≠ .barrier ∧ ∃ e c, w.party = .elem e c ∧ g.holds e = true

/-- FREEZE_WAVE, FREEZE_POINT, CALLEE_BIND, GRID_RETURN, PLEAT_SPILL and PLEAT_REFILL move the levels of a region
(R280, R281, R283, R284, R285, R286, R287, R289, R290, R294, R326). -/
def Obligations.FreezesCallsAndReturnsMoveLevels : Prop :=
  ∀ (r : Nat) (s : State) (g : Region), s.region r = some g →
    (∀ w, g.wave = some w → ∃ t, exec (.freezeWave r) s = .next t ∧
      (∀ p, p ∈ t.ports.parked ↔ p ∈ s.ports.parked ∧ ¬parkedIn g p) ∧
      ∀ p ∈ s.ports.parked, ∀ e c f, parkedIn g p → p.party = .elem e c → s.flying e c = some f → f.wait = .delivery →
        t.flying e c = some { f with wait := .port }) ∧
    (∀ c0, g.wave = some ⟨[.freeze], c0⟩ → g.st = .running → g.ending = false → (∀ l ∈ g.levels, l.place ≠ .pleat 2) →
      s.still g = true → ∃ t h l, exec (.freezePoint r) s = .next t ∧ t.mem = s.mem ∧ t.region r = some h ∧ h.st = .frozen ∧
        h.wave = none ∧ h.levels = l :: g.levels.map Level.down ∧ l.kind = .freeze ∧ l.place = .pleat 1 ∧ l.was = .running ∧
        l.depth = g.depth ∧ (∀ i, g.info = some i → l.info = i) ∧
        l.saved = g.elems.map (fun e => ⟨e, (s.elem e).st, (s.elem e).pl, (s.elem e).scr, (s.elem e).full⟩) ∧
        ⟨g.ctx, 1, g.die, r⟩ ∈ t.ctxs.frozen ∧
        ∀ e ∈ g.elems, (s.elem e).st ≠ .fenced → (t.elem e).st = .frozen ∧ (t.elem e).scr = (s.elem e).scr) ∧
    (∀ l rest f by_ c, g.st = .frozen → g.levels = l :: rest → l.kind = .call f by_ c →
      (∀ b s1, s.checkCallee g l f (c.bind s.cmd) = (.inl b, s1) → ∃ t h, exec (.calleeBind r) s = .next t ∧
        t.region r = some h ∧ h.st = .configuring ∧ h.depth = l.depth + 1 ∧ h.next = some b.info ∧
        h.levels.length = g.levels.length) ∧
      (∀ x s1 e, s.checkCallee g l f (c.bind s.cmd) = (.inr x, s1) → x.waits = false → by_ = some e → c = none →
        ∃ t h pre tok, exec (.calleeBind r) s = .next t ∧ t.region r = some h ∧ h.st = l.was ∧ h.depth = l.depth ∧
          h.levels = rest.map Level.up ∧ (t.elem e).pl.inq 3 = pre ++ [(⟨tok, s.cycle⟩ : Entry)] ∧ tok.tag = 6 ∧ tok.k = false ∧
          laneOf tok.data 0 = BitVec.ofNat 32 x.code)) ∧
    (∀ c entry args, g.st = .running → s.nextCall r = some (c, entry, args) → (s.seenAs c.strand g).1 = .running →
      field entry 63 5 = 0 → g.wave = none → g.call = none → g.ret = none →
      ∃ t, exec (.calleeBind r) s = .next t ∧ t.mem = s.mem ∧ t.region r = some { g with
        wave := some ⟨[.call (field entry 4 0) none (some c.id)], s.cycle⟩, seqCall := some (c.id, field entry 4 0, args) }) ∧
    (∀ l rest f e x, g.ret = some (some x) → g.levels = l :: rest → l.kind = .call f (some e) none → g.st = .running →
      g.failed = none → g.dropBy = none → g.ending = true → l.place = .pleat 1 → s.settledLoad g = true →
      s.streamsOf g g.levels.length = [] → ∃ t h pre, exec (.gridReturn r) s = .next t ∧ t.region r = some h ∧ h.st = l.was ∧ h.depth = l.depth ∧
        h.levels = rest.map Level.up ∧
        (t.elem e).pl.inq 3 = pre ++ (s.elem x).pl.tagged.map fun tok => (⟨tok, s.cycle⟩ : Entry)) ∧
    (∀ w l i va ps s1, g.wave = some w → g.levels.zipIdx.find? (fun z => decide (z.1.place = .pleat 2)) = some (l, i) →
      va = s.frameAt g i → s.framePieces g l .write va (s.frameBytes g i) = (.inl ps, s1) →
      ∃ t h, exec (.pleatSpill r) s = .next t ∧ t.region r = some h ∧ h.levels.length = g.levels.length ∧ h.levels[i]? =
        some { l with place := .hamper va, saveBytes := g.savedBytes i, frameLen := s.frameBytes g i }) ∧
    (∀ l i va ps s1, g.wave = none → g.wanted = some (l, i, va) →
      s.framePieces g l .read va l.frameLen = (.inl ps, s1) → (∀ p ∈ ps, KeyShows s p.2.2 p.1 p.2.1) →
      ∃ t h k, exec (.pleatRefill r) s = .next t ∧ (∀ d a, t.byteAt d a = s.byteAt d a) ∧ t.region r = some h ∧ h.levels[i]? = some k ∧
        k.place = .pleat (i + 1) ∧ k.saved.length = l.saved.length ∧
        ∀ j x y, l.saved[j]? = some x → k.saved[j]? = some y → y.e = x.e ∧ y.pl = x.pl ∧ y.st = x.st ∧
          (Memory.wf x.scr = true → ∀ o, o < l.saveBytes → memRead y.scr o = ((ps.flatMap fun p => s.bytesAt g.die p.1 p.2.1)[
            64 + j * recordBytes l.saveBytes + 4096 + o]?).getD 0))

/-! ### What happens without an instruction: the ordering machine and the strands -/

/-- The operation that performs. -/
structure Sys2Proof.Claim.Performs (s : State) (n ev : Nat) (o : Op) : Prop where
  op   : s.op n ev = some o
  may  : s.mayPerform n o = true
  path : s.opPath n o = .open_
  die  : n < 512

/-- ORDER_READ_PERFORM, ORDER_WRITE_PERFORM, ORDER_APPLY_PENDING, LOAD_COMPLETE and WRITEBACK_ACCEPT move bytes as R78
to R83 say (R78, R79, R80, R83, R94, R188, R209, R252). -/
def Obligations.EventsOfMemoryPerformAndApply : Prop :=
  ∀ (n ev : Nat) (s : State) (o : Op), MemInv s →
    (Performs s n ev o →
      (∀ pa k sx nt page, o.kind = .load pa k sx nt page → s.snoopFirst page pa = false → s.spoiltLoad n pa k = false →
        (∀ l, s.inL1 n pa = some l → ∃ t, exec (.orderReadPerform n ev) s = .next t ∧ t.mem = s.mem ∧
          t.op n ev = some { o with result := some (if sx then
            (BitVec.ofNat (8 * k) (l.data.toNat / 2 ^ (8 * (pa % 64)) % 2 ^ (8 * k))).signExtend 64
            else BitVec.ofNat 64 (l.data.toNat / 2 ^ (8 * (pa % 64)) % 2 ^ (8 * k))) }) ∧
        (s.inL1 n pa = none → KeyShows s page pa k → ∃ t p, exec (.orderReadPerform n ev) s = .next t ∧ t.op n ev = some p ∧
          p = { o with result := some (if sx then (BitVec.ofNat (8 * k) (s.valAt (dieOf n) pa k)).signExtend 64
            else BitVec.ofNat 64 (s.valAt (dieOf n) pa k)) } ∧
          (∀ d a, t.byteAt d a = s.byteAt d a) ∧ (t.strand n).g = (s.strand n).g)) ∧
      (∀ v, o.kind = .value v → ∃ t, exec (.orderReadPerform n ev) s = .next t ∧
        t.op n ev = some { o with result := some v } ∧ t.mem = s.mem) ∧
      (∀ aop pa k v x page, o.kind = .atomic aop pa k v x page → o.acq = false → s.snoopFirst page pa = false → page.ms = false →
        s.spoilt (homeDie pa) none pa k = false → KeyShows s page pa k → pa + k ≤ 0x8000000000000 → ∃ t p, exec (.orderReadPerform n ev) s = .next t ∧ t.op n ev = some p ∧
          p.result = some (BitVec.ofNat 64 (s.valAt (homeDie pa) pa k)) ∧
          t.valAt (homeDie pa) pa k = aopNew aop (8 * k) (s.valAt (homeDie pa) pa k) (v.toNat % 2 ^ (8 * k))
            (x.toNat % 2 ^ (8 * k)) % 2 ^ (8 * k) ∧
          OnlyBytes s t (homeDie pa) [(pa, k)]) ∧
      (∀ pa k v nt page, o.kind = .store pa k v nt page → s.snoopFirst page pa = false → KeyShows s page pa k → pa + k ≤ 0x8000000000000 →
        ∃ t w, exec (.orderWritePerform n ev) s = .next t ∧ (∀ p ∈ (t.strand n).ops, p.id ≠ ev) ∧
          (∀ p ∈ (s.strand n).ops, p.id ≠ ev → p ∈ (t.strand n).ops) ∧
          t.valAt (dieOf n) pa k = v.toNat % 2 ^ (8 * k) ∧ OnlyBytes s t (dieOf n) [(pa, k)] ∧
          (t.clock (dieOf n)).at (dieOf n) = (s.clock (dieOf n)).at (dieOf n) + 1 ∧
          t.mem.pending = s.mem.pending ++ [w] ∧ w.src = dieOf n ∧ w.home = homeDie pa ∧ w.pa = pa ∧
          w.bytes = (toBytes k v.toNat).map some ∧ w.stamp = t.clock (dieOf n) ∧ w.on = [dieOf n])) ∧
    (∀ die src w, die < 8 →
      s.mem.pending.find? (fun w => w.src = src && s.mayApply die w && s.reach src die = .open_) = some w →
      w.pa + w.bytes.length ≤ 0x8000000000000 →
      ∃ t, exec (.orderApplyPending die src) s = .next t ∧ (t.clock die).at src = (s.clock die).at src + 1 ∧
        OnlyBytes s t die [(w.pa, w.bytes.length)] ∧
        (∀ i b, w.bytes[i]? = some (some b) → die = w.home → t.byteAt die (w.pa + i) = b) ∧
        (∀ i b, w.bytes[i]? = some (some b) → die ≠ w.home → t.byteAt die (w.pa + i) =
          if (if w.forced then
              !laterAtHome (lookupD s.mem.home (w.pa + i) []) (tagRead (s.image die).tags (w.pa + i)) w.id
            else laterAtHome (lookupD s.mem.home (w.pa + i) []) w.id (tagRead (s.image die).tags (w.pa + i))) then b
          else s.byteAt die (w.pa + i)) ∧
        (∀ i, w.bytes[i]? = some none → t.byteAt die (w.pa + i) = s.byteAt die (w.pa + i))) ∧
    (∀ v, s.op n ev = some o → o.result = some v → s.opDone (dieOf n) o = true →
      ∃ t, exec (.loadComplete n ev) s = .next t ∧ t.mem = s.mem ∧
        (t.strand n).reg o.dst = (if o.dst = 0 then 0 else v) ∧ (∀ r, r ≠ o.dst → (t.strand n).reg r = (s.strand n).reg r) ∧
        (t.strand n).ops = (s.strand n).ops.filter (fun p => p.id != ev) ∧ (t.strand n).pc = (s.strand n).pc) ∧
    (∀ die pa w, s.mem.wbs.find? (fun w => w.die = die && w.pa = pa) = some w →
      ∃ t, exec (.writebackAccept die pa) s = .next t ∧ t.mem.wbs = s.mem.wbs.erase w ∧
        ∀ i key, i < 64 → w.mask.getLsbD i = true → dramKey (w.pa + i) = some key →
          (∀ j, j < 64 → j ≠ i → dramKey (w.pa + j) ≠ some key) →
          memRead t.mem.dram key = w.data.extractLsb' (8 * i) 8)

/-- LATE_ECC_TRAP and ASYNC_EVENT_TAKE enter the handler; walks, acknowledgements, wake-ups and timeouts let strands
go on (R199, R200, R201, R230, R244, R248). -/
def Obligations.EventsOfStrandsWakeAndTrap : Prop :=
  ∀ (n : Nat) (s : State),
    (∀ code addr info, (s.strand n).late = some (code, addr, info) → (s.strand n).atTvec = false →
      ∃ t, exec (.lateEccTrap n) s = .next t ∧ (t.strand n).epc = (s.strand n).pc ∧
        (t.strand n).ecause = BitVec.ofNat 64 (0x2000 + code) ∧ (t.strand n).eaddr = BitVec.ofNat 64 addr ∧
        (t.strand n).einfo = info ∧ (t.strand n).status = (s.strand n).statusTrap ∧ (t.strand n).pc = (s.strand n).tvec ∧
        (t.strand n).late = none ∧ t.mem = s.mem ∧ ∀ m, m ≠ n → t.strand m = s.strand m) ∧
    (∀ e rest, s.takable n = true → (s.strand n).events = e :: rest →
      ∃ t, exec (.asyncEventTake n) s = .next t ∧ (t.strand n).epc = (s.strand n).pc ∧
        (t.strand n).ecause = BitVec.ofNat 64 (0x8000 + e.code) ∧ (t.strand n).einfo = e.info ∧ (t.strand n).eaddr = 0 ∧
        (t.strand n).status = (s.strand n).statusTrap ∧ (t.strand n).pc = (s.strand n).tvec ∧ (t.strand n).events = rest ∧
        t.mem = s.mem ∧ (∀ m, m ≠ n → t.strand m = s.strand m) ∧
        (∀ c, e.klass = some c → lookupD t.routes.masks (dieOf n) 0 =
          lookupD s.routes.masks (dieOf n) 0 ||| BitVec.ofNat 16 (2 ^ c))) ∧
    (s.wakes n = true → exec (.idleWake n) s =
      .next (s.setStrand n { s.strand n with run := .running, worker := false, woken := false })) ∧
    (∀ d xs, (s.strand n).yieldTo = some (d, xs) → d ≤ s.cycle →
      exec (.yieldTimeout n) s = .next (s.setStrand n { s.strand n with yieldTo := none })) ∧
    (∀ i w, s.seqs.walks[i]? = some w → w.due ≤ s.cycle → s.ctxs.live.contains w.ctx = true →
      (∀ q ∈ s.seqs.queued, q.die ≠ w.die) → ∀ res : WalkResult, res =
        (match s.walk w.die (BitVec.ofNat 10 w.ctx) w.asid w.va with
         | .inl e => ⟨w.asid, w.va / 65536, some e, 0⟩
         | .inr m => ⟨w.asid, w.va / 65536, none, m⟩) →
      ∃ t, exec (.walkComplete w.die i) s = .next t ∧ t.seqs.walks = s.seqs.walks.erase w ∧
        ((∀ x ∈ w.waiters, ∀ m user task a k, x.1 ≠ .pref m user task a k) → t.mem = s.mem) ∧
        (∀ u, (.strand n, u) ∈ w.waiters → (t.strand n).walked = some res) ∧
        (∀ k u, (k, u) ∈ w.waiters → (∀ m, k ≠ .strand m) → (∀ m user task a l, k ≠ .pref m user task a l) →
          (k, res, s.cycle) ∈ t.seqs.answers) ∧
        (∀ x ∈ w.waiters, ∀ e, s.walk w.die (BitVec.ofNat 10 w.ctx) w.asid w.va = .inl e → (x.2, e) ∈ t.seqs.tlbs)) ∧
    (∀ id c before range space, (s.strand n).progress = some ⟨id, c, 2, before, [range, space]⟩ →
      s.drained (BitVec.ofNat 16 space.va) range.va range.n before.toNat = true →
      ∃ t, exec (.shootdownAck n) s = .next t ∧ (t.strand n).progress = some ⟨id, c, 3, before, []⟩ ∧
        (t.strand n).g = (s.strand n).g ∧ t.cycle = s.cycle)

namespace Sys2Proof.Claim

/-- The unended command of a handle's slot that has begun to run as the stream given, in a region that lets it move (R179). -/
structure StreamRuns (s : State) (id : Nat) (c : Cmd) (st : StreamSt) (g : Region) : Prop where
  cmd   : s.cmd id = some c ∧ c.id = id
  kind  : ∃ w b tg, c.kind = .strm w b tg
  strm  : c.strm = some st
  live  : c.ended = none ∧ c.paused = false ∧ st.started = true ∧ st.paused = false
  home  : s.region st.region = some g ∧ st.slot.die < 8
  up    : (g.st = .running ∨ g.st = .ended) ∧ g.wave = none ∧ g.levels.length = st.level

/-- The command given, past n bytes or elements of its work. -/
def Past (t : State) (c : Cmd) (n len : Nat) : Prop :=
  ∃ d, t.cmd c.id = some d ∧ d.at_ = c.at_ + n ∧ (len ≤ c.at_ + n → d.ended = some 0) ∧ (c.at_ + n < len → d.ended = c.ended)

/-- The pieces of a range within pages, which no key but theirs has shown the images (R243), lines whole. -/
def PiecesShow (s : State) (ps : List (Nat × Nat × PageAttr)) : Prop :=
  ∀ p ∈ ps, KeyShows s p.2.2 (p.1 / 256 * 256) 512

/-- The elements of a token likewise. -/
def ElemsShow (s : State) (xs : List (Option (Nat × List (Nat × Nat × PageAttr)))) : Prop :=
  ∀ y, some y ∈ xs → PiecesShow s y.2

/-- A sweep that a die runs, found under its command. -/
structure SweepRuns (s : State) (die : Nat) (w : Sweep) (c : Cmd) : Prop where
  on    : s.sweepOn die = some w
  only  : s.engs.sweeps.find? (fun v => decide (v.cmd = w.cmd)) = some w
  cmd   : s.cmd w.cmd = some c ∧ c.id = w.cmd ∧ c.ended = none

/-- A sweep's queue holds a page (R357, R358, R371): its header, then for each key in turn its K tokens with tag 1 and its V tokens
with tag 2. -/
def PageQueued (v : Sweep) (hdt : Nat) (p : SweepPage) (lane2 : Nat) (bits : BitVec 160) (k b : List Byte) : Prop :=
  ∃ h rest, v.queue.map Entry.tok = h :: rest ∧ h.k = true ∧ laneOf h.data 0 = 0x10010000 ∧
    laneOf h.data 1 = BitVec.ofNat 32 p.pindex ∧ laneOf h.data 2 = BitVec.ofNat 32 lane2 ∧
    (∀ l, l < 5 → laneOf h.data (3 + l) = bits.extractLsb' (32 * l) 32) ∧ rest.length = 2 * hdt * p.ntok ∧
    ∀ j i, j < p.ntok → i < hdt →
      rest[2 * hdt * j + i]? = some (tokenOf (k.drop (32 * (hdt * j + i))) 1) ∧
      rest[2 * hdt * j + hdt + i]? = some (tokenOf (b.drop (32 * (hdt * j + i))) 2)

end Sys2Proof.Claim

/-! ### What happens without an instruction: engines, tasks, the outside -/

/-- STREAM_TOKEN_TRANSFER, COPY_SECTOR, BANK_SECTOR and ROW_TRANSFER move their bytes; HANDLE_COMPLETE reports the end
(R89, R179, R180, R190, R215, R216, R257, R258, R259, R309, R407). -/
def Obligations.EnginesMoveTokensSectorsAndRows : Prop :=
  ∀ (id : Nat) (s : State) (c : Cmd),
    (∀ st g xs s1, StreamRuns s id c st g → st.at_ < st.total → st.gateWait = false → st.kind = 0 →
      (st.toMem = false → g.ending = false → (s.slotToks st.slot).length + s.inNetwork st.slot < 16 →
        s.elemPieces c st .read st.nextElems = (.inl xs, s1) → ElemsShow s1 xs →
        ∃ t tok d, exec (.streamTokenTransfer id) s = .next t ∧ t.slotToks st.slot = s.slotToks st.slot ++ [(⟨tok, s.cycle⟩ : Entry)] ∧
          tok.tag = st.tag ∧ tok.k = false ∧ t.cmd id = some d ∧ d.strm = some (st.past st.nextElems.length) ∧
          (∀ i, i < 32 → tok.data.extractLsb' (8 * i) 8 = ((xs.flatMap fun (x : Option (Nat × List (Nat × Nat × PageAttr))) => match x with
            | none => List.replicate st.esz 0
            | some y => y.2.flatMap fun p => s1.bytesAt st.slot.die p.1 p.2.1)[i]?).getD 0) ∧
          t.mem.images = s1.mem.images ∧ t.mem.host = s1.mem.host) ∧
      (∀ data out, st.toMem = true → s.nextToken st g = some data → s.elemPieces c st .write st.nextElems = (.inl xs, s1) →
        ElemsShow s1 xs → MemInv s1 →
        out = (xs.zipIdx.flatMap fun (x : Option (Nat × List (Nat × Nat × PageAttr)) × Nat) => match x.1 with
          | some y => placed y.2 (((toBytes 32 data.toNat).drop (x.2 * st.esz)).take st.esz)
          | none => []) →
        ∃ t d, exec (.streamTokenTransfer id) s = .next t ∧ t.slotToks st.slot = (s.slotToks st.slot).drop 1 ∧
          t.cmd id = some d ∧ d.strm = some (st.past st.nextElems.length) ∧
          (∀ a, t.byteAt st.slot.die a = ((out.reverse.find? fun b => decide (b.1 = a)).map Prod.snd).getD (s1.byteAt st.slot.die a)) ∧
          ∀ e, e < 8 → e ≠ st.slot.die → ∀ a, a < 0x8000000000000 → t.byteAt e a = s1.byteAt e a)) ∧
    (∀ st g, StreamRuns s id c st g → st.total ≤ st.at_ → (st.toMem = false → s.slotToks st.slot = [] ∧ s.inNetwork st.slot = 0 ∧
        ∀ e ∈ g.elems, ∀ x, some x ∈ (s.elem e).pl.hops.toList → x.cmd ≠ some id) →
      ∃ t d, exec (.streamTokenTransfer id) s = .next t ∧ t.cmd id = some d ∧ d.ended = some 0 ∧ d.count = st.total ∧ t.mem = s.mem) ∧
    (∀ dst len a n pa page s1, s.cmd id = some c → c.id = id → c.die < 8 → s.mayBegin c = true → c.at_ < len → a = dst + c.at_ →
      n = min (64 - a % 64) (len - c.at_) → pa + n ≤ 0x8000000000000 → MemInv s1 →
      (∀ pat, c.kind = .fill dst len pat → s.rangePieces (.engine c.die) c .write a n = (.inl [(pa, n, page)], s1) →
        PiecesShow s1 [(pa, n, page)] → ∃ t, exec (.copySector id) s = .next t ∧ Past t c n len ∧
          OnlyBytes s1 t c.die [(pa, n)] ∧
          ∀ i, i < n → t.byteAt c.die (pa + i) = pat.extractLsb' (8 * ((a + i) % 8)) 8) ∧
      (∀ src ps s0, c.kind = .copy dst src len → s.rangePieces (.engine c.die) c .read (src + c.at_) n = (.inl ps, s0) →
        s0.rangePieces (.engine c.die) c .write a n = (.inl [(pa, n, page)], s1) → PiecesShow s1 (ps ++ [(pa, n, page)]) →
        (ps.map fun p => p.2.1).sum = n → ∃ t, exec (.copySector id) s = .next t ∧ Past t c n len ∧
          OnlyBytes s1 t c.die [(pa, n)] ∧ t.bytesAt c.die pa n = ps.flatMap fun p => s1.bytesAt c.die p.1 p.2.1)) ∧
    (∀ x px y py z pz k0, s.cmd id = some c → c.id = id → s.mayBegin c = true → c.began = true → c.pages ≠ [] → MemInv s →
      (∀ sub d a b n, c.kind = .bankop sub d a b n → c.paOf (a + c.at_) = some (x, px) → c.paOf (b + c.at_) = some (y, py) →
        c.paOf (d + c.at_) = some (z, pz) → s.snoopFirst px x = false → s.snoopFirst py y = false → s.snoopFirst pz z = false →
        s.spoiltDram x 64 = false → s.spoiltDram y 64 = false → z + 64 ≤ 0x8000000000000 → (∀ i, i < 64 → dramKey (z + i) = some (k0 + i)) →
        ∃ t, exec (.bankSector id) s = .next t ∧ Past t c 64 n ∧ ∀ i, i < 16 → ∀ v,
          v = bankWord sub (BitVec.ofNat 32 (leNat (((s.dramUnder x 64 (s.keyIn px.key)).drop (4 * i)).take 4)))
            (BitVec.ofNat 32 (leNat (((s.dramUnder y 64 (s.keyIn py.key)).drop (4 * i)).take 4))) →
          t.bytesAt (homeDie z) (z + 4 * i) 4 = toBytes 4 v.toNat ∧
          ∀ j, j < 4 → memRead t.mem.dram (k0 + 4 * i + j) = v.extractLsb' (8 * j) 8) ∧
      (∀ d n, c.paOf (d + c.at_) = some (z, pz) → s.ownedIn pz z 2048 = none → z % 64 = 0 → z + 2048 ≤ 0x8000000000000 →
        (∀ i, i < 2048 → dramKey (z + i) = some (k0 + i)) →
        (c.kind = .rowzero d n → ∃ t, exec (.rowTransfer id) s = .next t ∧ Past t c 2048 n ∧
          (∀ i, i < 2048 → memRead t.mem.dram (k0 + i) = 0) ∧
          ∀ k, k < k0 ∨ k0 + 2048 ≤ k → memRead t.mem.dram k = memRead s.mem.dram k) ∧
        (∀ a, c.kind = .rowcp d a n → c.paOf (a + c.at_) = some (x, px) → s.ownedIn px x 2048 = none →
          s.spoiltDram x 2048 = false → ∃ t, exec (.rowTransfer id) s = .next t ∧ Past t c 2048 n ∧
            (∀ i, i < 2048 → memRead t.mem.dram (k0 + i) = (s.rowUnder x (s.keyIn px.key))[i]?.getD 0) ∧
            ∀ k, k < k0 ∨ k0 + 2048 ≤ k → memRead t.mem.dram k = memRead s.mem.dram k))) ∧
    (∀ code, s.cmd id = some c → c.id = id → c.ended = some code → (∀ r ∈ s.ctxs.records, r.cmd ≠ id) →
      (∀ slot, c.slot = some slot → (∀ w ∈ c.writes, s.appliedOn (dieOf c.strand) w = true) →
        ∃ t, exec (.handleComplete id) s = .next t ∧ t.mem = s.mem ∧ t.engs.cmds = s.engs.cmds.filter (fun d => d.id != id) ∧
          (∀ n, n ≠ c.strand → t.strand n = s.strand n) ∧
          (t.strand c.strand).handles = (s.strand c.strand).handles.map fun h =>
            if h.cmd = id ∧ h.st = .busy then { h with st := if code = 0 then .done else .fault, code := code, count := c.count } else h) ∧
      (∀ k, c.slot = none → (∀ w ∈ c.writes, s.appliedOn c.die w = true) →
        (s.tasks.tasks.find? fun t => decide (t.bank = some id)) = some k → s.taskNo k.no = some k → k.st = .running →
        ∃ t j, exec (.handleComplete id) s = .next t ∧ t.taskNo k.no = some j ∧ j.st = .retiring ∧ j.status = code))

/-- Sweep units send pages, catch-up pages and the end header, and merge partials in ascending order (R357, R358,
R359, R360, R361, R362, R363, R371, R372). -/
def Obligations.SweepUnitsSendPagesAndMerge : Prop :=
  ∀ (die unit : Nat) (s : State) (w : Sweep) (c : Cmd), SweepRuns s die w c →
    (∀ p bits s1, w.next unit = some p → s.mayFetch w = true → p.snap = none → s.readBitmap c w p = (.inl bits, s1) →
      (∃ v, (s1.keepSnapshot w p bits).sweepOn die = some v ∧ v.cmd = w.cmd ∧ v.next unit = some { p with snap := some bits }) ∧
      exec (.pageSend die unit) s = exec (.pageSend die unit) (s1.keepSnapshot w p bits)) ∧
    (∀ p bits qs, w.next unit = some p → s.mayFetch w = true → p.snap = some bits →
      qs = (w.queries.filter fun x => bits.getLsbD x.q).map SweepQuery.q →
      (s.grants w p qs = false → exec (.pageSend die unit) s = .next s) ∧
      (∀ k s2 b s3, s.grants w p qs = true →
        s.readRange (unitTlb w.die p.unit) c p.kaddr (32 * w.hdt * p.ntok) = (.inl k, s2) →
        s2.readRange (unitTlb w.die p.unit) c p.vaddr (32 * w.hdt * p.ntok) = (.inl b, s3) →
        ∃ t, exec (.pageSend die unit) s = .next t ∧ t.mem = s3.mem ∧ ∃ v ∈ t.engs.sweeps, v.cmd = w.cmd ∧
          PageQueued v w.hdt p p.ntok bits k b ∧
          (∀ y ∈ w.pages, y.pindex = p.pindex → ∃ z ∈ v.pages, z = { y with
            sent := true, toward := y.toward ++ qs, late := y.late.filter fun q => !qs.contains q }) ∧
          (∀ y ∈ w.pages, y.pindex ≠ p.pindex → y ∈ v.pages) ∧ v.endSent = false ∧
          ∀ x ∈ w.queries, x.held = [] →
            (if qs.contains x.q then { x with granted := x.granted ++ [p.pindex] } else x) ∈ v.queries)) ∧
    (∀ p k s2 b s3, s.mayFetch w = true → s.mainStalled w unit = true →
      (w.pages.find? fun p => decide (p.unit = unit) && p.sent && !p.late.isEmpty && s.grants w p p.late) = some p →
      s.readRange (unitTlb w.die p.unit) c p.kaddr (32 * w.hdt * p.ntok) = (.inl k, s2) →
      s2.readRange (unitTlb w.die p.unit) c p.vaddr (32 * w.hdt * p.ntok) = (.inl b, s3) →
      ∃ t, exec (.catchupFetch die unit) s = .next t ∧ t.mem = s3.mem ∧ ∃ v ∈ t.engs.sweeps, v.cmd = w.cmd ∧
        PageQueued v w.hdt p (0x80000000 + p.ntok) (bitsFor p.late) k b ∧
        ∃ z ∈ v.pages, z = { p with sent := true, toward := p.toward ++ p.late, late := [] }) ∧
    (∀ idx p r ts x pre post, s.fab.packets[idx]? = some p → p.load = .partial_ r ts → p.dst.die = die → p.due ≤ s.cycle →
      s.packetFirst p = true → p.lvl = w.level → (s.elem p.dst).region = some w.region →
      (s.engs.sweeps.find? fun v => s.sweepLive v && decide (v.level = p.lvl) && decide ((s.elem p.dst).region = some v.region)) = some w →
      w.queries = pre ++ x :: post → (∀ y ∈ pre, y.e ≠ p.dst) → x.e = p.dst →
      (x.part.length + ts.length < w.hdt + 1 →
        ∃ t v, exec (.partialArrival die idx) s = .next t ∧ t.fab.packets = s.fab.packets.erase p ∧ v ∈ t.engs.sweeps ∧
          v = { w with queries := w.queries.map fun y => if y.e = p.dst then { y with part := x.part ++ ts } else y } ∧ t.mem = s.mem) ∧
      (∀ h rest pg y, x.part ++ ts = h :: rest → rest.length = w.hdt → y ∈ w.queries → (∀ z ∈ w.queries, z.q = y.q → z = y) →
        y.e = p.dst → y.held = [] → laneOf h.data 3 = BitVec.ofNat 32 y.q → y.q < 160 →
        (laneOf h.data 2).toNat = pg → s.nextPage w y = some pg → (∃ u ∈ w.pages, u.pindex = pg ∧ u.toward.contains y.q = true) →
        ∃ t v z all acc, exec (.partialArrival die idx) s = .next t ∧ t.fab.packets = s.fab.packets.erase p ∧ v ∈ t.engs.sweeps ∧
          v.cmd = w.cmd ∧ z ∈ v.queries ∧ z.q = y.q ∧ z.e = y.e ∧ z.part = [] ∧ z.held = [] ∧ z.merged = all ∧ (z.m, z.l, z.o) = acc ∧
          all = insertPartial (pg, laneOf h.data 0, laneOf h.data 1, rest.flatMap fun t => (List.range 8).map (laneOf t.data)) y.merged ∧
          acc = all.foldl (fun a b => mergePartial a b.2) (accStart w.hdt) ∧ z.granted = y.granted.filter (· != pg) ∧ t.mem = s.mem)) ∧
    ((s.mayFetch w = true → (∀ p ∈ w.pages, p.sent = true ∧ p.late = []) →
      ∃ t tok, exec (.endHeaderSend die) s = .next t ∧ { w with queue := [⟨tok, s.cycle⟩], endSent := true } ∈ t.engs.sweeps ∧
        tok.k = true ∧ tok.tag = 3 ∧ laneOf tok.data 0 = 0x10011000 ∧ laneOf tok.data 1 = 0xFFFFFFFF ∧
        laneOf tok.data 2 = 0x40000000 ∧ (∀ l, 3 ≤ l → l < 8 → laneOf tok.data l = 0) ∧ t.mem = s.mem) ∧
     (w.endSent = true → w.queue = [] → (∀ x ∈ w.queries, x.written = true) → w.written = w.queries.length →
      ∃ t d, exec (.endHeaderSend die) s = .next t ∧ t.cmd w.cmd = some d ∧ d.ended = some 0 ∧ d.count = w.written ∧ t.mem = s.mem))

namespace Sys2Proof.Claim

/-- Two tasks' ranges conflict (R300): a range that one of them writes shares a byte with a range of the other. -/
def Conflict (a b : List (Nat × Nat × Bool)) : Prop :=
  ∃ x ∈ a, ∃ y ∈ b, (x.2.2 = true ∨ y.2.2 = true) ∧ x.1 < y.1 + y.2.1 ∧ y.1 < x.1 + x.2.1 ∧ x.2.1 ≠ 0 ∧ y.2.1 ≠ 0

/-- One task of the tables has changed to the one given, the others are as before. -/
def TaskBecomes (s t : State) (no : Nat) (k : Task) : Prop :=
  t.taskNo no = some k ∧ t.mem = s.mem ∧ t.fab = s.fab ∧ t.engs = s.engs ∧ ∀ m, m ≠ no → t.taskNo m = s.taskNo m

/-- Nothing of a die waits to come back or to start. -/
structure QuietDie (s : State) (die : Nat) : Prop where
  tasks  : ∀ k ∈ s.tasks.tasks, k.die = die → k.st ≠ .preempted ∧ k.st ≠ .retiring
  groups : ∀ g ∈ s.tasks.groups, g.st ≠ .preempted

end Sys2Proof.Claim

/-- The events of the dispatchers: LAUNCH_ADMIT, PIN_BREAK, TASK_READY, AGING_TICK, TASK_BIND, GROUP_BIND,
PREEMPT_TIMEOUT, RETIRE_COMPLETE (R299, R300, R301, R303, R304, R305, R306, R307, R308, R309, R310, R312). -/
def Obligations.TasksAreAdmittedBoundAndRetired : Prop :=
  ∀ (die no : Nat) (s : State),
    (∀ c rec prio, s.nextLaunch die = some (c, rec, prio) →
      (4096 ≤ (s.tasks.tasks.filter fun k => k.die = die && k.held).length → exec (.launchAdmit die) s = .next s) ∧
      (∀ b s1 r n, (s.tasks.tasks.filter fun k => k.die = die && k.held).length < 4096 → rec % 64 = 0 →
        s.readVa (.cmd c.id) (.engine die) c.ctx c.asid c.user c.task rec 128 = (.inl b, s1) → r = launchRec b → s1.cmd c.id = some c →
        (∀ off, r.bad = some off → ∃ t d, exec (.launchAdmit die) s = .next t ∧ t.cmd c.id = some d ∧ d.ended = some 0x13 ∧
          ((∀ x ∈ s1.ports.phases, ∀ p ∈ x.who, p.1 ≠ .strand c.strand) → (∀ w ∈ s1.ports.parked, w.party ≠ .strand c.strand) →
            t.tasks = s1.tasks)) ∧
        (r.bad = none → (s1.desc die c.ctx.toNat).v = true → s1.ctxs.dying.contains c.ctx.toNat = false → r.group = 0 →
          n = die % 8 * 0x200000 + (s1.disp die).counter % 0x200000 → (∀ x ∈ s1.tasks.tasks, x.no = n → x.held = false) →
          ∃ t k d, exec (.launchAdmit die) s = .next t ∧ t.taskNo n = some k ∧ t.mem = s1.mem ∧ k.st = .waiting ∧ k.die = die ∧
            k.ctx = c.ctx ∧ k.asid = c.asid ∧ k.user = c.user ∧ k.image = r.image.toNat ∧ k.args = r.args.toNat ∧
            k.prio = max (field r.w20 17 16) prio ∧ k.cq = r.cq.toNat ∧ k.handle = r.handle ∧ k.launch = some c.id ∧
            (∀ m, m ∈ k.arcs ↔ ∃ x ∈ s1.tasks.tasks, x.die = die ∧ x.held = true ∧ x.asid = c.asid ∧ Conflict x.ranges r.spans ∧ x.no = m) ∧
            (t.disp die).counter = (s1.disp die).counter + 1 ∧ t.cmd c.id = some d ∧ d.began = true ∧
            d.ended = if r.detach then some 0 else none))) ∧
    (∀ r g b p u, s.region r = some g → g.st ≠ .running → g.st ≠ .frozen → (s.tasks.breaks.filter fun x => decide (x.region = r)) = [b] →
      ((s.planesAt g b.lvl).find? fun x => decide (x.1 = b.e)) = some (b.e, p) → p.site b.site = some u → s.holdsBack b.e = false →
      (∀ x ∈ (s.elem b.e).sectors, x.dirty ≠ 0 → x.page.sysatom = false) →
      ∃ t, exec (.pinBreak r) s = .next t ∧ t.tasks.breaks = s.tasks.breaks.filter (fun x => x.region != r) ∧
        ∀ x, x ∈ (t.elem b.e).sectors ↔ x ∈ (s.elem b.e).sectors ∧ ¬ (x.lvl = b.lvl ∧ x.site = (p.bufSite u).no)) ∧
    (∀ k, s.taskNo no = some k →
      (k.st = .waiting → (k.arcs = [] → (∀ b ∈ s.tasks.breaks, b.task ≠ no) → k.follows = none →
          ∃ t, exec (.taskReady no) s = .next t ∧ TaskBecomes s t no { k with st := .ready, since := s.cycle }) ∧
        ((k.arcs ≠ [] ∨ k.follows ≠ none) → exec (.taskReady no) s = .next s)) ∧
      (k.st = .ready → k.pooled = false →
        (∀ u ∈ s.tasks.tasks, u.die = k.die → u.st = .ready → u.pooled = false → k.since ≤ u.since) →
        ((s.tasks.tasks.filter fun u => u.die = k.die && u.pooled && u.st = .ready).length < 1024 →
          ∃ t, exec (.taskReady no) s = .next t ∧ TaskBecomes s t no { k with pooled := true, since := s.cycle, aged := 0 }) ∧
        (1024 ≤ (s.tasks.tasks.filter fun u => u.die = k.die && u.pooled && u.st = .ready).length →
          exec (.taskReady no) s = .next s)) ∧
      (k.pooled = true → k.aged < (s.cycle - k.since) / 0x100000 →
        ∃ t, exec (.agingTick no) s = .next t ∧ TaskBecomes s t no { k with aged := k.aged + 1 }) ∧
      -- pre-emption
      (k.st = .ready → k.pooled = true → k.kind = 0 → k.group = 0 → k.above = none → assignOver s [k] [] = none →
        (k.waitAt = none → ∃ t, exec (.preemptTimeout no) s = .next t ∧ TaskBecomes s t no { k with waitAt := some s.cycle }) ∧
        (∀ w v id, k.waitAt = some w → s.chooseVictim [k] k.eff = some (v, [(no, id)]) →
          (s.cycle < w + 4096 → exec (.preemptTimeout no) s = .next s) ∧
          (w + 4096 ≤ s.cycle → ∃ t j, exec (.preemptTimeout no) s = .next t ∧ t.taskNo no = some j ∧ j.above = some id ∧
            (∀ u ∈ v.tasks, ∃ x, t.taskNo u.no = some x ∧ x.st = .preempted) ∧
            ∀ u ∈ v.tasks, ∀ r g, u.region = some r → s.region r = some g → ∃ h, t.region r = some h ∧ h.wave ≠ none))) ∧
      -- retirement
      (∀ s1, k.st = .retiring → (∀ p ∈ s.ctxs.posts, p.task ≠ no) → s.retireRegion k = some s1 → s1.taskNo no = some k →
        (s1.owes k = true → exec (.retireComplete no) s = .next s1) ∧
        (s1.owes k = false → ∃ t j, exec (.retireComplete no) s = .next t ∧ t.taskNo no = some j ∧ j.st = (if k.status = 0 then .retired else .failed) ∧
          (∀ u ∈ t.tasks.tasks, no ∉ u.arcs ∧ u.follows ≠ some no) ∧ (∀ b ∈ t.tasks.breaks, b.task ≠ no) ∧
          (k.cq = 0 → t.ctxs.posts = s1.ctxs.posts) ∧
          (k.cq ≠ 0 → ∃ p, t.ctxs.posts = s1.ctxs.posts ++ [p] ∧ p.task = no ∧ p.cq = k.cq ∧
            p.bytes = toBytes 8 k.handle.toNat ++ toBytes 8 (k.no % 0x1000000 * 0x10000000000 + k.status % 256 * 0x100000000) ++
              toBytes 8 (s1.time k.die).toNat ++ List.replicate 8 0) ∧
          ∀ c d, k.launch = some c → s1.cmd c = some d → d.ended = none → ∃ x, t.cmd c = some x ∧ x.ended = some k.status))) ∧
    (∀ p s1, (s.ctxs.posts.find? fun p => decide (p.task = no)) = some p →
      s.deviceEnq (.task no) p.die p.ctx p.asid p.user p.cq p.clock p.bytes = (.done, s1) →
      ∃ t, exec (.retireComplete no) s = .next t ∧ t.ctxs.posts = s1.ctxs.posts.erase p ∧ t.mem = s1.mem) ∧
    -- binding and starting
    (QuietDie s die →
      (∀ k n b s1 h, (∀ x ∈ s.tasks.tasks, x.die = die → x.st ≠ .running) → s.pick die = some k → k.die = die → s.taskNo k.no = some k →
        k.group = 0 →
        k.kind = 1 → (s.workers die).head? = some n → s.readImage k.binder k.image = (.inl b, s1) →
        h = headerOf b → h.badField b = none → h.scalar = true → s1.taskNo k.no = some k →
        ∃ t, exec (.taskBind die) s = .next t ∧ t.taskNo k.no = some { k with
          st := .running, pooled := false, strand := some n, region := none, bank := none, since := s1.cycle, bound := s1.cycle,
          waitAt := none, pc := k.image + h.text + h.entry, place := some (k.since, k.waitAt, (s1.disp die).last) } ∧ t.mem = s1.mem) ∧
      (∀ k n c s1, (s.tasks.tasks.filter fun x => x.die = die && x.st = .running) = [k] →
        (∀ x ∈ s.tasks.tasks, x.die = die → x.pooled = false) → k.strand = some n → (s.strand n).task ≠ some k.no → k.kind = 1 →
        k.group = 0 → k.region = none → (s.strand n).worker = true → (s.strand n).run = .idle →
        s.ctxs.frozenCtx.contains k.ctx.toNat = false → s.taskNo k.no = some k → s.readDesc k.die k.ctx.toNat = (c, s1) →
        ∃ t u, exec (.taskBind die) s = .next t ∧ u = t.strand n ∧ u.run = .running ∧ u.task = some k.no ∧
          u.pc = BitVec.ofNat 64 k.pc ∧ u.reg 1 = BitVec.ofNat 64 k.args ∧ u.reg 2 = s1.taskWordOf k ∧
          u.reg 3 = 0 ∧ (∀ x : GReg, 4 ≤ x.toNat → u.reg x = 0) ∧ u.sup = false ∧ u.ctx = k.ctx ∧ u.asid = k.asid ∧ u.loops = [] ∧
          u.prio = BitVec.ofNat 2 c.prio ∧ u.faultq = c.faultq &&& ~~~0x3F#64 ∧ u.worker = false)) ∧
    (∀ id g, s.group id = some g →
      (g.st = .forming → g.tasks.length = g.members → (∀ n ∈ g.tasks, ∀ k, s.taskNo n = some k → k.st = .ready) →
        ∃ t, exec (.groupBind id) s = .next t ∧ t.group id = some { g with st := .pending, since := s.cycle } ∧
          t.tasks.tasks = s.tasks.tasks) ∧
      (∀ k s1, g.st = .pending → s.oldest g = some k → (s.pick k.die).map Task.no = some k.no → s.groupWait g = none → s.bindAll g = some s1 →
        (∃ h, s1.group id = some h) →
        ∃ t h, exec (.groupBind id) s = .next t ∧ t.group id = some h ∧ h.st = .running ∧ t.tasks.tasks = s1.tasks.tasks))

namespace Sys2Proof.Claim

/-- One more record for the host (R400): kept in the log while it has room, else counted. -/
def Logged (s t : State) (ws : List Word) : Prop :=
  if s.outer.mgmt.log.length < 4095 then t.outer.mgmt.log = s.outer.mgmt.log ++ [ws] ∧ t.outer.mgmt.lost = s.outer.mgmt.lost
  else t.outer.mgmt.log = s.outer.mgmt.log ∧ t.outer.mgmt.lost = s.outer.mgmt.lost + 1

/-- Only a link, and what the steward has logged, has changed. -/
def LinkBecomes (s t : State) (k : Nat) (l : Link) : Prop :=
  t.link k = l ∧ (∀ j, linkKey j ≠ linkKey k → t.link j = s.link j) ∧ t.mem = s.mem ∧ t.engs = s.engs ∧ t.tasks = s.tasks ∧
    t.ctxs = s.ctxs ∧ t.seqs = s.seqs

/-- Only what one sender keeps, and its receiver with it, has changed, besides the packets of the routers (R376). -/
def SenderBecomes (s t : State) (k : Nat) (p : Link) : Prop :=
  t.sender k = p ∧ (∀ j, j ≠ k → t.sender j = s.sender j) ∧ t.mem = s.mem ∧ t.engs = s.engs ∧ t.tasks = s.tasks ∧ t.ctxs = s.ctxs ∧
    t.seqs = s.seqs

/-- Nothing is on its way over the links that a change of one of them could take away: no packet moves or waits, no party is
parked, and the ports of a pair have had every flit acknowledged. -/
structure LinkIdle (s : State) (k : Nat) : Prop where
  moving : s.routes.moving = []
  sent   : ∀ x ∈ s.routes.sent, x.1 ≠ linkKey k
  parked : s.ports.parked = []
  held   : 24 ≤ k → ∀ j, linkKey j = linkKey k → (s.sender j).held = []
  start  : s.starting = false

end Sys2Proof.Claim

/-- The host reads and writes memory and answers snoops. -/
def Sys2Proof.Claim.HostReadsAndWrites (s : State) : Prop :=
  -- the host
  (∀ pa n v, s.outer.mgmt.mode ≠ .minimal → 1 ≤ n → n ≤ 8 →
    (hostReaches pa n = false → exec (.hostMemRead pa n) s = .fault (.unpopulated pa) ∧ exec (.hostMemWrite pa n v) s = .fault (.unpopulated pa)) ∧
    (hostReaches pa n = true →
      (∃ t x, exec (.hostMemRead pa n) s = .next t ∧ t.outer.mgmt.hostRd = s.outer.mgmt.hostRd ++ [(pa, x)] ∧
        (∀ i, i < n → x.extractLsb' (8 * i) 8 = s.byteAt (homeDie (pa + i)) (pa + i)) ∧
        (∀ i, i < n → pa + i < 0x8000000000000 → (pa + i) / 64 * 64 ∈ t.mem.hostHas) ∧ ∀ d a, t.byteAt d a = s.byteAt d a) ∧
      (s.ports.kept = [] → ∃ t, exec (.hostMemWrite pa n v) s = .next t ∧
        (∀ i, i < n → t.byteAt (homeDie (pa + i)) (pa + i) = v.extractLsb' (8 * i) 8) ∧
        (∀ i, i < n → pa + i < 0x8000000000000 → (pa + i) / 64 * 64 ∈ t.mem.hostHas) ∧
        ∀ d a, d < 8 → (a < pa ∨ pa + n ≤ a ∨ (a < 0x8000000000000 ∧ d ≠ homeDie a)) → t.byteAt d a = s.byteAt d a))) ∧
  (∀ pa n v, s.outer.mgmt.mode = .minimal → exec (.hostMemRead pa n) s = .next s ∧ exec (.hostMemWrite pa n v) s = .next s) ∧
  (∀ pa line dirty, s.outer.mgmt.mode ≠ .minimal → line = pa / 64 * 64 → line ∈ s.mem.snoops → line + 64 ≤ 0x8000000000000 →
    (∀ h ∈ s.mem.held, h.pa / 64 * 64 ≠ line) →
    ∃ t, exec (.biSnoopResponse pa dirty) s = .next t ∧ line ∉ t.mem.snoops ∧ line ∉ t.mem.hostHas ∧
      (dirty = none → ∀ d a, t.byteAt d a = s.byteAt d a) ∧
      ∀ d, dirty = some d → t.bytesAt (homeDie line) line 64 = toBytes 64 d.toNat ∧ OnlyBytes s t (homeDie line) [(line, 64)])

/-- The host moves the index of its side of a ring. -/
def Sys2Proof.Claim.HostMovesIndices (s : State) : Prop :=
  (∀ q v k, s.outer.mgmt.mode ≠ .minimal → q % 64 = 0 → k = s.qblock (homeDie q) q → k.unsound q = 0 → k.corrupt = false →
    (∀ w ∈ s.ports.parked, w.pa ≠ q) →
    (∀ n, n = (v.toNat + 0x100000000 - k.tail) % 0x100000000 → n ≠ 0 → hostReaches (q + 4) 4 = true →
      (k.pmode = 2 → n ≤ k.free → k.closed = false → ∃ t, exec (.hostTailWrite (q + 4) v) s = .next t ∧
        t.qblock (homeDie q) q = { k with tail := v.toNat, free := k.free - n, enqs := (k.enqs + n) % 0x10000000000000000 } ∧
        OnlyBytes s t (homeDie q) [(q, 64)]) ∧
      (k.pmode = 2 → n ≤ k.free → k.closed = true → ∃ t, exec (.hostTailWrite (q + 4) v) s = .next t ∧ t.mem = s.mem ∧
        Logged s t (recordWords 0x0B 0 9 (homeDie q) 0 0 0 0 0 (BitVec.ofNat 64 q) 0)) ∧
      (k.free < n ∨ k.pmode ≠ 2 → ∃ t, exec (.hostTailWrite (q + 4) v) s = .next t ∧ (t.qblock (homeDie q) q).corrupt = true ∧
        Logged s t (recordWords 0x0A 0 9 (homeDie q) 0 0 0 0 4 (BitVec.ofNat 64 q) 0) ∧ OnlyBytes s t (homeDie q) [(q, 64)])) ∧
    (∀ n, n = (v.toNat + 0x100000000 - k.head) % 0x100000000 → n ≠ 0 → hostReaches q 4 = true →
      (k.cmode = 2 → n ≤ k.count → ∃ t, exec (.hostHeadWrite q v) s = .next t ∧
        t.qblock (homeDie q) q = { k with head := v.toNat, free := k.free + n, deqs := (k.deqs + n) % 0x10000000000000000 } ∧
        OnlyBytes s t (homeDie q) [(q, 64)]) ∧
      (k.count < n ∨ k.cmode ≠ 2 → ∃ t, exec (.hostHeadWrite q v) s = .next t ∧ (t.qblock (homeDie q) q).corrupt = true ∧
        Logged s t (recordWords 0x0A 0 9 (homeDie q) 0 0 0 0 4 (BitVec.ofNat 64 q) 0))))

/-- The host writes the registers of BAR0. -/
def Sys2Proof.Claim.HostWritesBar0 (s : State) : Prop :=
  -- the registers of BAR0
  (∀ v : DWord, ((∀ c ∈ s.ctxs.live, c ∈ s.ctxs.dying) → ∃ t, exec (.ctxtab v) s = .next t ∧
      t.outer.mgmt.ctxtab = v &&& ~~~0x3F#64 ∧ t = { s with outer := t.outer } ∧ exec (.registerWrite 0 v) s = .next t) ∧
    ((∃ c ∈ s.ctxs.live, c ∉ s.ctxs.dying) → exec (.ctxtab v) s = .next s) ∧
    (∃ t, exec (.registerWrite 8 v) s = .next t ∧ t.outer.mgmt.rcbase = v &&& ~~~0x7FF#64 ∧ t = { s with outer := t.outer }) ∧
    ∀ k, k ≤ 18 ∨ (24 ≤ k ∧ k < 80) →
      (v.extractLsb' 16 2 = 1 → exec (.registerWrite (0x100 + 8 * k) v) s = exec (.linkFence k) s) ∧
      (v.extractLsb' 16 2 = 2 → exec (.registerWrite (0x100 + 8 * k) v) s = exec (.linkRetrain k) s))

/-- Links train, fail, retrain, are fenced, and move flits. -/
def Sys2Proof.Claim.LinksChangeState (s : State) : Prop :=
  -- links
  (∀ k l, l = s.link k → isLink k = true →
    (∀ w full, full = (if k < 18 then 8 else if k = 18 then 16 else 4) →
      w ∈ (if k < 18 then [8, 4] else if k = 18 then [16, 8, 4, 2, 1] else [4, 2]) →
      (l.st = .training → ∃ t, exec (.linkTrained k w) s = .next t ∧ LinkBecomes s t k { l with
        st := if w = full then .up else .degraded, width := BitVec.ofNat 8 w, fails := 0, again := (0, 0),
        credits := Config.linkCredits l.no, nextSeq := 0, expect := 0 }) ∧
      (l.st = .retraining → ∃ t, exec (.linkTrained k w) s = .next t ∧ LinkBecomes s t k { l with
        st := if w = full then .up else .degraded, width := BitVec.ofNat 8 w, fails := 0, again := (0, 0),
        replays := BitVec.ofNat 32 (min (l.replays.toNat + l.held.length) (0x100000000 - 1)) })) ∧
    (LinkIdle s k →
      (l.st = .training ∨ l.st = .retraining →
        (l.fails < 2 → ∃ t, exec (.linkTrainingFailure k) s = .next t ∧ LinkBecomes s t k { l with fails := l.fails + 1 }) ∧
        (2 ≤ l.fails → ∃ t, exec (.linkTrainingFailure k) s = .next t ∧
          LinkBecomes s t k { l with st := .failed, held := [], again := (0, 0), asked := false } ∧
          Logged s t (recordWords 0x17 8 8 (linkDie (linkKey k)) (linkWho (linkKey k)) 0 0 0 0 0 0))) ∧
      (l.flows = true → ∃ t, exec (.linkLaneLoss k) s = .next t ∧ LinkBecomes s t k { l with st := .retraining, fails := 0 } ∧
        Logged s t (recordWords 0x17 4 8 (linkDie (linkKey k)) (linkWho (linkKey k)) 0 0 0 0 0 0)) ∧
      (k ≠ 18 → l.flows = true ∨ l.st = .retraining → ∃ t, exec (.linkFence k) s = .next t ∧
        LinkBecomes s t k { l with st := .fenced, held := [], again := (0, 0), asked := false } ∧
        Logged s t (recordWords 0x17 8 8 (linkDie (linkKey k)) (linkWho (linkKey k)) 0 0 0 0 0 0))) ∧
    (k ≠ 18 → l.st = .down ∨ l.st = .fenced ∨ l.st = .failed → ∃ t, exec (.linkRetrain k) s = .next t ∧
      LinkBecomes s t k { l with st := .training, fails := 0 }) ∧
    (k = 18 → exec (.linkFence k) s = .next s ∧ exec (.linkRetrain k) s = .next s)) ∧
  (∀ k x, x = s.sender k → isLink k = true → (s.link k).flows = true →
    (∀ p, k ≤ 18 → 1 ≤ p / 256 % 512 → p / 256 % 512 ≤ 256 → ∃ t m, exec (.flitReceive k x.expect true p) s = .next t ∧
      SenderBecomes s t k { x with expect := x.expect + 1, asked := false } ∧ t.routes.moving = s.routes.moving ++ [m] ∧
      m.klass = p % 16 ∧ m.hops = p / 16 % 16 + 1 ∧ m.payload = toBytes (p / 256 % 512) (p / 0x100000000) ∧ m.die = linkDie k ∧
      m.srcKind = if k = 18 then 2 else 1) ∧
    (∀ p, 24 ≤ k → ∃ t, exec (.flitReceive k x.expect true p) s = .next t ∧ t.routes = s.routes ∧
      SenderBecomes s t k { x with expect := x.expect + 1, asked := false }) ∧
    (∀ q p, x.expect < q → ∃ t, exec (.flitReceive k q true p) s = .next t ∧ t.routes = s.routes ∧
      SenderBecomes s t k { x with asked := true }) ∧
    (∀ q p, ∃ t, exec (.flitReceive k q false p) s = .next t ∧ t.routes = s.routes ∧ SenderBecomes s t k { x with asked := true }) ∧
    (∀ q p, q < x.expect → exec (.flitReceive k q true p) s = .next s) ∧
    (∀ q, ∃ t, exec (.flitAcknowledgement k q false) s = .next t ∧
      SenderBecomes s t k { x with held := x.held.filter fun n => decide (q < n), again := (0, 0) } ∧
      ∀ y, y ∈ t.routes.sent ↔ y ∈ s.routes.sent ∧ ¬ (y.1 = k ∧ ∃ n, y.2.1 = some n ∧ n ≤ q)) ∧
    (∀ q a n, q ∈ x.held → a = (if x.again.1 = q then x.again.2 + 1 else 1) → a < 8 →
      n = min (x.replays.toNat + (x.held.filter fun y => decide (q ≤ y)).length) (0x100000000 - 1) →
      ∃ t, exec (.flitAcknowledgement k q true) s = .next t ∧ t.routes = s.routes ∧
        SenderBecomes s t k { x with again := (q, a), replays := BitVec.ofNat 32 n }) ∧
    (∀ q, q ∈ x.held → x.again = (q, 7) → ∃ t, exec (.flitAcknowledgement k q true) s = .next t ∧ (t.link k).st = .retraining)) ∧
  (∀ k l, k < 18 → l = s.link k →
    ((∀ x ∈ s.routes.sent, x.1 ≠ k) → ∃ t, exec (.creditReturn k) s = .next t ∧ LinkBecomes s t k { l with credits := l.credits + 1 }) ∧
    (∀ p rest, l.flows = true → s.routes.sent = (k, none, p) :: rest →
      ∃ t, exec (.creditReturn k) s = .next t ∧ (k, some l.nextSeq, p) ∈ t.routes.sent ∧
        LinkBecomes s t k { l with nextSeq := l.nextSeq + 1, held := l.held ++ [l.nextSeq] }))

/-- A packet that arrives is stored, forwarded, or gives its event. -/
def Sys2Proof.Claim.PacketsArrive (s : State) : Prop :=
  -- packets
  (∀ die p en, die < 8 → s.routes.sent = [] → s.routes.out = [] →
    (∀ va pa e s1, s.routes.moving = [p] → p.die = die → p.due ≤ s.cycle → en = s.entry die p.klass → en.unroutable = false → p.hops ≤ 8 →
      (∀ r ∈ s.routes.slots, r.die ≠ die) →
      (en.kind ≠ 3 → (p.srcKind = 0 → (s.clock die).covers p.clock = true) → (en.kind = 2 → p.payload.length ≤ 32) →
        p.payload.length ≤ 256 → va = en.slots.toNat →
        (s.holdEntry die p.klass en).translate (.packets die) (.engine die) en.ctx (s.desc die en.ctx.toNat).asid .write false none va 512 = (.ok pa e, s1) →
        MemInv s1 → pa + 512 ≤ 0x8000000000000 → pa % 64 = 0 → s1.ownedIn (pageAttr e) pa 512 = none → KeyShows s1 (pageAttr e) pa 512 →
        ∃ t, exec (.packetArrival die) s = .next t ∧ t.routes.moving = [] ∧
          t.routes.slots = s1.routes.slots ++ [(⟨die, p.klass, 0, va, p, false, false, 0, 0⟩ : RecvSlot)] ∧ OnlyBytes s1 t die [(pa, 512)] ∧
          t.bytesAt die (pa + 64) p.payload.length = p.payload ∧
          t.valAt die pa 8 = p.payload.length + p.klass % 16 * 4096 + p.srcDie % 8 * 0x10000 + p.srcKind % 4 * 0x100000 +
            p.srcWho % 64 * 0x1000000 + p.hops % 16 * 0x100000000) ∧
      (en.kind = 3 → en.fwd = 0 → en.target < 8 → en.target ≠ die → s.masked die p.klass = false → p.hops < 8 →
        s.reach die en.target = .open_ → ∃ t m, exec (.packetArrival die) s = .next t ∧ t.mem = s.mem ∧ t.routes.moving = [m] ∧
          m = { p with hops := p.hops + 1, via := die, die := en.target, due := m.due } ∧ s.cycle < m.due)) ∧
    (∀ r, s.routes.moving = [] → s.routes.slots = [r] → r.die = die → r.started = false → s.masked die r.klass = false →
      en = s.entry die r.klass → en.kind = 1 →
      ∃ t, exec (.packetArrival die) s = .next t ∧ t.mem = s.mem ∧ t.routes.slots = [{ r with started := true, kind := 1, token := 0 }] ∧
        (t.strand (die * 64 + en.who)).events = (s.strand (die * 64 + en.who)).events ++ [(⟨1, BitVec.ofNat 64 r.addr, some r.klass⟩ : AsyncEvent)] ∧
        ∀ n, n ≠ die * 64 + en.who → t.strand n = s.strand n))

/-- Host accesses and queue indices, BAR0 writes, link states, flits and arriving packets act as chapters 4, 16 and 23
say (R96, R241, R336, R375, R376, R377, R380, R381, R382, R383, R384, R386). -/
def Obligations.HostAccessesLinksAndPackets : Prop :=
  ∀ (s : State), MemInv s →
    HostReadsAndWrites s ∧ HostMovesIndices s ∧ HostWritesBar0 s ∧ LinksChangeState s ∧ PacketsArrive s

/-- Only what the steward and the links hold has changed. -/
def Sys2Proof.Claim.OnlyOuter (s t : State) : Prop := t = { s with outer := t.outer }

/-- What a start leaves of the machine before it (R397): host memory and what non-volatile storage keeps; all else is as after reset. -/
structure Sys2Proof.Claim.Restarted (s t : State) : Prop where
  host  : t.mem = { State.reset.mem with host := s.mem.host }
  rest  : t.seqs = State.reset.seqs ∧ t.engs = State.reset.engs ∧ t.ports = State.reset.ports ∧ t.tasks = State.reset.tasks ∧
            t.routes = State.reset.routes ∧ t.agenda = [] ∧ t.cycle = 0
  floor : t.outer.mgmt.floor = s.outer.mgmt.floor
  outer : t.outer.wrings = [] ∧ t.outer.probes = []

/-- Fault records, context retirement, probes, soft errors, wring tests and the start act as chapters 9 and 24 say
(R226, R227, R390, R391, R392, R393, R394, R395, R397, R398, R399, R400). -/
def Obligations.FaultsProbesTestsAndStarts : Prop :=
  ∀ (s : State), MemInv s →
    (∀ ctx r, (s.ctxs.records.find? fun r => decide (r.ctx.toNat = ctx)) = some r →
      (∀ s1, (s.desc r.die ctx).faultq ≠ 0 →
        s.deviceEnq (.queue ctx) r.die r.ctx r.asid false (s.desc r.die ctx).faultq.toNat r.clock (r.words.flatMap fun w => toBytes 4 w.toNat) = (.done, s1) →
        ∃ t, exec (.faultRecordPost ctx) s = .next t ∧ t.ctxs.records = s1.ctxs.records.erase r ∧ t.mem = s1.mem ∧ t.outer = s1.outer) ∧
      (∀ w rest, (s.desc r.die ctx).faultq = 0 → s.ctxs.dying.contains ctx = true → r.words = w :: rest →
        ∃ t, exec (.faultRecordPost ctx) s = .next t ∧ t.ctxs.records = s.ctxs.records.erase r ∧ t.mem = s.mem ∧
          Logged s t ((w ||| 0x8000) :: rest)) ∧
      (∀ w rest, (s.desc r.die ctx).faultq = 0 → r.words = w :: rest → s.outer.mgmt.log.length < 4095 →
        ∃ t, exec (.faultRecordPost ctx) s = .next t ∧ ctx ∈ t.ctxs.dying ∧ (w ||| 0x8000) :: rest ∈ t.outer.mgmt.log)) ∧
    (∀ ctx, s.ctxs.dying.contains ctx = true → ctx < 1024 → (∀ r ∈ s.ctxs.records, r.ctx.toNat ≠ ctx) → (∀ p ∈ s.ctxs.posts, p.ctx.toNat ≠ ctx) →
      (∀ c ∈ s.engs.cmds, c.ctx.toNat = ctx → c.ended ≠ none) → (∀ k ∈ s.tasks.tasks, k.ctx.toNat = ctx → k.held = false) →
      (∀ g ∈ s.tasks.regions, g.ctx.toNat ≠ ctx) → s.descPa ctx + 64 ≤ 0x8000000000000 →
      ∃ t, exec (.contextRetire ctx) s = .next t ∧ ctx ∉ t.ctxs.dying ∧ ctx ∉ t.ctxs.live ∧
        (t.desc (homeDie (s.descPa ctx)) ctx).v = false ∧
        ∀ u e, (u, e) ∈ t.seqs.tlbs → e.asid = (s.desc (homeDie (s.descPa ctx)) ctx).asid → 0 < e.size → 0x200000000000000 ≤ e.va) ∧
    -- probes
    (∀ e c q, (s.probeDue e c q = true → (∀ p ∈ s.outer.probes, ¬(p.e = e ∧ p.ctx = c ∧ p.queue = q)) →
        ∃ t, exec (.probeSend e c q) s = .next t ∧ OnlyOuter s t ∧
          t.outer = { s.outer with probes := s.outer.probes ++ [(⟨e, c, q, (e, q), [(e, q, s.cycle)], s.cycle + 1⟩ : Probe)] }) ∧
      (s.probeDue e c q = false → exec (.probeSend e c q) s = .next s)) ∧
    (∀ i p, s.outer.probes[i]? = some p → p.due ≤ s.cycle →
      (s.stillWait p = false → ∃ t, exec (.probeReturn i) s = .next t ∧ OnlyOuter s t ∧
        t.outer = { s.outer with probes := s.outer.probes.erase p }) ∧
      (∀ g, s.stillWait p = true → s.regionOf p.e = some g →
        ((∀ x ∈ s.probeNext p, p.closes x = false) → ∃ t, exec (.probeReturn i) s = .next t ∧ OnlyOuter s t ∧
          t.outer = { s.outer with probes := s.outer.probes.erase p ++
            ((s.probeNext p).map fun x =>
              { p with at_ := x, path := p.path ++ [(x.1, x.2, s.cycle)], due := s.cycle + 1 }) }) ∧
        ((∃ x ∈ s.probeNext p, p.closes x = true) → (∃ x ∈ s.outer.probes.erase p, x.e = p.e ∧ x.queue < p.queue) →
          ∃ t, exec (.probeReturn i) s = .next t ∧ OnlyOuter s t ∧
            t.outer = { s.outer with probes := s.outer.probes.erase p ++ [{ p with due := s.cycle + 1 }] }) ∧
        ((∃ x ∈ s.probeNext p, p.closes x = true) → (∀ x ∈ s.outer.probes.erase p, x.e = p.e → p.queue ≤ x.queue) → g.failed = none →
          ∃ t r, exec (.probeReturn i) s = .next t ∧ t.ctxs.records = s.ctxs.records ++ [r] ∧
          r.ctx = g.ctx ∧ r.words = recordWords 0x0E 0 (if isM p.e then 2 else 1) p.e.die (whoElem p.e) g.asid p.ctx g.ctx
            (p.queue + min (p.path.map fun x => x.1).eraseDups.length 65535 * 65536) 0 0 ∧
          ((t.elem p.e).pl.ctx p.ctx).stopped = true ∧ t.outer.probes = s.outer.probes.erase p ∧ t.mem = s.mem))) ∧
    -- soft errors and wring tests
    (∀ u a,
      (tested u = none → exec (.softError u true a) s = .next s) ∧
      (∀ v, tested u = some v → (∀ x ∈ s.outer.wrings, x.unit ≠ v) → ∃ t, exec (.softError u true a) s = .next t ∧ OnlyOuter s t ∧
        t.outer = { s.outer with wrings := s.outer.wrings ++ [(⟨v, [a], false⟩ : Wring)] }) ∧
      (∀ v w, tested u = some v → s.outer.wrings = [w] → w.unit = v → ∃ t, exec (.softError u true a) s = .next t ∧ OnlyOuter s t ∧
        t.outer = { s.outer with wrings := [{ w with addrs := w.addrs ++ [a] }] }) ∧
      (∀ n v o d k, u = .msu d k → (∀ x ∈ s.outer.wrings, x.unit ≠ u) → s.seqs.strands = [(n, v)] → v.ops = [o] → v.late = none →
        o.result = none → o.meets a = true →
        ∃ t i, exec (.softError u false a) s = .next t ∧ (t.strand n).late = some (0x16, o.va, i) ∧ (t.strand n).ops = [] ∧
          (t.strand n).g = v.g ∧ t.mem = { s.mem with poison := s.mem.poison ++ [(u, a / 4 * 4)] } ∧
          t.outer.wrings = s.outer.wrings ++ [(⟨u, [a], false⟩ : Wring)])) ∧
    (∀ d k, tested (.dram d k) = none ∧ tested (.dispatcher d) = none ∧ tested (.msu d k) = some (.msu d k)) ∧
    (∀ i w, s.outer.wrings[i]? = some w →
      (w.running = false →
        (∀ e, w.unit = .elem e → (∀ g, s.regionOf e = some g → g.st ≠ .running ∧ g.st ≠ .frozen) →
          ∃ t, exec (.wringTest i) s = .next t ∧ OnlyOuter s t ∧ { w with running := true } ∈ t.outer.wrings) ∧
        (∀ e g, w.unit = .elem e → s.regionOf e = some g → (g.st = .running ∨ g.st = .frozen) → exec (.wringTest i) s = .next s) ∧
        (∀ d c, w.unit = .l1 d c → ∃ t, exec (.wringTest i) s = .next t ∧ OnlyOuter s t ∧ { w with running := true } ∈ t.outer.wrings ∧
          ∀ n, dieOf n = d → coreOf n % 16 = c → t.bypassL1 n = true)) ∧
      (∀ pass a m, w.running = true → w.addrs = [a] → m = unitMaster w.unit →
        ∃ t, exec (.wringTestResult i pass) s = .next t ∧ t.outer.wrings = s.outer.wrings.erase w ∧
          ((∀ k, w.unit ≠ .link k) → (∀ d k b, w.unit ≠ .sliceBank d k b) → t.mem = s.mem) ∧
          ((∀ k, w.unit ≠ .link k) → Logged s t (recordWords 0x16 (if pass then 4 else 8) m.1 m.2.1 m.2.2 0 0 0 0 (BitVec.ofNat 64 a) 0)) ∧
          (pass = true → OnlyOuter s t) ∧
          (pass = false → (∀ e, w.unit = .elem e → (t.elem e).st = .fenced ∧ e ∈ t.outer.mgmt.fencedT) ∧
            ∀ d k b, w.unit = .sliceBank d k b → (d, k, b) ∈ t.outer.mgmt.fencedB ∧
              ∀ l ∈ t.mem.lines, ¬ (l.die = d ∧ l.unit = k ∧ l.way / 4 = b)))) ∧
    -- the start and the steward
    (∀ i : StartInput,
      (3 ≤ s.outer.mgmt.fails → ∃ t, exec (.moduleStart i) s = .next t ∧ Restarted s t ∧ t.outer.mgmt.mode = .minimal ∧ t.outer.mgmt.log = [] ∧
        t.outer.mgmt.fails = s.outer.mgmt.fails ∧ t.ctxs.keys = []) ∧
      (s.outer.mgmt.fails < 3 → ∀ why, why = (if i.image.ecdsaOk = false then 1 else if i.image.lmsOk = false then 2 else
          if i.image.formOk = false then 3 else if i.image.version < s.outer.mgmt.floor then 4 else
          if i.otherFail = true ∨ (∃ u ∈ i.badUnits, unitSpared u = false) then 5 else if i.hbmOk = false then 6 else
          if i.pairsOk = false then 7 else 0) →
        (why ≠ 0 → ∃ t, exec (.moduleStart i) s = .next t ∧ Restarted s t ∧ t.outer.mgmt.fails = s.outer.mgmt.fails + 1 ∧
          t.outer.mgmt.reason = BitVec.ofNat 8 why ∧ t.outer.mgmt.diesUp = 0 ∧ t.outer.mgmt.log = [] ∧ t.ctxs.keys = []) ∧
        (why = 0 → ∃ t, exec (.moduleStart i) s = .next t ∧ Restarted s t ∧ t.outer.mgmt.mode = .starting ∧
          t.outer.mgmt.diesUp = 0xFF ∧ t.outer.mgmt.fails = s.outer.mgmt.fails ∧
          (∀ e, .elem e ∈ i.badUnits → (t.elem e).st = .fenced) ∧ (∀ d k b, .sliceBank d k b ∈ i.badUnits → (d, k, b) ∈ t.outer.mgmt.fencedB) ∧
          ((∀ k, .link k ∉ i.badUnits) → t.outer.mgmt.log = []) ∧
          ∀ k, k < 18 → (t.link k).st = (if .link k ∈ i.badUnits then .fenced else .training) ∧
            (.link k ∈ i.badUnits → i.badUnits.length < 4096 →
              recordWords 0x17 8 8 (linkDie k) (linkWho k) 0 0 0 0 0 0 ∈ t.outer.mgmt.log)))) ∧
    ((s.starting && s.trained) = true → ∃ t, exec .startRunning s = .next t ∧ OnlyOuter s t ∧ t.outer.links = s.outer.links ∧
      t.outer.mgmt = { s.outer.mgmt with mode := .running, fails := 0 }) ∧
    (s.outer.mgmt.mode = .starting → s.outer.mgmt.diesUp ≠ 0 → ∃ t, exec .startWatchdog s = .next t ∧ Restarted s t ∧
      t.outer.mgmt.fails = min 3 (s.outer.mgmt.fails + 1) ∧ t.outer.mgmt.reason = 8 ∧ t.ctxs.keys = []) ∧
    (∀ f : FirmwareImage, f.ecdsaOk = true → f.lmsOk = true → f.formOk = true → s.outer.mgmt.floor ≤ f.version →
      ∃ t, exec (.firmwareUpdate f) s = .next t ∧ OnlyOuter s t ∧ t.outer = { s.outer with mgmt := { s.outer.mgmt with fails := 0 } }) ∧
    (∃ t a b c, exec .getMeasurements s = .next t ∧ t.outer.mgmt.replies = s.outer.mgmt.replies ++
      [[a, b, c, (s.bar0 0x10).extractLsb' 0 32, (s.bar0 0x10).extractLsb' 32 32]] ∧ t.mem = s.mem) ∧
    (∀ slot, s.outer.mgmt.session = true →
      (slot < 1024 → ∃ t, exec (.keyLoad slot) s = .next t ∧ (∀ n, (slot, n) ∈ t.ctxs.keys ↔ n = s.serial) ∧
        (∀ k, k.1 ≠ slot → (k ∈ t.ctxs.keys ↔ k ∈ s.ctxs.keys)) ∧ t.outer = s.outer ∧ t.mem = s.mem) ∧
      ∃ t, exec (.keyErase slot) s = .next t ∧ (∀ n, (slot, n) ∉ t.ctxs.keys) ∧
        (∀ k, k.1 ≠ slot → (k ∈ t.ctxs.keys ↔ k ∈ s.ctxs.keys)) ∧ t.outer = s.outer ∧ t.mem = s.mem) ∧
    (∃ t, exec .eventLogRead s = .next t ∧ OnlyOuter s t ∧ t.outer.mgmt.log = s.outer.mgmt.log ∧ t.outer.mgmt.logRead =
      s.outer.mgmt.log ++ if s.outer.mgmt.lost = 0 then [] else [[BitVec.ofNat 32 s.outer.mgmt.lost]]) ∧
    (∀ secured, (secured = true → s.outer.mgmt.session = true) → ∃ t r, exec (.spdmSessionRequest secured) s = .next t ∧
      t.outer.mgmt.session = true ∧ t.outer.mgmt.replies = s.outer.mgmt.replies ++ [r] ∧ t.mem = s.mem)

namespace Sys2Proof.Claim

/-- The instructions of element operation words (R61 to R68). -/
def onElement : Instr → Bool
  | .eNop .. | .mov .. | .movi .. | .movhi .. | .iadd .. | .isub .. | .iadds .. | .isubs .. | .imul .. | .imulh ..
  | .imulhn .. | .imad .. | .imin .. | .imax .. | .nmin .. | .nmax .. | .iabs .. | .eAnd .. | .eOr .. | .eXor ..
  | .eAndn .. | .eShl .. | .eShr .. | .eSha .. | .sel .. | .iaddi .. | .eAndi .. | .eShli .. | .eShri .. | .ePopc ..
  | .eClz .. | .idot4 .. | .fadd .. | .fsub .. | .fmul .. | .ffma .. | .fmin .. | .fmax .. | .fabs .. | .fneg ..
  | .bfadd2 .. | .bfmul2 .. | .bffma2 .. | .bfdot2 .. | .hadd2 .. | .hmul2 .. | .hfma2 .. | .fscale .. | .icmp ..
  | .fcmp .. | .pset .. | .pand .. | .por .. | .pxor .. | .pnot .. | .pmov .. | .cvtF32I32 .. | .cvtI32F32 ..
  | .cvtBf16F32 .. | .cvtF32Bf16 .. | .cvtE4m3F32 .. | .cvtE5m2F32 .. | .cvtE2m1F32 .. | .cvtF32E4m3 .. | .cvtF32E5m2 ..
  | .cvtF32E2m1 .. | .cvtI8F32 .. | .cvtF32I8 .. | .sclx .. | .cvtF16F32 .. | .cvtF32F16 .. | .exp2 .. | .log2 ..
  | .rcp .. | .rsqrt .. | .sqrt .. | .rstat .. | .rmerge .. | .lred .. | .lscan .. | .lperm .. | .lbcast .. | .lshift ..
  | .sld .. | .sst .. | .satm .. | .spf .. | .scln .. | .sinv .. | .xld .. | .xst .. | .feld .. | .fest .. | .feclr ..
  | .eenq .. | .edeq .. | .ebar .. | .mrld .. | .emit .. | .hdr .. | .drop .. | .lgen .. | .lgb .. | .wsplit ..
  | .wjoin .. | .ordt .. | .ptake .. | .pgive .. | .eGcall .. | .eGret | .etrap .. | .ehalt .. => true
  | _ => false

/-- The acting strand's turn comes to an instruction (R185, R199 to R201): it is ready, its core has not issued in this cycle, no late
trap or event comes first, and its PC is a multiple of 4. -/
structure Fetches (s : State) (n : Nat) : Prop where
  ready : s.ready n = true
  free  : (s.core (coreOf n)).used ≠ s.cycle + 1
  first : (s.strand n).late = none ∧ s.takable n = false
  pc    : (s.strand n).pc.toNat % 4 = 0

/-- The state in which the word is run: the strand acts, and the word is the one it has fetched. -/
def running (s : State) (w : Nat) : State := { s with focus := { s.focus with word := BitVec.ofNat 32 w } }

end Sys2Proof.Claim

/-! ### The step, the words, and the state as a whole -/

/-- A step runs exec of the instruction that its strand fetches or its element picks, of the event of its turn, or of
the next input (R58, R59, R60, R81, R101, R102, R185, R199, R200, R201, R220). -/
def Obligations.StepRunsTheDecodedInstruction : Prop :=
  ∀ (s : State) (rest : List Turn),
  (∀ t, s.passes t = true → step { s with agenda := t :: rest } = .next { s with agenda := rest }) ∧
    -- a strand
  (∀ n s0 s1, s0 = { s with agenda := rest } → s1 = { s0 with focus := { s0.focus with strand := n } } → Fetches s0 n → s.passes (.strand n) = false →
    (∀ pa e w s2, s1.curTranslate .fetch (s.strand n).pc.toNat 4 = .ok pa e → s1.ownedIn (pageAttr e) pa 4 = none →
      s1.spoiltCode pa = false → s1.codeWord pa (s1.mark (s.strand n).ctx 63 false (pageAttr e)) = (w, s2) →
      (∀ i, isLongWord w = false → decodeSeq w 0 = .ok i → step { s with agenda := .strand n :: rest } = exec i (running s2 w)) ∧
      (∀ x, decodeSeq w 0 = .error x →
        step { s with agenda := .strand n :: rest } = .next (running s2 w).trapIllegal) ∧
      (∀ j pb f v s3, isLongWord w = true → decodeSeq w 0 = .ok j →
        (running s2 w).curTranslate .fetch ((s.strand n).pc + 4).toNat 4 = .ok pb f → (running s2 w).ownedIn (pageAttr f) pb 4 = none →
        (running s2 w).spoiltCode pb = false →
        (running s2 w).codeWord pb ((running s2 w).mark (running s2 w).cur.ctx 63 false (pageAttr f)) = (v, s3) →
        (∀ i, decodeSeq w v = .ok i → step { s with agenda := .strand n :: rest } = exec i s3) ∧
        ∀ x, decodeSeq w v = .error x → step { s with agenda := .strand n :: rest } = .next s3.trapIllegal) ∧
      ((∀ l ∈ (s.core (coreOf n)).i1, l.pa ≠ pa / 64 * 64) → pa % 4 = 0 → pa + 64 ≤ 0x8000000000000 →
        KeyShows s (pageAttr e) (pa / 64 * 64) 64 → w = s.valAt (dieOf n) pa 4))) ∧
  (∀ n s0 s1, s0 = { s with agenda := rest } → s1 = { s0 with focus := { s0.focus with strand := n } } → s0.ready n = true → s.passes (.strand n) = false →
    (s0.core (coreOf n)).used ≠ s0.cycle + 1 →
    ((s.strand n).late ≠ none → step { s with agenda := .strand n :: rest } = exec (.lateEccTrap n) s1) ∧
    ((s.strand n).late = none → s0.takable n = true → step { s with agenda := .strand n :: rest } = exec (.asyncEventTake n) s1)) ∧
  (∀ n s0, s0 = { s with agenda := rest } → (s0.ready n = false ∨ (s0.core (coreOf n)).used = s0.cycle + 1) →
    step { s with agenda := .strand n :: rest } = .next s0) ∧
    -- an element
  (∀ e s0, s0 = { s with agenda := rest } → s.passes (.element e) = false →
    (s0.mayRun e = false → step { s with agenda := .element e :: rest } = .next s0) ∧
    (∀ j c slot trig op i, s0.mayRun e = true → j < 4 → c = ((s0.elem e).pl.arb + j) % 4 →
      (∀ k, k < j → (s0.focusOn e (((s0.elem e).pl.arb + k) % 4)).readySlot = none) →
      (s0.focusOn e c).readySlot = some (slot, trig, op) → decodeElem op.toNat = .ok i →
      step { s with agenda := .element e :: rest } = exec i { s0.focusOn e c with
        focus := { (s0.focusOn e c).focus with slot := slot, lanes := guardLanes (s0.focusOn e c).curCtx trig } })) ∧
    -- an internal event
  (∀ p, s.passes (.queueOpCancel p) = false → step { s with agenda := .queueOpCancel p :: rest } = exec (.queueOpCancel p) { s with agenda := rest }) ∧
  (∀ e ctx, s.passes (.firingComplete e ctx) = false → step { s with agenda := .firingComplete e ctx :: rest } = exec (.firingComplete e ctx) { s with agenda := rest }) ∧
  (∀ e ctx, s.passes (.siteFillArrival e ctx) = false → step { s with agenda := .siteFillArrival e ctx :: rest } = exec (.siteFillArrival e ctx) { s with agenda := rest }) ∧
  (∀ e ctx, s.passes (.chainTurn e ctx) = false → step { s with agenda := .chainTurn e ctx :: rest } = exec (.chainTurn e ctx) { s with agenda := rest }) ∧
  (∀ region, s.passes (.directoryForward region) = false → step { s with agenda := .directoryForward region :: rest } = exec (.directoryForward region) { s with agenda := rest }) ∧
  (∀ region, s.passes (.spreadUpdateApply region) = false → step { s with agenda := .spreadUpdateApply region :: rest } = exec (.spreadUpdateApply region) { s with agenda := rest }) ∧
  (∀ buf, s.passes (.routerForward buf) = false → step { s with agenda := .routerForward buf :: rest } = exec (.routerForward buf) { s with agenda := rest }) ∧
  (∀ die idx, s.passes (.rowPacketDelivery die idx) = false → step { s with agenda := .rowPacketDelivery die idx :: rest } = exec (.rowPacketDelivery die idx) { s with agenda := rest }) ∧
  (∀ e, s.passes (.elementClockGate e) = false → step { s with agenda := .elementClockGate e :: rest } = exec (.elementClockGate e) { s with agenda := rest }) ∧
  (∀ e, s.passes (.elementPowerGate e) = false → step { s with agenda := .elementPowerGate e :: rest } = exec (.elementPowerGate e) { s with agenda := rest }) ∧
  (∀ e, s.passes (.elementWake e) = false → step { s with agenda := .elementWake e :: rest } = exec (.elementWake e) { s with agenda := rest }) ∧
  (∀ e, s.passes (.weightLatch e) = false → step { s with agenda := .weightLatch e :: rest } = exec (.weightLatch e) { s with agenda := rest }) ∧
  (∀ e, s.passes (.rowAssembly e) = false → step { s with agenda := .rowAssembly e :: rest } = exec (.rowAssembly e) { s with agenda := rest }) ∧
  (∀ e, s.passes (.mrowFire e) = false → step { s with agenda := .mrowFire e :: rest } = exec (.mrowFire e) { s with agenda := rest }) ∧
  (∀ e, s.passes (.mrowOutput e) = false → step { s with agenda := .mrowOutput e :: rest } = exec (.mrowOutput e) { s with agenda := rest }) ∧
  (∀ region, s.passes (.configWordWrite region) = false → step { s with agenda := .configWordWrite region :: rest } = exec (.configWordWrite region) { s with agenda := rest }) ∧
  (∀ region, s.passes (.configEnd region) = false → step { s with agenda := .configEnd region :: rest } = exec (.configEnd region) { s with agenda := rest }) ∧
  (∀ region, s.passes (.bindCheck region) = false → step { s with agenda := .bindCheck region :: rest } = exec (.bindCheck region) { s with agenda := rest }) ∧
  (∀ die, s.passes (.placerServe die) = false → step { s with agenda := .placerServe die :: rest } = exec (.placerServe die) { s with agenda := rest }) ∧
  (∀ region, s.passes (.loadEnd region) = false → step { s with agenda := .loadEnd region :: rest } = exec (.loadEnd region) { s with agenda := rest }) ∧
  (∀ cmd, s.passes (.streamTokenTransfer cmd) = false → step { s with agenda := .streamTokenTransfer cmd :: rest } = exec (.streamTokenTransfer cmd) { s with agenda := rest }) ∧
  (∀ cmd, s.passes (.copySector cmd) = false → step { s with agenda := .copySector cmd :: rest } = exec (.copySector cmd) { s with agenda := rest }) ∧
  (∀ cmd, s.passes (.bankSector cmd) = false → step { s with agenda := .bankSector cmd :: rest } = exec (.bankSector cmd) { s with agenda := rest }) ∧
  (∀ cmd, s.passes (.rowTransfer cmd) = false → step { s with agenda := .rowTransfer cmd :: rest } = exec (.rowTransfer cmd) { s with agenda := rest }) ∧
  (∀ die pa, s.passes (.writebackAccept die pa) = false → step { s with agenda := .writebackAccept die pa :: rest } = exec (.writebackAccept die pa) { s with agenda := rest }) ∧
  (∀ strand ev, s.passes (.orderReadPerform strand ev) = false → step { s with agenda := .orderReadPerform strand ev :: rest } = exec (.orderReadPerform strand ev) { s with agenda := rest }) ∧
  (∀ strand ev, s.passes (.orderWritePerform strand ev) = false → step { s with agenda := .orderWritePerform strand ev :: rest } = exec (.orderWritePerform strand ev) { s with agenda := rest }) ∧
  (∀ die src, s.passes (.orderApplyPending die src) = false → step { s with agenda := .orderApplyPending die src :: rest } = exec (.orderApplyPending die src) { s with agenda := rest }) ∧
  (∀ strand ev, s.passes (.loadComplete strand ev) = false → step { s with agenda := .loadComplete strand ev :: rest } = exec (.loadComplete strand ev) { s with agenda := rest }) ∧
  (∀ die idx, s.passes (.walkComplete die idx) = false → step { s with agenda := .walkComplete die idx :: rest } = exec (.walkComplete die idx) { s with agenda := rest }) ∧
  (∀ strand, s.passes (.shootdownAck strand) = false → step { s with agenda := .shootdownAck strand :: rest } = exec (.shootdownAck strand) { s with agenda := rest }) ∧
  (∀ cmd, s.passes (.handleComplete cmd) = false → step { s with agenda := .handleComplete cmd :: rest } = exec (.handleComplete cmd) { s with agenda := rest }) ∧
  (∀ strand, s.passes (.idleWake strand) = false → step { s with agenda := .idleWake strand :: rest } = exec (.idleWake strand) { s with agenda := rest }) ∧
  (∀ strand, s.passes (.yieldTimeout strand) = false → step { s with agenda := .yieldTimeout strand :: rest } = exec (.yieldTimeout strand) { s with agenda := rest }) ∧
  (∀ ctx, s.passes (.faultRecordPost ctx) = false → step { s with agenda := .faultRecordPost ctx :: rest } = exec (.faultRecordPost ctx) { s with agenda := rest }) ∧
  (∀ ctx, s.passes (.contextRetire ctx) = false → step { s with agenda := .contextRetire ctx :: rest } = exec (.contextRetire ctx) { s with agenda := rest }) ∧
  (∀ region, s.passes (.freezeWave region) = false → step { s with agenda := .freezeWave region :: rest } = exec (.freezeWave region) { s with agenda := rest }) ∧
  (∀ region, s.passes (.freezePoint region) = false → step { s with agenda := .freezePoint region :: rest } = exec (.freezePoint region) { s with agenda := rest }) ∧
  (∀ region, s.passes (.calleeBind region) = false → step { s with agenda := .calleeBind region :: rest } = exec (.calleeBind region) { s with agenda := rest }) ∧
  (∀ region, s.passes (.gridReturn region) = false → step { s with agenda := .gridReturn region :: rest } = exec (.gridReturn region) { s with agenda := rest }) ∧
  (∀ region, s.passes (.pleatSpill region) = false → step { s with agenda := .pleatSpill region :: rest } = exec (.pleatSpill region) { s with agenda := rest }) ∧
  (∀ region, s.passes (.pleatRefill region) = false → step { s with agenda := .pleatRefill region :: rest } = exec (.pleatRefill region) { s with agenda := rest }) ∧
  (∀ die, s.passes (.launchAdmit die) = false → step { s with agenda := .launchAdmit die :: rest } = exec (.launchAdmit die) { s with agenda := rest }) ∧
  (∀ region, s.passes (.pinBreak region) = false → step { s with agenda := .pinBreak region :: rest } = exec (.pinBreak region) { s with agenda := rest }) ∧
  (∀ task, s.passes (.taskReady task) = false → step { s with agenda := .taskReady task :: rest } = exec (.taskReady task) { s with agenda := rest }) ∧
  (∀ task, s.passes (.agingTick task) = false → step { s with agenda := .agingTick task :: rest } = exec (.agingTick task) { s with agenda := rest }) ∧
  (∀ die, s.passes (.taskBind die) = false → step { s with agenda := .taskBind die :: rest } = exec (.taskBind die) { s with agenda := rest }) ∧
  (∀ group, s.passes (.groupBind group) = false → step { s with agenda := .groupBind group :: rest } = exec (.groupBind group) { s with agenda := rest }) ∧
  (∀ task, s.passes (.preemptTimeout task) = false → step { s with agenda := .preemptTimeout task :: rest } = exec (.preemptTimeout task) { s with agenda := rest }) ∧
  (∀ region, s.passes (.taskFaultEnd region) = false → step { s with agenda := .taskFaultEnd region :: rest } = exec (.taskFaultEnd region) { s with agenda := rest }) ∧
  (∀ task, s.passes (.retireComplete task) = false → step { s with agenda := .retireComplete task :: rest } = exec (.retireComplete task) { s with agenda := rest }) ∧
  (∀ e, s.passes (.eenqStatusDelivery e) = false → step { s with agenda := .eenqStatusDelivery e :: rest } = exec (.eenqStatusDelivery e) { s with agenda := rest }) ∧
  (∀ e, s.passes (.edeqDelivery e) = false → step { s with agenda := .edeqDelivery e :: rest } = exec (.edeqDelivery e) { s with agenda := rest }) ∧
  (∀ e, s.passes (.barReleaseToken e) = false → step { s with agenda := .barReleaseToken e :: rest } = exec (.barReleaseToken e) { s with agenda := rest }) ∧
  (∀ die unit, s.passes (.pageSend die unit) = false → step { s with agenda := .pageSend die unit :: rest } = exec (.pageSend die unit) { s with agenda := rest }) ∧
  (∀ die idx, s.passes (.partialArrival die idx) = false → step { s with agenda := .partialArrival die idx :: rest } = exec (.partialArrival die idx) { s with agenda := rest }) ∧
  (∀ die unit, s.passes (.catchupFetch die unit) = false → step { s with agenda := .catchupFetch die unit :: rest } = exec (.catchupFetch die unit) { s with agenda := rest }) ∧
  (∀ die, s.passes (.endHeaderSend die) = false → step { s with agenda := .endHeaderSend die :: rest } = exec (.endHeaderSend die) { s with agenda := rest }) ∧
  (∀ die, s.passes (.packetArrival die) = false → step { s with agenda := .packetArrival die :: rest } = exec (.packetArrival die) { s with agenda := rest }) ∧
  (∀ e ctx queue, s.passes (.probeSend e ctx queue) = false → step { s with agenda := .probeSend e ctx queue :: rest } = exec (.probeSend e ctx queue) { s with agenda := rest }) ∧
  (∀ idx, s.passes (.probeReturn idx) = false → step { s with agenda := .probeReturn idx :: rest } = exec (.probeReturn idx) { s with agenda := rest }) ∧
  (∀ idx, s.passes (.wringTest idx) = false → step { s with agenda := .wringTest idx :: rest } = exec (.wringTest idx) { s with agenda := rest }) ∧
  (s.passes .startRunning = false → step { s with agenda := .startRunning :: rest } = exec .startRunning { s with agenda := rest }) ∧
    -- an input, or the next cycle
  (∀ i xs, s.agenda = [] → s.inputs = i :: xs → isInput i = true → step s = exec i { s with inputs := xs }) ∧
  (s.agenda = [] → s.inputs = [] → ∃ t, step s = .next t ∧ t.cycle = s.cycle + 1 ∧ t.mem = s.mem ∧ t.engs = s.engs ∧
    t.tasks = s.tasks ∧ t.ports = s.ports ∧ t.ctxs = s.ctxs ∧ t.outer = s.outer)

/-- Words written out from the encodings of chapter 3 decode to the instructions they stand for (R52, R53, R55, R56,
R57, R58, R60, R63, R64, R65). -/
def Obligations.WordsOfTheSpecDecode : Prop :=
  decodeSeq 0x61149FFD 0 = .ok (.addi ⟨1, true⟩ 5 4 (BitVec.ofInt 13 (-3))) ∧
  decodeSeq 0x0B948004 0 = .ok (.ldn ⟨0, false⟩ 5 4 0 .h .plain) ∧
  decodeSeq 0x0D87FFF8 0 = .ok (.wait ⟨0, false⟩ 0 15 15 15 15) ∧
  decodeElem 0x08280820 = .ok (.iadd ⟨.reg 2, .take 0, .reg 2, 0, .nz, 0, 0⟩) ∧
  -- sub g1, g2, g3: OP 000001, D 00001, A 00010, B 00011, FN 00000001
  decodeSeq 0b00000000100001000100001100000001 0 = .ok (.sub ⟨0, false⟩ 1 2 3) ∧
  -- bne g1, g2, 4 words back: OP 001111, A 00001, B 00010, OFF −4
  decodeSeq 0b00000111100001000101111111111100 0 = .ok (.bne ⟨0, false⟩ 1 2 (BitVec.ofInt 13 (-4))) ∧
  -- acas g1, g2, g3 dev, 64 bits: OP 011001, AOP 1001, SCOPE 100, SZ 1
  decodeSeq 0b00001100100001000100001110011001 0 = .ok (.acas ⟨0, false⟩ 1 2 3 .dev true) ∧
  -- tdeq g1, g2, g3, g4: OP 011101, C 00100, SUB 011
  decodeSeq 0b00001110100001000100001100100011 0 = .ok (.tdeq ⟨0, false⟩ 1 2 3 4) ∧
  -- csrs TVEC from g2, old value to g1: OP 101000, CSROP 10, CSR 0x005
  decodeSeq 0b00010100000001000101000000000101 0 = .ok (.csrs ⟨0, false⟩ 1 2 5) ∧
  -- nop: OP 100111
  decodeSeq 0b00010011100000000000000000000000 0 = .ok (.nop ⟨0, false⟩) ∧
  -- limm g7, −1: OP 111111, D 00111, SUB 00000, IMM all ones
  decodeSeq 0b00011111100111000001111111111111 0xFFFFFFFF = .ok (.limm ⟨0, false⟩ 7 (BitVec.ofInt 45 (-1))) ∧
  -- movi x1, 5: opcode 0000010, D 00001, A 00000, IMM 5
  decodeElem 0b00000100000100000000000000000101 = .ok (.movi (.reg 1) 5) ∧
  -- sst site 3 at x1, value x2, w: opcode 1100010, D 10011 (none), A 00001, SITE 000011, B 00010, SZ 10
  decodeElem 0b11000101001100001000011000101000 = .ok (.sst 3 (.reg 1) (.reg 2) .w) ∧
  -- drop.2 i0, i1: opcode 1110010, A 10000, B 10001
  decodeElem 0b11100100000010000100010000000000 = .ok (.drop false (.take 0) (.take 1)) ∧
  decodeSeq 0 0 = .error .reservedOp ∧ decodeSeq 0b00010101100000000000000000000000 0 = .error .reservedOp ∧
  (∃ x, decodeSeq 0b00010011100001000000000000000000 0 = .error x) ∧
  ∃ x, decodeSeq 0b00010100000001000100100000010000 0 = .error x

/-- Every well-formed instruction that has an encoding is what its own words decode to, with every operand (R52, R53,
R54, R55, R56, R57, R60, R63, R64, R65, R66). -/
def Obligations.DecodeInvertsEncode : Prop :=
  ∀ i : Instr, i.wf = true →
    (∀ w, encode i = [w] → w < 0x100000000 ∧ (onElement i = true → decodeElem w = .ok i) ∧
      (onElement i = false → decodeSeq w 0 = .ok i ∧ isLongWord w = false)) ∧
    (∀ w v, encode i = [w, v] → w < 0x100000000 ∧ v < 0x100000000 ∧ onElement i = false ∧ decodeSeq w v = .ok i ∧ isLongWord w = true) ∧
    (encode i).length ≤ 2

/-- Every step keeps the memories of the machine in canonical form: the images of the dies, DRAM and host memory (R79,
R80, R90, R96, R234, R252, R407). -/
def Obligations.MemoriesStayCanonical : Prop :=
  ∀ s t : State, MemInv s → step s = .next t → MemInv t

/-- At reset the memories are canonical, and registers, control registers, links and START have the values the spec
gives (R119, R194, R195, R196, R347, R377, R380, R398). -/
def Obligations.ResetLeavesTheStatedValues : Prop :=
  MemInv State.reset ∧
  (∀ n u, u = State.reset.strand n → (∀ x : GReg, u.reg x = 0) ∧ u.status = 0x80 ∧ u.epc = 0 ∧ u.ecause = 0 ∧ u.eaddr = 0 ∧
    u.einfo = 0 ∧ u.tvec = 0 ∧ u.scratch = 0 ∧ u.prio = 0 ∧ u.faultq = 0 ∧ u.probecyc = 65536 ∧ u.loops = [] ∧
    (∀ c : OpClass, u.outstanding c = 0) ∧ u.handles = []) ∧
  (∀ e, (State.reset.elem e).st = .unconfigured) ∧
  (∀ k, (State.reset.link k).st = .down ∧ (State.reset.sender k).replays = 0) ∧ (∀ d, State.reset.time d = 0) ∧
  State.reset.bar0 0 = 0 ∧ State.reset.bar0 8 = 0 ∧ State.reset.bar0 0x10 = 0 ∧ State.reset.cycle = 0 ∧
  ∀ d a, State.reset.byteAt d a = blank
end

