-- ==== Sys2Proof/Laws/Memory.lean ====
section
/-! SUPPORT. Memory: what a read finds after a write, and that every write keeps the canonical form. -/

namespace Sys2Proof.Machine

/-! ### One byte -/

theorem memWfFrom_mono {m : Memory} {lo lo' : Nat} (h : memWfFrom lo m = true) (le : lo' ≤ lo) : memWfFrom lo' m = true := by
  cases m with
  | nil => rfl
  | cons p t => simp [memWfFrom] at h ⊢; exact ⟨⟨by omega, h.1.2⟩, h.2⟩

/-- Below its least address memory is blank. -/
theorem memRead_below {m : Memory} {lo a : Nat} (h : memWfFrom lo m = true) (lt : a < lo) : memRead m a = blank := by
  cases m with
  | nil => rfl
  | cons p t => simp [memWfFrom] at h; simp [memRead]; omega

/-- A write keeps the canonical form from a least address on. -/
theorem memWfFrom_memWrite {m : Memory} {lo : Nat} (a : Nat) (v : Byte) (h : memWfFrom lo m = true) (le : lo ≤ a) :
    memWfFrom lo (memWrite m a v) = true := by
  induction m generalizing lo with
  | nil => by_cases hv : v = blank <;> simp [memWrite, memWfFrom, hv, le]
  | cons p t ih =>
    obtain ⟨k, w⟩ := p
    simp [memWfFrom] at h
    obtain ⟨⟨h1, h2⟩, h3⟩ := h
    rcases Nat.lt_trichotomy a k with lt | eq | gt
    · by_cases hv : v = blank
      · simp [memWrite, lt, hv, memWfFrom, h1, h2, h3]
      · simp [memWrite, lt, hv, memWfFrom, le, h2, h3]; try omega
    · subst eq
      by_cases hv : v = blank
      · simp [memWrite, hv]; exact memWfFrom_mono h3 (by omega)
      · simp [memWrite, hv, memWfFrom, h1, h3]
    · have n1 : ¬ a < k := by omega
      have n2 : ¬ a = k := by omega
      simp [memWrite, n1, n2, memWfFrom, h1, h2]
      exact ih h3 (by omega)

/-- A write keeps the canonical form. -/
theorem wf_memWrite {m : Memory} (a : Nat) (v : Byte) (h : Memory.wf m = true) : Memory.wf (memWrite m a v) = true :=
  memWfFrom_memWrite a v h (Nat.zero_le _)

/-- What a read finds after a write of one byte. -/
theorem memRead_memWrite_from {m : Memory} {lo : Nat} (a b : Nat) (v : Byte) (h : memWfFrom lo m = true) :
    memRead (memWrite m a v) b = if b = a then v else memRead m b := by
  induction m generalizing lo with
  | nil =>
    by_cases hv : v = blank
    · subst hv; simp [memWrite, memRead]
    · simp [memWrite, hv, memRead]
      rcases Nat.lt_trichotomy b a with lt | eq | gt
      · have : ¬ b = a := by omega
        simp [lt, this]
      · simp [eq]
      · have n1 : ¬ b < a := by omega
        have n2 : ¬ b = a := by omega
        simp [n1, n2]
  | cons p t ih =>
    obtain ⟨k, w⟩ := p
    simp [memWfFrom] at h
    obtain ⟨⟨h1, h2⟩, h3⟩ := h
    rcases Nat.lt_trichotomy a k with lt | eq | gt
    · by_cases hv : v = blank
      · subst hv
        simp [memWrite, lt]
        intro e; subst e; simp [memRead, lt]
      · simp [memWrite, lt, hv]
        rcases Nat.lt_trichotomy b a with l2 | e2 | g2
        · have : ¬ b = a := by omega
          have : b < k := by omega
          simp [memRead, *]
        · simp [memRead, e2]
        · have n1 : ¬ b < a := by omega
          have n2 : ¬ b = a := by omega
          simp [memRead, n1, n2]
    · subst eq
      by_cases hv : v = blank
      · subst hv
        simp [memWrite]
        rcases Nat.lt_trichotomy b a with l2 | e2 | g2
        · have n2 : ¬ b = a := by omega
          simp [memRead, l2, n2]
          exact memRead_below h3 (by omega)
        · subst e2; simp; exact memRead_below h3 (by omega)
        · have n1 : ¬ b < a := by omega
          have n2 : ¬ b = a := by omega
          simp [memRead, n1, n2]
      · simp [memWrite, hv, memRead]
        by_cases l2 : b < a
        · have : ¬ b = a := by omega
          simp [l2, this]
        · by_cases e2 : b = a <;> simp [l2, e2]
    · have n1 : ¬ a < k := by omega
      have n2 : ¬ a = k := by omega
      simp [memWrite, n1, n2, memRead]
      by_cases l2 : b < k
      · have : ¬ b = a := by omega
        simp [l2, this]
      · by_cases e2 : b = k
        · have : ¬ k = a := by omega
          simp [e2, this]
        · simp [l2, e2]; exact ih h3

/-- What a read finds after a write of one byte to a canonical memory. -/
theorem memRead_memWrite {m : Memory} (a b : Nat) (v : Byte) (h : Memory.wf m = true) :
    memRead (memWrite m a v) b = if b = a then v else memRead m b := memRead_memWrite_from a b v h

/-! ### Several bytes -/

/-- A masked write keeps the canonical form. -/
theorem wf_writeOpt {m : Memory} (a : Nat) (bs : List (Option Byte)) (h : Memory.wf m = true) :
    Memory.wf (writeOpt m a bs) = true := by
  induction bs generalizing m a with
  | nil => exact h
  | cons b t ih =>
    cases b with
    | none => exact ih _ h
    | some v => exact ih _ (wf_memWrite a v h)

/-- A write of bytes keeps the canonical form. -/
theorem wf_writeN {m : Memory} (a : Nat) (bs : List Byte) (h : Memory.wf m = true) : Memory.wf (writeN m a bs) = true :=
  wf_writeOpt a _ h

/-- Outside the bytes it covers a masked write changes nothing. -/
theorem memRead_writeOpt_outside {m : Memory} (a b : Nat) (bs : List (Option Byte)) (h : Memory.wf m = true)
    (out : b < a ∨ a + bs.length ≤ b) : memRead (writeOpt m a bs) b = memRead m b := by
  induction bs generalizing m a with
  | nil => rfl
  | cons x t ih =>
    simp at out
    cases x with
    | none => exact ih (a + 1) h (by omega)
    | some v =>
      have ne : ¬ b = a := by omega
      show memRead (writeOpt (memWrite m a v) (a + 1) t) b = _
      rw [ih (a + 1) (wf_memWrite a v h) (by omega), memRead_memWrite a b v h]
      simp [ne]

/-- Inside them it sets the bytes that its mask names and leaves the others. -/
theorem memRead_writeOpt_inside {m : Memory} (a k : Nat) (bs : List (Option Byte)) (h : Memory.wf m = true)
    (lt : k < bs.length) : memRead (writeOpt m a bs) (a + k) = (bs[k]).getD (memRead m (a + k)) := by
  induction bs generalizing m a k with
  | nil => simp at lt
  | cons x t ih =>
    cases k with
    | zero =>
      cases x with
      | none => exact memRead_writeOpt_outside (a + 1) a t h (by omega)
      | some v =>
        show memRead (writeOpt (memWrite m a v) (a + 1) t) a = _
        rw [memRead_writeOpt_outside (a + 1) a t (wf_memWrite a v h) (by omega), memRead_memWrite a a v h]
        simp
    | succ k =>
      have lt' : k < t.length := by simpa using lt
      have e : a + (k + 1) = a + 1 + k := by omega
      cases x with
      | none => rw [e]; exact ih (a + 1) k h lt'
      | some v =>
        show memRead (writeOpt (memWrite m a v) (a + 1) t) (a + (k + 1)) = _
        rw [e, ih (a + 1) k (wf_memWrite a v h) lt', memRead_memWrite a (a + 1 + k) v h]
        have ne : ¬ a + 1 + k = a := by omega
        simp [ne]

/-- A whole value read back. -/
theorem readN_length (m : Memory) (a n : Nat) : (readN m a n).length = n := by
  induction n generalizing a with
  | zero => rfl
  | succ n ih => simp [readN, ih]

theorem toBytes_length (n v : Nat) : (toBytes n v).length = n := by
  induction n generalizing v with
  | zero => rfl
  | succ n ih => simp [toBytes, ih]

/-- The little-endian bytes of a value give it back (R4). -/
theorem leNat_toBytes (n v : Nat) : leNat (toBytes n v) = v % 256 ^ n := by
  induction n generalizing v with
  | zero => simp [toBytes, leNat, Nat.mod_one]
  | succ n ih =>
    have e : (256 : Nat) ^ (n + 1) = 256 * 256 ^ n := by rw [Nat.pow_succ, Nat.mul_comm]
    simp only [toBytes, leNat, ih, BitVec.toNat_ofNat, e, Nat.mod_mul]

/-! ### Images -/

/-- The image just set. -/
@[simp] theorem image_setImage_same (s : State) (d : Nat) (im : Image) : (s.setImage d im).image d = im := by
  simp [State.image, State.setImage]

/-- Every other image is as before. -/
theorem image_setImage_other (s : State) (d e : Nat) (im : Image) (h : d % 8 ≠ e % 8) :
    (s.setImage d im).image e = s.image e := by
  simp only [State.image, State.setImage]
  exact Vector.getElem_set_ne _ _ h

@[simp] theorem setImage_host (s : State) (d : Nat) (im : Image) : (s.setImage d im).mem.host = s.mem.host := rfl
@[simp] theorem setImage_dram (s : State) (d : Nat) (im : Image) : (s.setImage d im).mem.dram = s.mem.dram := rfl
@[simp] theorem setImage_pending (s : State) (d : Nat) (im : Image) : (s.setImage d im).mem.pending = s.mem.pending := rfl
@[simp] theorem setImage_lines (s : State) (d : Nat) (im : Image) : (s.setImage d im).mem.lines = s.mem.lines := rfl
@[simp] theorem setImage_wbs (s : State) (d : Nat) (im : Image) : (s.setImage d im).mem.wbs = s.mem.wbs := rfl

end Sys2Proof.Machine
end

