-- ==== Sys2Proof/Laws/Canonical.lean ====
section
/-! SUPPORT. Every shared operation over memory keeps the canonical form (`MemInv`): the images of the dies, DRAM and host memory. -/

namespace Sys2Proof.Machine

/-! ### What does not touch memory -/

/-- MemInv looks at the images, DRAM and host memory alone. -/
theorem memInv_of_same {s t : State} (hi : t.mem.images = s.mem.images) (hd : t.mem.dram = s.mem.dram)
    (hh : t.mem.host = s.mem.host) (h : MemInv s) : MemInv t := by
  refine ⟨hd ▸ h.1, hh ▸ h.2.1, fun d => ?_⟩
  have := h.2.2 d
  simpa [State.image, hi] using this

/-- A state with the same memory. -/
theorem memInv_of_mem {s t : State} (h : t.mem = s.mem) : MemInv s → MemInv t :=
  memInv_of_same (congrArg _ h) (congrArg _ h) (congrArg _ h)

/-- An update of `mem` that leaves images, DRAM and host memory. -/
theorem memInv_modMem (s : State) (f : Mem → Mem) (hi : (f s.mem).images = s.mem.images) (hd : (f s.mem).dram = s.mem.dram)
    (hh : (f s.mem).host = s.mem.host) : MemInv s → MemInv (s.modMem f) := memInv_of_same hi hd hh

/-! ### One image, DRAM, host memory -/

/-- An image replaced by one whose memory is canonical. -/
theorem memInv_setImage {s : State} (d : Nat) (im : Image) (hw : Memory.wf im.mem = true) (h : MemInv s) : MemInv (s.setImage d im) := by
  refine ⟨h.1, h.2.1, fun e => ?_⟩
  by_cases hde : d % 8 = e % 8
  · have : (s.setImage d im).image e = im := by simp [State.setImage, State.image, hde]
    rw [this]; exact hw
  · rw [image_setImage_other s d e im hde]; exact h.2.2 e

/-- DRAM replaced by a canonical memory. -/
theorem memInv_dram {s : State} (m : Memory) (hw : Memory.wf m = true) (h : MemInv s) : MemInv (s.modMem fun t => { t with dram := m }) :=
  ⟨hw, h.2.1, fun d => by simpa [State.image, State.modMem] using h.2.2 d⟩

/-- A fold of steps each of which keeps the form. -/
theorem memInv_foldl {α : Type} (f : State → α → State) (hf : ∀ s a, MemInv s → MemInv (f s a)) (l : List α) (s : State) (h : MemInv s) :
    MemInv (l.foldl f s) := by
  induction l generalizing s with
  | nil => exact h
  | cons a t ih => exact ih _ (hf s a h)

theorem memInv_dramPut {s : State} (pa : Nat) (b : Byte) (h : MemInv s) : MemInv (s.dramPut pa b) := by
  unfold State.dramPut
  split
  · exact h
  · rename_i key _
    refine memInv_foldl _ (fun s q h => ?_) _ _ (memInv_dram _ (wf_memWrite key b h.1) h)
    dsimp only
    split
    · exact h
    · exact memInv_foldl _ (fun s d h => memInv_setImage d _ (wf_memWrite q b (h.2.2 d)) h) _ _ h

theorem memInv_dramPutN {s : State} (pa : Nat) (bs : List (Option Byte)) (h : MemInv s) : MemInv (s.dramPutN pa bs) := by
  induction bs generalizing s pa with
  | nil => exact h
  | cons b t ih =>
    cases b with
    | none => exact ih _ h
    | some v => exact ih _ (memInv_dramPut pa v h)

theorem memInv_showDram {s : State} (pa n : Nat) (h : MemInv s) : MemInv (s.showDram pa n) :=
  memInv_foldl _ (fun s d h => memInv_setImage d _ (wf_writeN _ _ (h.2.2 d)) h) _ _ h

/-! ### Encryption and fetches -/

theorem memInv_reseal {s : State} (pa : Nat) (key : Option (Nat × Nat)) (h : MemInv s) : MemInv (s.reseal pa key) := by
  unfold State.reseal
  split
  · exact h
  · refine memInv_modMem _ _ rfl rfl rfl ?_
    split
    · exact h
    · exact memInv_dramPutN _ _ h

theorem memInv_fetchUnder {s : State} (pa : Nat) (key : Option (Nat × Nat)) (h : MemInv s) : MemInv (s.fetchUnder pa key) := by
  unfold State.fetchUnder
  dsimp only
  split
  · split
    · exact h
    · exact memInv_foldl _ (fun s d h => memInv_setImage d _ (wf_writeN _ _ (h.2.2 d)) h) _ _ (memInv_modMem _ _ rfl rfl rfl h)
  · exact h

theorem memInv_fetchRange {s : State} (pa n : Nat) (key : Option (Nat × Nat)) (h : MemInv s) : MemInv (s.fetchRange pa n key) := by
  unfold State.fetchRange
  split
  · exact h
  · exact memInv_foldl _ (fun _ k h => memInv_fetchUnder _ key h) _ _ h

/-! ### Caches and write-backs -/

theorem memInv_allocLine {s : State} (d pa : Nat) (m : Mark) (h : MemInv s) : MemInv (s.allocLine d pa m) := by
  unfold State.allocLine
  dsimp only
  split
  · exact h
  · split
    · exact memInv_modMem _ _ rfl rfl rfl h
    · exact memInv_modMem _ _ rfl rfl rfl h
    · exact h

theorem memInv_touch {s : State} (d pa : Nat) (m : Mark) (f : CacheLine → CacheLine) (h : MemInv s) : MemInv (s.touch d pa m f) := by
  unfold State.touch
  split
  · exact h
  · refine memInv_modMem _ _ rfl rfl rfl ?_
    split
    · exact h
    · exact memInv_allocLine d pa m h

theorem memInv_touchLine {s : State} (d pa n : Nat) (m : Mark) (h : MemInv s) : MemInv (s.touchLine d pa n m) := by
  unfold State.touchLine
  have h1 := memInv_fetchRange pa n m.key h
  dsimp only
  split
  · exact memInv_touch _ _ _ _ h1
  · split
    · exact memInv_touch _ _ _ _ h1
    · exact memInv_touch _ _ _ _ (memInv_touch _ _ _ _ h1)

theorem memInv_touchRead {s : State} (d pa n : Nat) (m : Mark) (h : MemInv s) : MemInv (s.touchRead d pa n m) :=
  memInv_foldl _ (fun _ p h => memInv_touchLine d p.1 p.2 m h) _ _ h

theorem memInv_touchWrite {s : State} (d pa : Nat) (bs : List (Option Byte)) (m : Mark) (merge : Bool) (h : MemInv s) :
    MemInv (s.touchWrite d pa bs m merge) := by
  unfold State.touchWrite
  split
  · exact h
  · exact memInv_touch _ _ _ _ h

theorem memInv_dropRange {s : State} (pa n : Nat) (h : MemInv s) : MemInv (s.dropRange pa n) := memInv_modMem _ _ rfl rfl rfl h

theorem memInv_acceptWb {s : State} (w : WriteBack) (h : MemInv s) : MemInv (s.acceptWb w) :=
  memInv_dramPutN _ _ (memInv_reseal _ _ (memInv_modMem _ _ rfl rfl rfl h))

theorem memInv_acceptRange {s : State} (pa n : Nat) (h : MemInv s) : MemInv (s.acceptRange pa n) :=
  memInv_foldl _ (fun _ w h => memInv_acceptWb w h) _ _ h

theorem memInv_cleanRange {s : State} (pa n : Nat) (h : MemInv s) : MemInv (s.cleanRange pa n) :=
  memInv_acceptRange pa n (memInv_foldl _ (fun s _ h => memInv_modMem s _ rfl rfl rfl h) _ _ h)

/-! ### Writes of the ordering machine -/

/-- A line dropped from the L1 caches leaves memory. -/
theorem dropL1_mem (s : State) (d : Nat) (p : Nat → Bool) (code : Bool) : (s.dropL1 d p code).mem = s.mem := by
  unfold State.dropL1; rfl

theorem memInv_dropL1 {s : State} (d : Nat) (p : Nat → Bool) (code : Bool) (h : MemInv s) : MemInv (s.dropL1 d p code) :=
  memInv_of_mem (dropL1_mem _ _ _ _) h

theorem memInv_issueWrite {s : State} (d pa : Nat) (bytes : List (Option Byte)) (m : Mark) (forced : Bool) (h : MemInv s) :
    MemInv (s.issueWrite d pa bytes m forced) :=
  memInv_of_same rfl rfl rfl (memInv_setImage (s := s) d ⟨writeOpt (s.image d).mem pa bytes, tagOpt (s.image d).tags pa s.serial bytes,
    (s.image d).clock.put d ((s.image d).clock.at d + 1)⟩ (wf_writeOpt pa bytes (h.2.2 d)) h)

theorem memInv_hostPut {s : State} (d pa : Nat) (bytes : List (Option Byte)) (code : Bool) (h : MemInv s) :
    MemInv (s.hostPut d pa bytes code) :=
  memInv_foldl _ (fun _ _ h => memInv_dropL1 _ _ _ h) _ _
    ⟨h.1, wf_writeOpt pa bytes h.2.1, fun e => by simpa [State.image, State.modMem] using h.2.2 e⟩

theorem memInv_performWrite {s : State} (d pa : Nat) (bytes : List (Option Byte)) (m : Mark) (code : Bool) (h : MemInv s) :
    MemInv (s.performWrite d pa bytes m code) := by
  unfold State.performWrite
  split
  · exact memInv_hostPut _ _ _ _ h
  · exact memInv_dropL1 _ _ _ (memInv_touchWrite _ _ _ _ _ (memInv_issueWrite _ _ _ _ _ (memInv_fetchRange _ _ _ h)))

theorem memInv_performVal {s : State} (d pa n v : Nat) (m : Mark) (h : MemInv s) : MemInv (s.performVal d pa n v m) :=
  memInv_performWrite d pa _ m false h

theorem memInv_applyWrite {s : State} (e : Nat) (w : WriteEv) (h : MemInv s) : MemInv (s.applyWrite e w) := by
  unfold State.applyWrite
  have hs := memInv_setImage (s := s) e ⟨writeOpt (s.image e).mem w.pa (if e = w.home then w.bytes else s.fresher e w w.pa w.bytes),
    tagOpt (s.image e).tags w.pa w.id (if e = w.home then w.bytes else s.fresher e w w.pa w.bytes),
    (s.image e).clock.put w.src ((s.image e).clock.at w.src + 1)⟩ (wf_writeOpt _ _ (h.2.2 e)) h
  dsimp only
  split
  · split
    · exact memInv_touchWrite _ _ _ _ _ (memInv_of_same rfl rfl rfl hs)
    · exact memInv_of_same rfl rfl rfl hs
  · refine memInv_dropL1 _ _ _ ?_
    split
    · exact memInv_touchWrite _ _ _ _ _ (memInv_of_same rfl rfl rfl hs)
    · exact memInv_of_same rfl rfl rfl hs

theorem memInv_discardPending {s : State} (pa n : Nat) (all : Bool) (h : MemInv s) : MemInv (s.discardPending pa n all) :=
  memInv_modMem _ _ rfl rfl rfl h

theorem memInv_msuWrite {s : State} (pa : Nat) (bytes : List (Option Byte)) (key : Option (Nat × Nat)) (h : MemInv s) :
    MemInv (s.msuWrite pa bytes key) :=
  memInv_issueWrite _ _ _ _ _ (memInv_dramPutN _ _ (memInv_reseal _ _
    (memInv_modMem _ _ rfl rfl rfl (memInv_discardPending _ _ _ (memInv_dropRange _ _ h)))))

theorem memInv_atomicInDram {s : State} (pa : Nat) (bytes : List (Option Byte)) (m : Mark) (h : MemInv s) :
    MemInv (s.atomicInDram pa bytes m) :=
  memInv_dropL1 _ _ _ (memInv_issueWrite _ _ _ _ _ (memInv_dramPutN _ _ (memInv_reseal _ _ h)))

/-! ### Accesses -/

theorem memInv_snoop {s : State} (pa : Nat) (h : MemInv s) : MemInv (s.snoop pa) := by
  unfold State.snoop; dsimp only; split
  · exact h
  · exact memInv_modMem _ _ rfl rfl rfl h

theorem memInv_atomicStep {s : State} (op : AOp) (pa n v expect : Nat) (m : Mark) (h : MemInv s) :
    MemInv (s.atomicStep op pa n v expect m).2 := by
  unfold State.atomicStep
  dsimp only
  split
  · exact memInv_atomicInDram _ _ _ (memInv_fetchRange _ _ _ (memInv_dropRange _ _ (memInv_cleanRange _ _ h)))
  · exact memInv_performWrite _ _ _ _ _ (memInv_touchRead _ _ _ _ h)

end Sys2Proof.Machine
end

