-- ==== Sys2Proof/Laws/State.lean ====
section
/-! SUPPORT. What each update of the state leaves alone: one lemma for each field, so that no proof unfolds an update. -/

namespace Sys2Proof.Machine

/-! ### `setStrand` -/

@[simp] theorem State.setStrand_cycle (s : State) (n : Nat) (t : Strand) : (s.setStrand n t).cycle = s.cycle := rfl
@[simp] theorem State.setStrand_serial (s : State) (n : Nat) (t : Strand) : (s.setStrand n t).serial = s.serial := rfl
@[simp] theorem State.setStrand_agenda (s : State) (n : Nat) (t : Strand) : (s.setStrand n t).agenda = s.agenda := rfl
@[simp] theorem State.setStrand_inputs (s : State) (n : Nat) (t : Strand) : (s.setStrand n t).inputs = s.inputs := rfl
@[simp] theorem State.setStrand_focus (s : State) (n : Nat) (t : Strand) : (s.setStrand n t).focus = s.focus := rfl
@[simp] theorem State.setStrand_mem (s : State) (n : Nat) (t : Strand) : (s.setStrand n t).mem = s.mem := rfl
@[simp] theorem State.setStrand_fab (s : State) (n : Nat) (t : Strand) : (s.setStrand n t).fab = s.fab := rfl
@[simp] theorem State.setStrand_engs (s : State) (n : Nat) (t : Strand) : (s.setStrand n t).engs = s.engs := rfl
@[simp] theorem State.setStrand_ports (s : State) (n : Nat) (t : Strand) : (s.setStrand n t).ports = s.ports := rfl
@[simp] theorem State.setStrand_tasks (s : State) (n : Nat) (t : Strand) : (s.setStrand n t).tasks = s.tasks := rfl
@[simp] theorem State.setStrand_ctxs (s : State) (n : Nat) (t : Strand) : (s.setStrand n t).ctxs = s.ctxs := rfl
@[simp] theorem State.setStrand_routes (s : State) (n : Nat) (t : Strand) : (s.setStrand n t).routes = s.routes := rfl
@[simp] theorem State.setStrand_outer (s : State) (n : Nat) (t : Strand) : (s.setStrand n t).outer = s.outer := rfl

/-! ### `setCur` -/

@[simp] theorem State.setCur_cycle (s : State) (t : Strand) : (s.setCur t).cycle = s.cycle := rfl
@[simp] theorem State.setCur_serial (s : State) (t : Strand) : (s.setCur t).serial = s.serial := rfl
@[simp] theorem State.setCur_agenda (s : State) (t : Strand) : (s.setCur t).agenda = s.agenda := rfl
@[simp] theorem State.setCur_inputs (s : State) (t : Strand) : (s.setCur t).inputs = s.inputs := rfl
@[simp] theorem State.setCur_focus (s : State) (t : Strand) : (s.setCur t).focus = s.focus := rfl
@[simp] theorem State.setCur_mem (s : State) (t : Strand) : (s.setCur t).mem = s.mem := rfl
@[simp] theorem State.setCur_fab (s : State) (t : Strand) : (s.setCur t).fab = s.fab := rfl
@[simp] theorem State.setCur_engs (s : State) (t : Strand) : (s.setCur t).engs = s.engs := rfl
@[simp] theorem State.setCur_ports (s : State) (t : Strand) : (s.setCur t).ports = s.ports := rfl
@[simp] theorem State.setCur_tasks (s : State) (t : Strand) : (s.setCur t).tasks = s.tasks := rfl
@[simp] theorem State.setCur_ctxs (s : State) (t : Strand) : (s.setCur t).ctxs = s.ctxs := rfl
@[simp] theorem State.setCur_routes (s : State) (t : Strand) : (s.setCur t).routes = s.routes := rfl
@[simp] theorem State.setCur_outer (s : State) (t : Strand) : (s.setCur t).outer = s.outer := rfl

/-! ### `setCore` -/

@[simp] theorem State.setCore_cycle (s : State) (c : Nat) (k : Core) : (s.setCore c k).cycle = s.cycle := rfl
@[simp] theorem State.setCore_serial (s : State) (c : Nat) (k : Core) : (s.setCore c k).serial = s.serial := rfl
@[simp] theorem State.setCore_agenda (s : State) (c : Nat) (k : Core) : (s.setCore c k).agenda = s.agenda := rfl
@[simp] theorem State.setCore_inputs (s : State) (c : Nat) (k : Core) : (s.setCore c k).inputs = s.inputs := rfl
@[simp] theorem State.setCore_focus (s : State) (c : Nat) (k : Core) : (s.setCore c k).focus = s.focus := rfl
@[simp] theorem State.setCore_mem (s : State) (c : Nat) (k : Core) : (s.setCore c k).mem = s.mem := rfl
@[simp] theorem State.setCore_fab (s : State) (c : Nat) (k : Core) : (s.setCore c k).fab = s.fab := rfl
@[simp] theorem State.setCore_engs (s : State) (c : Nat) (k : Core) : (s.setCore c k).engs = s.engs := rfl
@[simp] theorem State.setCore_ports (s : State) (c : Nat) (k : Core) : (s.setCore c k).ports = s.ports := rfl
@[simp] theorem State.setCore_tasks (s : State) (c : Nat) (k : Core) : (s.setCore c k).tasks = s.tasks := rfl
@[simp] theorem State.setCore_ctxs (s : State) (c : Nat) (k : Core) : (s.setCore c k).ctxs = s.ctxs := rfl
@[simp] theorem State.setCore_routes (s : State) (c : Nat) (k : Core) : (s.setCore c k).routes = s.routes := rfl
@[simp] theorem State.setCore_outer (s : State) (c : Nat) (k : Core) : (s.setCore c k).outer = s.outer := rfl

/-! ### `issued` -/

@[simp] theorem State.issued_cycle (s : State) (q : Issue) : (s.issued q).cycle = s.cycle := rfl
@[simp] theorem State.issued_serial (s : State) (q : Issue) : (s.issued q).serial = s.serial := rfl
@[simp] theorem State.issued_agenda (s : State) (q : Issue) : (s.issued q).agenda = s.agenda := rfl
@[simp] theorem State.issued_inputs (s : State) (q : Issue) : (s.issued q).inputs = s.inputs := rfl
@[simp] theorem State.issued_focus (s : State) (q : Issue) : (s.issued q).focus = s.focus := rfl
@[simp] theorem State.issued_mem (s : State) (q : Issue) : (s.issued q).mem = s.mem := rfl
@[simp] theorem State.issued_fab (s : State) (q : Issue) : (s.issued q).fab = s.fab := rfl
@[simp] theorem State.issued_engs (s : State) (q : Issue) : (s.issued q).engs = s.engs := rfl
@[simp] theorem State.issued_ports (s : State) (q : Issue) : (s.issued q).ports = s.ports := rfl
@[simp] theorem State.issued_tasks (s : State) (q : Issue) : (s.issued q).tasks = s.tasks := rfl
@[simp] theorem State.issued_ctxs (s : State) (q : Issue) : (s.issued q).ctxs = s.ctxs := rfl
@[simp] theorem State.issued_routes (s : State) (q : Issue) : (s.issued q).routes = s.routes := rfl
@[simp] theorem State.issued_outer (s : State) (q : Issue) : (s.issued q).outer = s.outer := rfl

/-! ### `done` -/

@[simp] theorem State.done_cycle (s : State) (q : Issue) (len : Nat) (f : Strand → Strand) : (s.done q len f).cycle = s.cycle := rfl
@[simp] theorem State.done_serial (s : State) (q : Issue) (len : Nat) (f : Strand → Strand) : (s.done q len f).serial = s.serial := rfl
@[simp] theorem State.done_agenda (s : State) (q : Issue) (len : Nat) (f : Strand → Strand) : (s.done q len f).agenda = s.agenda := rfl
@[simp] theorem State.done_inputs (s : State) (q : Issue) (len : Nat) (f : Strand → Strand) : (s.done q len f).inputs = s.inputs := rfl
@[simp] theorem State.done_focus (s : State) (q : Issue) (len : Nat) (f : Strand → Strand) : (s.done q len f).focus = s.focus := rfl
@[simp] theorem State.done_mem (s : State) (q : Issue) (len : Nat) (f : Strand → Strand) : (s.done q len f).mem = s.mem := rfl
@[simp] theorem State.done_fab (s : State) (q : Issue) (len : Nat) (f : Strand → Strand) : (s.done q len f).fab = s.fab := rfl
@[simp] theorem State.done_engs (s : State) (q : Issue) (len : Nat) (f : Strand → Strand) : (s.done q len f).engs = s.engs := rfl
@[simp] theorem State.done_ports (s : State) (q : Issue) (len : Nat) (f : Strand → Strand) : (s.done q len f).ports = s.ports := rfl
@[simp] theorem State.done_tasks (s : State) (q : Issue) (len : Nat) (f : Strand → Strand) : (s.done q len f).tasks = s.tasks := rfl
@[simp] theorem State.done_ctxs (s : State) (q : Issue) (len : Nat) (f : Strand → Strand) : (s.done q len f).ctxs = s.ctxs := rfl
@[simp] theorem State.done_routes (s : State) (q : Issue) (len : Nat) (f : Strand → Strand) : (s.done q len f).routes = s.routes := rfl
@[simp] theorem State.done_outer (s : State) (q : Issue) (len : Nat) (f : Strand → Strand) : (s.done q len f).outer = s.outer := rfl

/-! ### `goto` -/

@[simp] theorem State.goto_cycle (s : State) (q : Issue) (a : DWord) (l : Bool) (f : Strand → Strand) : (s.goto q a l f).cycle = s.cycle := rfl
@[simp] theorem State.goto_serial (s : State) (q : Issue) (a : DWord) (l : Bool) (f : Strand → Strand) : (s.goto q a l f).serial = s.serial := rfl
@[simp] theorem State.goto_agenda (s : State) (q : Issue) (a : DWord) (l : Bool) (f : Strand → Strand) : (s.goto q a l f).agenda = s.agenda := rfl
@[simp] theorem State.goto_inputs (s : State) (q : Issue) (a : DWord) (l : Bool) (f : Strand → Strand) : (s.goto q a l f).inputs = s.inputs := rfl
@[simp] theorem State.goto_focus (s : State) (q : Issue) (a : DWord) (l : Bool) (f : Strand → Strand) : (s.goto q a l f).focus = s.focus := rfl
@[simp] theorem State.goto_mem (s : State) (q : Issue) (a : DWord) (l : Bool) (f : Strand → Strand) : (s.goto q a l f).mem = s.mem := rfl
@[simp] theorem State.goto_fab (s : State) (q : Issue) (a : DWord) (l : Bool) (f : Strand → Strand) : (s.goto q a l f).fab = s.fab := rfl
@[simp] theorem State.goto_engs (s : State) (q : Issue) (a : DWord) (l : Bool) (f : Strand → Strand) : (s.goto q a l f).engs = s.engs := rfl
@[simp] theorem State.goto_ports (s : State) (q : Issue) (a : DWord) (l : Bool) (f : Strand → Strand) : (s.goto q a l f).ports = s.ports := rfl
@[simp] theorem State.goto_tasks (s : State) (q : Issue) (a : DWord) (l : Bool) (f : Strand → Strand) : (s.goto q a l f).tasks = s.tasks := rfl
@[simp] theorem State.goto_ctxs (s : State) (q : Issue) (a : DWord) (l : Bool) (f : Strand → Strand) : (s.goto q a l f).ctxs = s.ctxs := rfl
@[simp] theorem State.goto_routes (s : State) (q : Issue) (a : DWord) (l : Bool) (f : Strand → Strand) : (s.goto q a l f).routes = s.routes := rfl
@[simp] theorem State.goto_outer (s : State) (q : Issue) (a : DWord) (l : Bool) (f : Strand → Strand) : (s.goto q a l f).outer = s.outer := rfl

/-! ### `setProgress` -/

@[simp] theorem State.setProgress_cycle (s : State) (k : Nat) (v : DWord) : (s.setProgress k v).cycle = s.cycle := rfl
@[simp] theorem State.setProgress_serial (s : State) (k : Nat) (v : DWord) : (s.setProgress k v).serial = s.serial := rfl
@[simp] theorem State.setProgress_agenda (s : State) (k : Nat) (v : DWord) : (s.setProgress k v).agenda = s.agenda := rfl
@[simp] theorem State.setProgress_inputs (s : State) (k : Nat) (v : DWord) : (s.setProgress k v).inputs = s.inputs := rfl
@[simp] theorem State.setProgress_focus (s : State) (k : Nat) (v : DWord) : (s.setProgress k v).focus = s.focus := rfl
@[simp] theorem State.setProgress_mem (s : State) (k : Nat) (v : DWord) : (s.setProgress k v).mem = s.mem := rfl
@[simp] theorem State.setProgress_fab (s : State) (k : Nat) (v : DWord) : (s.setProgress k v).fab = s.fab := rfl
@[simp] theorem State.setProgress_engs (s : State) (k : Nat) (v : DWord) : (s.setProgress k v).engs = s.engs := rfl
@[simp] theorem State.setProgress_ports (s : State) (k : Nat) (v : DWord) : (s.setProgress k v).ports = s.ports := rfl
@[simp] theorem State.setProgress_tasks (s : State) (k : Nat) (v : DWord) : (s.setProgress k v).tasks = s.tasks := rfl
@[simp] theorem State.setProgress_ctxs (s : State) (k : Nat) (v : DWord) : (s.setProgress k v).ctxs = s.ctxs := rfl
@[simp] theorem State.setProgress_routes (s : State) (k : Nat) (v : DWord) : (s.setProgress k v).routes = s.routes := rfl
@[simp] theorem State.setProgress_outer (s : State) (k : Nat) (v : DWord) : (s.setProgress k v).outer = s.outer := rfl

/-! ### `modOp` -/

@[simp] theorem State.modOp_cycle (s : State) (n ev : Nat) (f : Op → Op) : (s.modOp n ev f).cycle = s.cycle := rfl
@[simp] theorem State.modOp_serial (s : State) (n ev : Nat) (f : Op → Op) : (s.modOp n ev f).serial = s.serial := rfl
@[simp] theorem State.modOp_agenda (s : State) (n ev : Nat) (f : Op → Op) : (s.modOp n ev f).agenda = s.agenda := rfl
@[simp] theorem State.modOp_inputs (s : State) (n ev : Nat) (f : Op → Op) : (s.modOp n ev f).inputs = s.inputs := rfl
@[simp] theorem State.modOp_focus (s : State) (n ev : Nat) (f : Op → Op) : (s.modOp n ev f).focus = s.focus := rfl
@[simp] theorem State.modOp_mem (s : State) (n ev : Nat) (f : Op → Op) : (s.modOp n ev f).mem = s.mem := rfl
@[simp] theorem State.modOp_fab (s : State) (n ev : Nat) (f : Op → Op) : (s.modOp n ev f).fab = s.fab := rfl
@[simp] theorem State.modOp_engs (s : State) (n ev : Nat) (f : Op → Op) : (s.modOp n ev f).engs = s.engs := rfl
@[simp] theorem State.modOp_ports (s : State) (n ev : Nat) (f : Op → Op) : (s.modOp n ev f).ports = s.ports := rfl
@[simp] theorem State.modOp_tasks (s : State) (n ev : Nat) (f : Op → Op) : (s.modOp n ev f).tasks = s.tasks := rfl
@[simp] theorem State.modOp_ctxs (s : State) (n ev : Nat) (f : Op → Op) : (s.modOp n ev f).ctxs = s.ctxs := rfl
@[simp] theorem State.modOp_routes (s : State) (n ev : Nat) (f : Op → Op) : (s.modOp n ev f).routes = s.routes := rfl
@[simp] theorem State.modOp_outer (s : State) (n ev : Nat) (f : Op → Op) : (s.modOp n ev f).outer = s.outer := rfl

/-! ### `dropOp` -/

@[simp] theorem State.dropOp_cycle (s : State) (n ev : Nat) : (s.dropOp n ev).cycle = s.cycle := rfl
@[simp] theorem State.dropOp_serial (s : State) (n ev : Nat) : (s.dropOp n ev).serial = s.serial := rfl
@[simp] theorem State.dropOp_agenda (s : State) (n ev : Nat) : (s.dropOp n ev).agenda = s.agenda := rfl
@[simp] theorem State.dropOp_inputs (s : State) (n ev : Nat) : (s.dropOp n ev).inputs = s.inputs := rfl
@[simp] theorem State.dropOp_focus (s : State) (n ev : Nat) : (s.dropOp n ev).focus = s.focus := rfl
@[simp] theorem State.dropOp_mem (s : State) (n ev : Nat) : (s.dropOp n ev).mem = s.mem := rfl
@[simp] theorem State.dropOp_fab (s : State) (n ev : Nat) : (s.dropOp n ev).fab = s.fab := rfl
@[simp] theorem State.dropOp_engs (s : State) (n ev : Nat) : (s.dropOp n ev).engs = s.engs := rfl
@[simp] theorem State.dropOp_ports (s : State) (n ev : Nat) : (s.dropOp n ev).ports = s.ports := rfl
@[simp] theorem State.dropOp_tasks (s : State) (n ev : Nat) : (s.dropOp n ev).tasks = s.tasks := rfl
@[simp] theorem State.dropOp_ctxs (s : State) (n ev : Nat) : (s.dropOp n ev).ctxs = s.ctxs := rfl
@[simp] theorem State.dropOp_routes (s : State) (n ev : Nat) : (s.dropOp n ev).routes = s.routes := rfl
@[simp] theorem State.dropOp_outer (s : State) (n ev : Nat) : (s.dropOp n ev).outer = s.outer := rfl

/-! ### `dropL1` -/

@[simp] theorem State.dropL1_cycle (s : State) (d : Nat) (p : Nat → Bool) (c : Bool) : (s.dropL1 d p c).cycle = s.cycle := rfl
@[simp] theorem State.dropL1_serial (s : State) (d : Nat) (p : Nat → Bool) (c : Bool) : (s.dropL1 d p c).serial = s.serial := rfl
@[simp] theorem State.dropL1_agenda (s : State) (d : Nat) (p : Nat → Bool) (c : Bool) : (s.dropL1 d p c).agenda = s.agenda := rfl
@[simp] theorem State.dropL1_inputs (s : State) (d : Nat) (p : Nat → Bool) (c : Bool) : (s.dropL1 d p c).inputs = s.inputs := rfl
@[simp] theorem State.dropL1_focus (s : State) (d : Nat) (p : Nat → Bool) (c : Bool) : (s.dropL1 d p c).focus = s.focus := rfl
@[simp] theorem State.dropL1_mem (s : State) (d : Nat) (p : Nat → Bool) (c : Bool) : (s.dropL1 d p c).mem = s.mem := rfl
@[simp] theorem State.dropL1_fab (s : State) (d : Nat) (p : Nat → Bool) (c : Bool) : (s.dropL1 d p c).fab = s.fab := rfl
@[simp] theorem State.dropL1_engs (s : State) (d : Nat) (p : Nat → Bool) (c : Bool) : (s.dropL1 d p c).engs = s.engs := rfl
@[simp] theorem State.dropL1_ports (s : State) (d : Nat) (p : Nat → Bool) (c : Bool) : (s.dropL1 d p c).ports = s.ports := rfl
@[simp] theorem State.dropL1_tasks (s : State) (d : Nat) (p : Nat → Bool) (c : Bool) : (s.dropL1 d p c).tasks = s.tasks := rfl
@[simp] theorem State.dropL1_ctxs (s : State) (d : Nat) (p : Nat → Bool) (c : Bool) : (s.dropL1 d p c).ctxs = s.ctxs := rfl
@[simp] theorem State.dropL1_routes (s : State) (d : Nat) (p : Nat → Bool) (c : Bool) : (s.dropL1 d p c).routes = s.routes := rfl
@[simp] theorem State.dropL1_outer (s : State) (d : Nat) (p : Nat → Bool) (c : Bool) : (s.dropL1 d p c).outer = s.outer := rfl

/-! ### `addOp` -/

@[simp] theorem State.addOp_cycle (s : State) (k : OpKind) (r : GReg) (c : OpClass) (sc : Option Scope) (a l v : Bool) (va : Nat) : (s.addOp k r c sc a l v va).cycle = s.cycle := rfl
@[simp] theorem State.addOp_agenda (s : State) (k : OpKind) (r : GReg) (c : OpClass) (sc : Option Scope) (a l v : Bool) (va : Nat) : (s.addOp k r c sc a l v va).agenda = s.agenda := rfl
@[simp] theorem State.addOp_inputs (s : State) (k : OpKind) (r : GReg) (c : OpClass) (sc : Option Scope) (a l v : Bool) (va : Nat) : (s.addOp k r c sc a l v va).inputs = s.inputs := rfl
@[simp] theorem State.addOp_focus (s : State) (k : OpKind) (r : GReg) (c : OpClass) (sc : Option Scope) (a l v : Bool) (va : Nat) : (s.addOp k r c sc a l v va).focus = s.focus := rfl
@[simp] theorem State.addOp_mem (s : State) (k : OpKind) (r : GReg) (c : OpClass) (sc : Option Scope) (a l v : Bool) (va : Nat) : (s.addOp k r c sc a l v va).mem = s.mem := rfl
@[simp] theorem State.addOp_fab (s : State) (k : OpKind) (r : GReg) (c : OpClass) (sc : Option Scope) (a l v : Bool) (va : Nat) : (s.addOp k r c sc a l v va).fab = s.fab := rfl
@[simp] theorem State.addOp_engs (s : State) (k : OpKind) (r : GReg) (c : OpClass) (sc : Option Scope) (a l v : Bool) (va : Nat) : (s.addOp k r c sc a l v va).engs = s.engs := rfl
@[simp] theorem State.addOp_ports (s : State) (k : OpKind) (r : GReg) (c : OpClass) (sc : Option Scope) (a l v : Bool) (va : Nat) : (s.addOp k r c sc a l v va).ports = s.ports := rfl
@[simp] theorem State.addOp_tasks (s : State) (k : OpKind) (r : GReg) (c : OpClass) (sc : Option Scope) (a l v : Bool) (va : Nat) : (s.addOp k r c sc a l v va).tasks = s.tasks := rfl
@[simp] theorem State.addOp_ctxs (s : State) (k : OpKind) (r : GReg) (c : OpClass) (sc : Option Scope) (a l v : Bool) (va : Nat) : (s.addOp k r c sc a l v va).ctxs = s.ctxs := rfl
@[simp] theorem State.addOp_routes (s : State) (k : OpKind) (r : GReg) (c : OpClass) (sc : Option Scope) (a l v : Bool) (va : Nat) : (s.addOp k r c sc a l v va).routes = s.routes := rfl
@[simp] theorem State.addOp_outer (s : State) (k : OpKind) (r : GReg) (c : OpClass) (sc : Option Scope) (a l v : Bool) (va : Nat) : (s.addOp k r c sc a l v va).outer = s.outer := rfl

/-! ### `addCmd` -/

@[simp] theorem State.addCmd_cycle (s : State) (k : CmdKind) (c : OpClass) (r : GReg) (p : List TlbEntry) : (s.addCmd k c r p).cycle = s.cycle := rfl
@[simp] theorem State.addCmd_agenda (s : State) (k : CmdKind) (c : OpClass) (r : GReg) (p : List TlbEntry) : (s.addCmd k c r p).agenda = s.agenda := rfl
@[simp] theorem State.addCmd_inputs (s : State) (k : CmdKind) (c : OpClass) (r : GReg) (p : List TlbEntry) : (s.addCmd k c r p).inputs = s.inputs := rfl
@[simp] theorem State.addCmd_focus (s : State) (k : CmdKind) (c : OpClass) (r : GReg) (p : List TlbEntry) : (s.addCmd k c r p).focus = s.focus := rfl
@[simp] theorem State.addCmd_mem (s : State) (k : CmdKind) (c : OpClass) (r : GReg) (p : List TlbEntry) : (s.addCmd k c r p).mem = s.mem := rfl
@[simp] theorem State.addCmd_fab (s : State) (k : CmdKind) (c : OpClass) (r : GReg) (p : List TlbEntry) : (s.addCmd k c r p).fab = s.fab := rfl
@[simp] theorem State.addCmd_ports (s : State) (k : CmdKind) (c : OpClass) (r : GReg) (p : List TlbEntry) : (s.addCmd k c r p).ports = s.ports := rfl
@[simp] theorem State.addCmd_tasks (s : State) (k : CmdKind) (c : OpClass) (r : GReg) (p : List TlbEntry) : (s.addCmd k c r p).tasks = s.tasks := rfl
@[simp] theorem State.addCmd_ctxs (s : State) (k : CmdKind) (c : OpClass) (r : GReg) (p : List TlbEntry) : (s.addCmd k c r p).ctxs = s.ctxs := rfl
@[simp] theorem State.addCmd_routes (s : State) (k : CmdKind) (c : OpClass) (r : GReg) (p : List TlbEntry) : (s.addCmd k c r p).routes = s.routes := rfl
@[simp] theorem State.addCmd_outer (s : State) (k : CmdKind) (c : OpClass) (r : GReg) (p : List TlbEntry) : (s.addCmd k c r p).outer = s.outer := rfl

/-! ### `modCmd` -/

@[simp] theorem State.modCmd_cycle (s : State) (id : Nat) (f : Cmd → Cmd) : (s.modCmd id f).cycle = s.cycle := rfl
@[simp] theorem State.modCmd_serial (s : State) (id : Nat) (f : Cmd → Cmd) : (s.modCmd id f).serial = s.serial := rfl
@[simp] theorem State.modCmd_agenda (s : State) (id : Nat) (f : Cmd → Cmd) : (s.modCmd id f).agenda = s.agenda := rfl
@[simp] theorem State.modCmd_inputs (s : State) (id : Nat) (f : Cmd → Cmd) : (s.modCmd id f).inputs = s.inputs := rfl
@[simp] theorem State.modCmd_focus (s : State) (id : Nat) (f : Cmd → Cmd) : (s.modCmd id f).focus = s.focus := rfl
@[simp] theorem State.modCmd_mem (s : State) (id : Nat) (f : Cmd → Cmd) : (s.modCmd id f).mem = s.mem := rfl
@[simp] theorem State.modCmd_seqs (s : State) (id : Nat) (f : Cmd → Cmd) : (s.modCmd id f).seqs = s.seqs := rfl
@[simp] theorem State.modCmd_fab (s : State) (id : Nat) (f : Cmd → Cmd) : (s.modCmd id f).fab = s.fab := rfl
@[simp] theorem State.modCmd_ports (s : State) (id : Nat) (f : Cmd → Cmd) : (s.modCmd id f).ports = s.ports := rfl
@[simp] theorem State.modCmd_tasks (s : State) (id : Nat) (f : Cmd → Cmd) : (s.modCmd id f).tasks = s.tasks := rfl
@[simp] theorem State.modCmd_ctxs (s : State) (id : Nat) (f : Cmd → Cmd) : (s.modCmd id f).ctxs = s.ctxs := rfl
@[simp] theorem State.modCmd_routes (s : State) (id : Nat) (f : Cmd → Cmd) : (s.modCmd id f).routes = s.routes := rfl
@[simp] theorem State.modCmd_outer (s : State) (id : Nat) (f : Cmd → Cmd) : (s.modCmd id f).outer = s.outer := rfl

/-! ### `endCmd` -/

@[simp] theorem State.endCmd_cycle (s : State) (id c : Nat) : (s.endCmd id c).cycle = s.cycle := rfl
@[simp] theorem State.endCmd_serial (s : State) (id c : Nat) : (s.endCmd id c).serial = s.serial := rfl
@[simp] theorem State.endCmd_agenda (s : State) (id c : Nat) : (s.endCmd id c).agenda = s.agenda := rfl
@[simp] theorem State.endCmd_inputs (s : State) (id c : Nat) : (s.endCmd id c).inputs = s.inputs := rfl
@[simp] theorem State.endCmd_focus (s : State) (id c : Nat) : (s.endCmd id c).focus = s.focus := rfl
@[simp] theorem State.endCmd_mem (s : State) (id c : Nat) : (s.endCmd id c).mem = s.mem := rfl
@[simp] theorem State.endCmd_seqs (s : State) (id c : Nat) : (s.endCmd id c).seqs = s.seqs := rfl
@[simp] theorem State.endCmd_fab (s : State) (id c : Nat) : (s.endCmd id c).fab = s.fab := rfl
@[simp] theorem State.endCmd_ports (s : State) (id c : Nat) : (s.endCmd id c).ports = s.ports := rfl
@[simp] theorem State.endCmd_tasks (s : State) (id c : Nat) : (s.endCmd id c).tasks = s.tasks := rfl
@[simp] theorem State.endCmd_ctxs (s : State) (id c : Nat) : (s.endCmd id c).ctxs = s.ctxs := rfl
@[simp] theorem State.endCmd_routes (s : State) (id c : Nat) : (s.endCmd id c).routes = s.routes := rfl
@[simp] theorem State.endCmd_outer (s : State) (id c : Nat) : (s.endCmd id c).outer = s.outer := rfl

/-! ### `setImage` -/

@[simp] theorem State.setImage_cycle (s : State) (d : Nat) (im : Image) : (s.setImage d im).cycle = s.cycle := rfl
@[simp] theorem State.setImage_serial (s : State) (d : Nat) (im : Image) : (s.setImage d im).serial = s.serial := rfl
@[simp] theorem State.setImage_agenda (s : State) (d : Nat) (im : Image) : (s.setImage d im).agenda = s.agenda := rfl
@[simp] theorem State.setImage_inputs (s : State) (d : Nat) (im : Image) : (s.setImage d im).inputs = s.inputs := rfl
@[simp] theorem State.setImage_focus (s : State) (d : Nat) (im : Image) : (s.setImage d im).focus = s.focus := rfl
@[simp] theorem State.setImage_seqs (s : State) (d : Nat) (im : Image) : (s.setImage d im).seqs = s.seqs := rfl
@[simp] theorem State.setImage_fab (s : State) (d : Nat) (im : Image) : (s.setImage d im).fab = s.fab := rfl
@[simp] theorem State.setImage_engs (s : State) (d : Nat) (im : Image) : (s.setImage d im).engs = s.engs := rfl
@[simp] theorem State.setImage_ports (s : State) (d : Nat) (im : Image) : (s.setImage d im).ports = s.ports := rfl
@[simp] theorem State.setImage_tasks (s : State) (d : Nat) (im : Image) : (s.setImage d im).tasks = s.tasks := rfl
@[simp] theorem State.setImage_ctxs (s : State) (d : Nat) (im : Image) : (s.setImage d im).ctxs = s.ctxs := rfl
@[simp] theorem State.setImage_routes (s : State) (d : Nat) (im : Image) : (s.setImage d im).routes = s.routes := rfl
@[simp] theorem State.setImage_outer (s : State) (d : Nat) (im : Image) : (s.setImage d im).outer = s.outer := rfl

/-! ### `modMem` -/

@[simp] theorem State.modMem_cycle (s : State) (f : Mem → Mem) : (s.modMem f).cycle = s.cycle := rfl
@[simp] theorem State.modMem_serial (s : State) (f : Mem → Mem) : (s.modMem f).serial = s.serial := rfl
@[simp] theorem State.modMem_agenda (s : State) (f : Mem → Mem) : (s.modMem f).agenda = s.agenda := rfl
@[simp] theorem State.modMem_inputs (s : State) (f : Mem → Mem) : (s.modMem f).inputs = s.inputs := rfl
@[simp] theorem State.modMem_focus (s : State) (f : Mem → Mem) : (s.modMem f).focus = s.focus := rfl
@[simp] theorem State.modMem_seqs (s : State) (f : Mem → Mem) : (s.modMem f).seqs = s.seqs := rfl
@[simp] theorem State.modMem_fab (s : State) (f : Mem → Mem) : (s.modMem f).fab = s.fab := rfl
@[simp] theorem State.modMem_engs (s : State) (f : Mem → Mem) : (s.modMem f).engs = s.engs := rfl
@[simp] theorem State.modMem_ports (s : State) (f : Mem → Mem) : (s.modMem f).ports = s.ports := rfl
@[simp] theorem State.modMem_tasks (s : State) (f : Mem → Mem) : (s.modMem f).tasks = s.tasks := rfl
@[simp] theorem State.modMem_ctxs (s : State) (f : Mem → Mem) : (s.modMem f).ctxs = s.ctxs := rfl
@[simp] theorem State.modMem_routes (s : State) (f : Mem → Mem) : (s.modMem f).routes = s.routes := rfl
@[simp] theorem State.modMem_outer (s : State) (f : Mem → Mem) : (s.modMem f).outer = s.outer := rfl

/-! ### `setElem` -/

@[simp] theorem State.setElem_cycle (s : State) (e : ElemId) (v : Elem) : (s.setElem e v).cycle = s.cycle := rfl
@[simp] theorem State.setElem_serial (s : State) (e : ElemId) (v : Elem) : (s.setElem e v).serial = s.serial := rfl
@[simp] theorem State.setElem_agenda (s : State) (e : ElemId) (v : Elem) : (s.setElem e v).agenda = s.agenda := rfl
@[simp] theorem State.setElem_inputs (s : State) (e : ElemId) (v : Elem) : (s.setElem e v).inputs = s.inputs := rfl
@[simp] theorem State.setElem_focus (s : State) (e : ElemId) (v : Elem) : (s.setElem e v).focus = s.focus := rfl
@[simp] theorem State.setElem_mem (s : State) (e : ElemId) (v : Elem) : (s.setElem e v).mem = s.mem := rfl
@[simp] theorem State.setElem_seqs (s : State) (e : ElemId) (v : Elem) : (s.setElem e v).seqs = s.seqs := rfl
@[simp] theorem State.setElem_engs (s : State) (e : ElemId) (v : Elem) : (s.setElem e v).engs = s.engs := rfl
@[simp] theorem State.setElem_ports (s : State) (e : ElemId) (v : Elem) : (s.setElem e v).ports = s.ports := rfl
@[simp] theorem State.setElem_tasks (s : State) (e : ElemId) (v : Elem) : (s.setElem e v).tasks = s.tasks := rfl
@[simp] theorem State.setElem_ctxs (s : State) (e : ElemId) (v : Elem) : (s.setElem e v).ctxs = s.ctxs := rfl
@[simp] theorem State.setElem_routes (s : State) (e : ElemId) (v : Elem) : (s.setElem e v).routes = s.routes := rfl
@[simp] theorem State.setElem_outer (s : State) (e : ElemId) (v : Elem) : (s.setElem e v).outer = s.outer := rfl

/-! ### `modElem` -/

@[simp] theorem State.modElem_cycle (s : State) (e : ElemId) (f : Elem → Elem) : (s.modElem e f).cycle = s.cycle := rfl
@[simp] theorem State.modElem_serial (s : State) (e : ElemId) (f : Elem → Elem) : (s.modElem e f).serial = s.serial := rfl
@[simp] theorem State.modElem_agenda (s : State) (e : ElemId) (f : Elem → Elem) : (s.modElem e f).agenda = s.agenda := rfl
@[simp] theorem State.modElem_inputs (s : State) (e : ElemId) (f : Elem → Elem) : (s.modElem e f).inputs = s.inputs := rfl
@[simp] theorem State.modElem_focus (s : State) (e : ElemId) (f : Elem → Elem) : (s.modElem e f).focus = s.focus := rfl
@[simp] theorem State.modElem_mem (s : State) (e : ElemId) (f : Elem → Elem) : (s.modElem e f).mem = s.mem := rfl
@[simp] theorem State.modElem_seqs (s : State) (e : ElemId) (f : Elem → Elem) : (s.modElem e f).seqs = s.seqs := rfl
@[simp] theorem State.modElem_engs (s : State) (e : ElemId) (f : Elem → Elem) : (s.modElem e f).engs = s.engs := rfl
@[simp] theorem State.modElem_ports (s : State) (e : ElemId) (f : Elem → Elem) : (s.modElem e f).ports = s.ports := rfl
@[simp] theorem State.modElem_tasks (s : State) (e : ElemId) (f : Elem → Elem) : (s.modElem e f).tasks = s.tasks := rfl
@[simp] theorem State.modElem_ctxs (s : State) (e : ElemId) (f : Elem → Elem) : (s.modElem e f).ctxs = s.ctxs := rfl
@[simp] theorem State.modElem_routes (s : State) (e : ElemId) (f : Elem → Elem) : (s.modElem e f).routes = s.routes := rfl
@[simp] theorem State.modElem_outer (s : State) (e : ElemId) (f : Elem → Elem) : (s.modElem e f).outer = s.outer := rfl

/-! ### `modFly` -/

@[simp] theorem State.modFly_cycle (s : State) (e : ElemId) (c : Nat) (g : InFlight → InFlight) : (s.modFly e c g).cycle = s.cycle := rfl
@[simp] theorem State.modFly_serial (s : State) (e : ElemId) (c : Nat) (g : InFlight → InFlight) : (s.modFly e c g).serial = s.serial := rfl
@[simp] theorem State.modFly_agenda (s : State) (e : ElemId) (c : Nat) (g : InFlight → InFlight) : (s.modFly e c g).agenda = s.agenda := rfl
@[simp] theorem State.modFly_inputs (s : State) (e : ElemId) (c : Nat) (g : InFlight → InFlight) : (s.modFly e c g).inputs = s.inputs := rfl
@[simp] theorem State.modFly_focus (s : State) (e : ElemId) (c : Nat) (g : InFlight → InFlight) : (s.modFly e c g).focus = s.focus := rfl
@[simp] theorem State.modFly_mem (s : State) (e : ElemId) (c : Nat) (g : InFlight → InFlight) : (s.modFly e c g).mem = s.mem := rfl
@[simp] theorem State.modFly_seqs (s : State) (e : ElemId) (c : Nat) (g : InFlight → InFlight) : (s.modFly e c g).seqs = s.seqs := rfl
@[simp] theorem State.modFly_engs (s : State) (e : ElemId) (c : Nat) (g : InFlight → InFlight) : (s.modFly e c g).engs = s.engs := rfl
@[simp] theorem State.modFly_ports (s : State) (e : ElemId) (c : Nat) (g : InFlight → InFlight) : (s.modFly e c g).ports = s.ports := rfl
@[simp] theorem State.modFly_tasks (s : State) (e : ElemId) (c : Nat) (g : InFlight → InFlight) : (s.modFly e c g).tasks = s.tasks := rfl
@[simp] theorem State.modFly_ctxs (s : State) (e : ElemId) (c : Nat) (g : InFlight → InFlight) : (s.modFly e c g).ctxs = s.ctxs := rfl
@[simp] theorem State.modFly_routes (s : State) (e : ElemId) (c : Nat) (g : InFlight → InFlight) : (s.modFly e c g).routes = s.routes := rfl
@[simp] theorem State.modFly_outer (s : State) (e : ElemId) (c : Nat) (g : InFlight → InFlight) : (s.modFly e c g).outer = s.outer := rfl

/-! ### `settle` -/

@[simp] theorem State.settle_cycle (s : State) (e : ElemId) (c l : Nat) (g : InFlight → InFlight) : (s.settle e c l g).cycle = s.cycle := rfl
@[simp] theorem State.settle_serial (s : State) (e : ElemId) (c l : Nat) (g : InFlight → InFlight) : (s.settle e c l g).serial = s.serial := rfl
@[simp] theorem State.settle_agenda (s : State) (e : ElemId) (c l : Nat) (g : InFlight → InFlight) : (s.settle e c l g).agenda = s.agenda := rfl
@[simp] theorem State.settle_inputs (s : State) (e : ElemId) (c l : Nat) (g : InFlight → InFlight) : (s.settle e c l g).inputs = s.inputs := rfl
@[simp] theorem State.settle_focus (s : State) (e : ElemId) (c l : Nat) (g : InFlight → InFlight) : (s.settle e c l g).focus = s.focus := rfl
@[simp] theorem State.settle_mem (s : State) (e : ElemId) (c l : Nat) (g : InFlight → InFlight) : (s.settle e c l g).mem = s.mem := rfl
@[simp] theorem State.settle_seqs (s : State) (e : ElemId) (c l : Nat) (g : InFlight → InFlight) : (s.settle e c l g).seqs = s.seqs := rfl
@[simp] theorem State.settle_engs (s : State) (e : ElemId) (c l : Nat) (g : InFlight → InFlight) : (s.settle e c l g).engs = s.engs := rfl
@[simp] theorem State.settle_ports (s : State) (e : ElemId) (c l : Nat) (g : InFlight → InFlight) : (s.settle e c l g).ports = s.ports := rfl
@[simp] theorem State.settle_tasks (s : State) (e : ElemId) (c l : Nat) (g : InFlight → InFlight) : (s.settle e c l g).tasks = s.tasks := rfl
@[simp] theorem State.settle_ctxs (s : State) (e : ElemId) (c l : Nat) (g : InFlight → InFlight) : (s.settle e c l g).ctxs = s.ctxs := rfl
@[simp] theorem State.settle_routes (s : State) (e : ElemId) (c l : Nat) (g : InFlight → InFlight) : (s.settle e c l g).routes = s.routes := rfl
@[simp] theorem State.settle_outer (s : State) (e : ElemId) (c l : Nat) (g : InFlight → InFlight) : (s.settle e c l g).outer = s.outer := rfl

/-! ### `await` -/

@[simp] theorem State.await_cycle (s : State) (e : ElemId) (c : Nat) (w : Waiting) (due : Nat) : (s.await e c w due).cycle = s.cycle := rfl
@[simp] theorem State.await_serial (s : State) (e : ElemId) (c : Nat) (w : Waiting) (due : Nat) : (s.await e c w due).serial = s.serial := rfl
@[simp] theorem State.await_agenda (s : State) (e : ElemId) (c : Nat) (w : Waiting) (due : Nat) : (s.await e c w due).agenda = s.agenda := rfl
@[simp] theorem State.await_inputs (s : State) (e : ElemId) (c : Nat) (w : Waiting) (due : Nat) : (s.await e c w due).inputs = s.inputs := rfl
@[simp] theorem State.await_focus (s : State) (e : ElemId) (c : Nat) (w : Waiting) (due : Nat) : (s.await e c w due).focus = s.focus := rfl
@[simp] theorem State.await_mem (s : State) (e : ElemId) (c : Nat) (w : Waiting) (due : Nat) : (s.await e c w due).mem = s.mem := rfl
@[simp] theorem State.await_seqs (s : State) (e : ElemId) (c : Nat) (w : Waiting) (due : Nat) : (s.await e c w due).seqs = s.seqs := rfl
@[simp] theorem State.await_engs (s : State) (e : ElemId) (c : Nat) (w : Waiting) (due : Nat) : (s.await e c w due).engs = s.engs := rfl
@[simp] theorem State.await_ports (s : State) (e : ElemId) (c : Nat) (w : Waiting) (due : Nat) : (s.await e c w due).ports = s.ports := rfl
@[simp] theorem State.await_tasks (s : State) (e : ElemId) (c : Nat) (w : Waiting) (due : Nat) : (s.await e c w due).tasks = s.tasks := rfl
@[simp] theorem State.await_ctxs (s : State) (e : ElemId) (c : Nat) (w : Waiting) (due : Nat) : (s.await e c w due).ctxs = s.ctxs := rfl
@[simp] theorem State.await_routes (s : State) (e : ElemId) (c : Nat) (w : Waiting) (due : Nat) : (s.await e c w due).routes = s.routes := rfl
@[simp] theorem State.await_outer (s : State) (e : ElemId) (c : Nat) (w : Waiting) (due : Nat) : (s.await e c w due).outer = s.outer := rfl

/-! ### `fire` -/

@[simp] theorem State.fire_cycle (s : State) (d : Dst) (l : List Src) (fly : InFlight) : (s.fire d l fly).cycle = s.cycle := rfl
@[simp] theorem State.fire_serial (s : State) (d : Dst) (l : List Src) (fly : InFlight) : (s.fire d l fly).serial = s.serial := rfl
@[simp] theorem State.fire_agenda (s : State) (d : Dst) (l : List Src) (fly : InFlight) : (s.fire d l fly).agenda = s.agenda := rfl
@[simp] theorem State.fire_inputs (s : State) (d : Dst) (l : List Src) (fly : InFlight) : (s.fire d l fly).inputs = s.inputs := rfl
@[simp] theorem State.fire_focus (s : State) (d : Dst) (l : List Src) (fly : InFlight) : (s.fire d l fly).focus = s.focus := rfl
@[simp] theorem State.fire_mem (s : State) (d : Dst) (l : List Src) (fly : InFlight) : (s.fire d l fly).mem = s.mem := rfl
@[simp] theorem State.fire_seqs (s : State) (d : Dst) (l : List Src) (fly : InFlight) : (s.fire d l fly).seqs = s.seqs := rfl
@[simp] theorem State.fire_engs (s : State) (d : Dst) (l : List Src) (fly : InFlight) : (s.fire d l fly).engs = s.engs := rfl
@[simp] theorem State.fire_ports (s : State) (d : Dst) (l : List Src) (fly : InFlight) : (s.fire d l fly).ports = s.ports := rfl
@[simp] theorem State.fire_tasks (s : State) (d : Dst) (l : List Src) (fly : InFlight) : (s.fire d l fly).tasks = s.tasks := rfl
@[simp] theorem State.fire_ctxs (s : State) (d : Dst) (l : List Src) (fly : InFlight) : (s.fire d l fly).ctxs = s.ctxs := rfl
@[simp] theorem State.fire_routes (s : State) (d : Dst) (l : List Src) (fly : InFlight) : (s.fire d l fly).routes = s.routes := rfl
@[simp] theorem State.fire_outer (s : State) (d : Dst) (l : List Src) (fly : InFlight) : (s.fire d l fly).outer = s.outer := rfl

/-! ### `sendRow` -/

@[simp] theorem State.sendRow_cycle (s : State) (e : ElemId) (src : Nat) (ctl : Bool) (l : RowLoad) (b : Nat) (fr : Option Nat) (k : Option Clock) (lvl : Nat) : (s.sendRow e src ctl l b fr k lvl).cycle = s.cycle := rfl
@[simp] theorem State.sendRow_agenda (s : State) (e : ElemId) (src : Nat) (ctl : Bool) (l : RowLoad) (b : Nat) (fr : Option Nat) (k : Option Clock) (lvl : Nat) : (s.sendRow e src ctl l b fr k lvl).agenda = s.agenda := rfl
@[simp] theorem State.sendRow_inputs (s : State) (e : ElemId) (src : Nat) (ctl : Bool) (l : RowLoad) (b : Nat) (fr : Option Nat) (k : Option Clock) (lvl : Nat) : (s.sendRow e src ctl l b fr k lvl).inputs = s.inputs := rfl
@[simp] theorem State.sendRow_focus (s : State) (e : ElemId) (src : Nat) (ctl : Bool) (l : RowLoad) (b : Nat) (fr : Option Nat) (k : Option Clock) (lvl : Nat) : (s.sendRow e src ctl l b fr k lvl).focus = s.focus := rfl
@[simp] theorem State.sendRow_mem (s : State) (e : ElemId) (src : Nat) (ctl : Bool) (l : RowLoad) (b : Nat) (fr : Option Nat) (k : Option Clock) (lvl : Nat) : (s.sendRow e src ctl l b fr k lvl).mem = s.mem := rfl
@[simp] theorem State.sendRow_seqs (s : State) (e : ElemId) (src : Nat) (ctl : Bool) (l : RowLoad) (b : Nat) (fr : Option Nat) (k : Option Clock) (lvl : Nat) : (s.sendRow e src ctl l b fr k lvl).seqs = s.seqs := rfl
@[simp] theorem State.sendRow_engs (s : State) (e : ElemId) (src : Nat) (ctl : Bool) (l : RowLoad) (b : Nat) (fr : Option Nat) (k : Option Clock) (lvl : Nat) : (s.sendRow e src ctl l b fr k lvl).engs = s.engs := rfl
@[simp] theorem State.sendRow_ports (s : State) (e : ElemId) (src : Nat) (ctl : Bool) (l : RowLoad) (b : Nat) (fr : Option Nat) (k : Option Clock) (lvl : Nat) : (s.sendRow e src ctl l b fr k lvl).ports = s.ports := rfl
@[simp] theorem State.sendRow_tasks (s : State) (e : ElemId) (src : Nat) (ctl : Bool) (l : RowLoad) (b : Nat) (fr : Option Nat) (k : Option Clock) (lvl : Nat) : (s.sendRow e src ctl l b fr k lvl).tasks = s.tasks := rfl
@[simp] theorem State.sendRow_ctxs (s : State) (e : ElemId) (src : Nat) (ctl : Bool) (l : RowLoad) (b : Nat) (fr : Option Nat) (k : Option Clock) (lvl : Nat) : (s.sendRow e src ctl l b fr k lvl).ctxs = s.ctxs := rfl
@[simp] theorem State.sendRow_routes (s : State) (e : ElemId) (src : Nat) (ctl : Bool) (l : RowLoad) (b : Nat) (fr : Option Nat) (k : Option Clock) (lvl : Nat) : (s.sendRow e src ctl l b fr k lvl).routes = s.routes := rfl
@[simp] theorem State.sendRow_outer (s : State) (e : ElemId) (src : Nat) (ctl : Bool) (l : RowLoad) (b : Nat) (fr : Option Nat) (k : Option Clock) (lvl : Nat) : (s.sendRow e src ctl l b fr k lvl).outer = s.outer := rfl

/-! ### `modRegion` -/

@[simp] theorem State.modRegion_cycle (s : State) (id : Nat) (f : Region → Region) : (s.modRegion id f).cycle = s.cycle := rfl
@[simp] theorem State.modRegion_serial (s : State) (id : Nat) (f : Region → Region) : (s.modRegion id f).serial = s.serial := rfl
@[simp] theorem State.modRegion_agenda (s : State) (id : Nat) (f : Region → Region) : (s.modRegion id f).agenda = s.agenda := rfl
@[simp] theorem State.modRegion_inputs (s : State) (id : Nat) (f : Region → Region) : (s.modRegion id f).inputs = s.inputs := rfl
@[simp] theorem State.modRegion_focus (s : State) (id : Nat) (f : Region → Region) : (s.modRegion id f).focus = s.focus := rfl
@[simp] theorem State.modRegion_mem (s : State) (id : Nat) (f : Region → Region) : (s.modRegion id f).mem = s.mem := rfl
@[simp] theorem State.modRegion_seqs (s : State) (id : Nat) (f : Region → Region) : (s.modRegion id f).seqs = s.seqs := rfl
@[simp] theorem State.modRegion_fab (s : State) (id : Nat) (f : Region → Region) : (s.modRegion id f).fab = s.fab := rfl
@[simp] theorem State.modRegion_engs (s : State) (id : Nat) (f : Region → Region) : (s.modRegion id f).engs = s.engs := rfl
@[simp] theorem State.modRegion_ports (s : State) (id : Nat) (f : Region → Region) : (s.modRegion id f).ports = s.ports := rfl
@[simp] theorem State.modRegion_ctxs (s : State) (id : Nat) (f : Region → Region) : (s.modRegion id f).ctxs = s.ctxs := rfl
@[simp] theorem State.modRegion_routes (s : State) (id : Nat) (f : Region → Region) : (s.modRegion id f).routes = s.routes := rfl
@[simp] theorem State.modRegion_outer (s : State) (id : Nat) (f : Region → Region) : (s.modRegion id f).outer = s.outer := rfl

/-! ### `modTask` -/

@[simp] theorem State.modTask_cycle (s : State) (no : Nat) (f : Task → Task) : (s.modTask no f).cycle = s.cycle := rfl
@[simp] theorem State.modTask_serial (s : State) (no : Nat) (f : Task → Task) : (s.modTask no f).serial = s.serial := rfl
@[simp] theorem State.modTask_agenda (s : State) (no : Nat) (f : Task → Task) : (s.modTask no f).agenda = s.agenda := rfl
@[simp] theorem State.modTask_inputs (s : State) (no : Nat) (f : Task → Task) : (s.modTask no f).inputs = s.inputs := rfl
@[simp] theorem State.modTask_focus (s : State) (no : Nat) (f : Task → Task) : (s.modTask no f).focus = s.focus := rfl
@[simp] theorem State.modTask_mem (s : State) (no : Nat) (f : Task → Task) : (s.modTask no f).mem = s.mem := rfl
@[simp] theorem State.modTask_seqs (s : State) (no : Nat) (f : Task → Task) : (s.modTask no f).seqs = s.seqs := rfl
@[simp] theorem State.modTask_fab (s : State) (no : Nat) (f : Task → Task) : (s.modTask no f).fab = s.fab := rfl
@[simp] theorem State.modTask_engs (s : State) (no : Nat) (f : Task → Task) : (s.modTask no f).engs = s.engs := rfl
@[simp] theorem State.modTask_ports (s : State) (no : Nat) (f : Task → Task) : (s.modTask no f).ports = s.ports := rfl
@[simp] theorem State.modTask_ctxs (s : State) (no : Nat) (f : Task → Task) : (s.modTask no f).ctxs = s.ctxs := rfl
@[simp] theorem State.modTask_routes (s : State) (no : Nat) (f : Task → Task) : (s.modTask no f).routes = s.routes := rfl
@[simp] theorem State.modTask_outer (s : State) (no : Nat) (f : Task → Task) : (s.modTask no f).outer = s.outer := rfl

/-! ### `modGroup` -/

@[simp] theorem State.modGroup_cycle (s : State) (id : Nat) (f : Group → Group) : (s.modGroup id f).cycle = s.cycle := rfl
@[simp] theorem State.modGroup_serial (s : State) (id : Nat) (f : Group → Group) : (s.modGroup id f).serial = s.serial := rfl
@[simp] theorem State.modGroup_agenda (s : State) (id : Nat) (f : Group → Group) : (s.modGroup id f).agenda = s.agenda := rfl
@[simp] theorem State.modGroup_inputs (s : State) (id : Nat) (f : Group → Group) : (s.modGroup id f).inputs = s.inputs := rfl
@[simp] theorem State.modGroup_focus (s : State) (id : Nat) (f : Group → Group) : (s.modGroup id f).focus = s.focus := rfl
@[simp] theorem State.modGroup_mem (s : State) (id : Nat) (f : Group → Group) : (s.modGroup id f).mem = s.mem := rfl
@[simp] theorem State.modGroup_seqs (s : State) (id : Nat) (f : Group → Group) : (s.modGroup id f).seqs = s.seqs := rfl
@[simp] theorem State.modGroup_fab (s : State) (id : Nat) (f : Group → Group) : (s.modGroup id f).fab = s.fab := rfl
@[simp] theorem State.modGroup_engs (s : State) (id : Nat) (f : Group → Group) : (s.modGroup id f).engs = s.engs := rfl
@[simp] theorem State.modGroup_ports (s : State) (id : Nat) (f : Group → Group) : (s.modGroup id f).ports = s.ports := rfl
@[simp] theorem State.modGroup_ctxs (s : State) (id : Nat) (f : Group → Group) : (s.modGroup id f).ctxs = s.ctxs := rfl
@[simp] theorem State.modGroup_routes (s : State) (id : Nat) (f : Group → Group) : (s.modGroup id f).routes = s.routes := rfl
@[simp] theorem State.modGroup_outer (s : State) (id : Nat) (f : Group → Group) : (s.modGroup id f).outer = s.outer := rfl

/-! ### `setDisp` -/

@[simp] theorem State.setDisp_cycle (s : State) (x : Dispatcher) : (s.setDisp x).cycle = s.cycle := rfl
@[simp] theorem State.setDisp_serial (s : State) (x : Dispatcher) : (s.setDisp x).serial = s.serial := rfl
@[simp] theorem State.setDisp_agenda (s : State) (x : Dispatcher) : (s.setDisp x).agenda = s.agenda := rfl
@[simp] theorem State.setDisp_inputs (s : State) (x : Dispatcher) : (s.setDisp x).inputs = s.inputs := rfl
@[simp] theorem State.setDisp_focus (s : State) (x : Dispatcher) : (s.setDisp x).focus = s.focus := rfl
@[simp] theorem State.setDisp_mem (s : State) (x : Dispatcher) : (s.setDisp x).mem = s.mem := rfl
@[simp] theorem State.setDisp_seqs (s : State) (x : Dispatcher) : (s.setDisp x).seqs = s.seqs := rfl
@[simp] theorem State.setDisp_fab (s : State) (x : Dispatcher) : (s.setDisp x).fab = s.fab := rfl
@[simp] theorem State.setDisp_engs (s : State) (x : Dispatcher) : (s.setDisp x).engs = s.engs := rfl
@[simp] theorem State.setDisp_ports (s : State) (x : Dispatcher) : (s.setDisp x).ports = s.ports := rfl
@[simp] theorem State.setDisp_ctxs (s : State) (x : Dispatcher) : (s.setDisp x).ctxs = s.ctxs := rfl
@[simp] theorem State.setDisp_routes (s : State) (x : Dispatcher) : (s.setDisp x).routes = s.routes := rfl
@[simp] theorem State.setDisp_outer (s : State) (x : Dispatcher) : (s.setDisp x).outer = s.outer := rfl

/-! ### `postFor` -/

@[simp] theorem State.postFor_cycle (s : State) (cmd : Nat) (ctx : BitVec 10) (die : Nat) (asid : BitVec 16) (w : List Word) : (s.postFor cmd ctx die asid w).cycle = s.cycle := rfl
@[simp] theorem State.postFor_serial (s : State) (cmd : Nat) (ctx : BitVec 10) (die : Nat) (asid : BitVec 16) (w : List Word) : (s.postFor cmd ctx die asid w).serial = s.serial := rfl
@[simp] theorem State.postFor_agenda (s : State) (cmd : Nat) (ctx : BitVec 10) (die : Nat) (asid : BitVec 16) (w : List Word) : (s.postFor cmd ctx die asid w).agenda = s.agenda := rfl
@[simp] theorem State.postFor_inputs (s : State) (cmd : Nat) (ctx : BitVec 10) (die : Nat) (asid : BitVec 16) (w : List Word) : (s.postFor cmd ctx die asid w).inputs = s.inputs := rfl
@[simp] theorem State.postFor_focus (s : State) (cmd : Nat) (ctx : BitVec 10) (die : Nat) (asid : BitVec 16) (w : List Word) : (s.postFor cmd ctx die asid w).focus = s.focus := rfl
@[simp] theorem State.postFor_mem (s : State) (cmd : Nat) (ctx : BitVec 10) (die : Nat) (asid : BitVec 16) (w : List Word) : (s.postFor cmd ctx die asid w).mem = s.mem := rfl
@[simp] theorem State.postFor_seqs (s : State) (cmd : Nat) (ctx : BitVec 10) (die : Nat) (asid : BitVec 16) (w : List Word) : (s.postFor cmd ctx die asid w).seqs = s.seqs := rfl
@[simp] theorem State.postFor_fab (s : State) (cmd : Nat) (ctx : BitVec 10) (die : Nat) (asid : BitVec 16) (w : List Word) : (s.postFor cmd ctx die asid w).fab = s.fab := rfl
@[simp] theorem State.postFor_engs (s : State) (cmd : Nat) (ctx : BitVec 10) (die : Nat) (asid : BitVec 16) (w : List Word) : (s.postFor cmd ctx die asid w).engs = s.engs := rfl
@[simp] theorem State.postFor_ports (s : State) (cmd : Nat) (ctx : BitVec 10) (die : Nat) (asid : BitVec 16) (w : List Word) : (s.postFor cmd ctx die asid w).ports = s.ports := rfl
@[simp] theorem State.postFor_tasks (s : State) (cmd : Nat) (ctx : BitVec 10) (die : Nat) (asid : BitVec 16) (w : List Word) : (s.postFor cmd ctx die asid w).tasks = s.tasks := rfl
@[simp] theorem State.postFor_routes (s : State) (cmd : Nat) (ctx : BitVec 10) (die : Nat) (asid : BitVec 16) (w : List Word) : (s.postFor cmd ctx die asid w).routes = s.routes := rfl
@[simp] theorem State.postFor_outer (s : State) (cmd : Nat) (ctx : BitVec 10) (die : Nat) (asid : BitVec 16) (w : List Word) : (s.postFor cmd ctx die asid w).outer = s.outer := rfl

/-! ### `post` -/

@[simp] theorem State.post_cycle (s : State) (ctx : BitVec 10) (die : Nat) (asid : BitVec 16) (w : List Word) : (s.post ctx die asid w).cycle = s.cycle := rfl
@[simp] theorem State.post_serial (s : State) (ctx : BitVec 10) (die : Nat) (asid : BitVec 16) (w : List Word) : (s.post ctx die asid w).serial = s.serial := rfl
@[simp] theorem State.post_agenda (s : State) (ctx : BitVec 10) (die : Nat) (asid : BitVec 16) (w : List Word) : (s.post ctx die asid w).agenda = s.agenda := rfl
@[simp] theorem State.post_inputs (s : State) (ctx : BitVec 10) (die : Nat) (asid : BitVec 16) (w : List Word) : (s.post ctx die asid w).inputs = s.inputs := rfl
@[simp] theorem State.post_focus (s : State) (ctx : BitVec 10) (die : Nat) (asid : BitVec 16) (w : List Word) : (s.post ctx die asid w).focus = s.focus := rfl
@[simp] theorem State.post_mem (s : State) (ctx : BitVec 10) (die : Nat) (asid : BitVec 16) (w : List Word) : (s.post ctx die asid w).mem = s.mem := rfl
@[simp] theorem State.post_seqs (s : State) (ctx : BitVec 10) (die : Nat) (asid : BitVec 16) (w : List Word) : (s.post ctx die asid w).seqs = s.seqs := rfl
@[simp] theorem State.post_fab (s : State) (ctx : BitVec 10) (die : Nat) (asid : BitVec 16) (w : List Word) : (s.post ctx die asid w).fab = s.fab := rfl
@[simp] theorem State.post_engs (s : State) (ctx : BitVec 10) (die : Nat) (asid : BitVec 16) (w : List Word) : (s.post ctx die asid w).engs = s.engs := rfl
@[simp] theorem State.post_ports (s : State) (ctx : BitVec 10) (die : Nat) (asid : BitVec 16) (w : List Word) : (s.post ctx die asid w).ports = s.ports := rfl
@[simp] theorem State.post_tasks (s : State) (ctx : BitVec 10) (die : Nat) (asid : BitVec 16) (w : List Word) : (s.post ctx die asid w).tasks = s.tasks := rfl
@[simp] theorem State.post_routes (s : State) (ctx : BitVec 10) (die : Nat) (asid : BitVec 16) (w : List Word) : (s.post ctx die asid w).routes = s.routes := rfl
@[simp] theorem State.post_outer (s : State) (ctx : BitVec 10) (die : Nat) (asid : BitVec 16) (w : List Word) : (s.post ctx die asid w).outer = s.outer := rfl

/-! ### `postHost` -/

@[simp] theorem State.postHost_cycle (s : State) (w : List Word) : (s.postHost w).cycle = s.cycle := rfl
@[simp] theorem State.postHost_serial (s : State) (w : List Word) : (s.postHost w).serial = s.serial := rfl
@[simp] theorem State.postHost_agenda (s : State) (w : List Word) : (s.postHost w).agenda = s.agenda := rfl
@[simp] theorem State.postHost_inputs (s : State) (w : List Word) : (s.postHost w).inputs = s.inputs := rfl
@[simp] theorem State.postHost_focus (s : State) (w : List Word) : (s.postHost w).focus = s.focus := rfl
@[simp] theorem State.postHost_mem (s : State) (w : List Word) : (s.postHost w).mem = s.mem := rfl
@[simp] theorem State.postHost_seqs (s : State) (w : List Word) : (s.postHost w).seqs = s.seqs := rfl
@[simp] theorem State.postHost_fab (s : State) (w : List Word) : (s.postHost w).fab = s.fab := rfl
@[simp] theorem State.postHost_engs (s : State) (w : List Word) : (s.postHost w).engs = s.engs := rfl
@[simp] theorem State.postHost_ports (s : State) (w : List Word) : (s.postHost w).ports = s.ports := rfl
@[simp] theorem State.postHost_tasks (s : State) (w : List Word) : (s.postHost w).tasks = s.tasks := rfl
@[simp] theorem State.postHost_ctxs (s : State) (w : List Word) : (s.postHost w).ctxs = s.ctxs := rfl
@[simp] theorem State.postHost_routes (s : State) (w : List Word) : (s.postHost w).routes = s.routes := rfl

/-! ### `setLink` -/

@[simp] theorem State.setLink_cycle (s : State) (l : Link) : (s.setLink l).cycle = s.cycle := rfl
@[simp] theorem State.setLink_serial (s : State) (l : Link) : (s.setLink l).serial = s.serial := rfl
@[simp] theorem State.setLink_agenda (s : State) (l : Link) : (s.setLink l).agenda = s.agenda := rfl
@[simp] theorem State.setLink_inputs (s : State) (l : Link) : (s.setLink l).inputs = s.inputs := rfl
@[simp] theorem State.setLink_focus (s : State) (l : Link) : (s.setLink l).focus = s.focus := rfl
@[simp] theorem State.setLink_mem (s : State) (l : Link) : (s.setLink l).mem = s.mem := rfl
@[simp] theorem State.setLink_seqs (s : State) (l : Link) : (s.setLink l).seqs = s.seqs := rfl
@[simp] theorem State.setLink_fab (s : State) (l : Link) : (s.setLink l).fab = s.fab := rfl
@[simp] theorem State.setLink_engs (s : State) (l : Link) : (s.setLink l).engs = s.engs := rfl
@[simp] theorem State.setLink_ports (s : State) (l : Link) : (s.setLink l).ports = s.ports := rfl
@[simp] theorem State.setLink_tasks (s : State) (l : Link) : (s.setLink l).tasks = s.tasks := rfl
@[simp] theorem State.setLink_ctxs (s : State) (l : Link) : (s.setLink l).ctxs = s.ctxs := rfl
@[simp] theorem State.setLink_routes (s : State) (l : Link) : (s.setLink l).routes = s.routes := rfl

/-! ### `modMgmt` -/

@[simp] theorem State.modMgmt_cycle (s : State) (f : Mgmt → Mgmt) : (s.modMgmt f).cycle = s.cycle := rfl
@[simp] theorem State.modMgmt_serial (s : State) (f : Mgmt → Mgmt) : (s.modMgmt f).serial = s.serial := rfl
@[simp] theorem State.modMgmt_agenda (s : State) (f : Mgmt → Mgmt) : (s.modMgmt f).agenda = s.agenda := rfl
@[simp] theorem State.modMgmt_inputs (s : State) (f : Mgmt → Mgmt) : (s.modMgmt f).inputs = s.inputs := rfl
@[simp] theorem State.modMgmt_focus (s : State) (f : Mgmt → Mgmt) : (s.modMgmt f).focus = s.focus := rfl
@[simp] theorem State.modMgmt_mem (s : State) (f : Mgmt → Mgmt) : (s.modMgmt f).mem = s.mem := rfl
@[simp] theorem State.modMgmt_seqs (s : State) (f : Mgmt → Mgmt) : (s.modMgmt f).seqs = s.seqs := rfl
@[simp] theorem State.modMgmt_fab (s : State) (f : Mgmt → Mgmt) : (s.modMgmt f).fab = s.fab := rfl
@[simp] theorem State.modMgmt_engs (s : State) (f : Mgmt → Mgmt) : (s.modMgmt f).engs = s.engs := rfl
@[simp] theorem State.modMgmt_ports (s : State) (f : Mgmt → Mgmt) : (s.modMgmt f).ports = s.ports := rfl
@[simp] theorem State.modMgmt_tasks (s : State) (f : Mgmt → Mgmt) : (s.modMgmt f).tasks = s.tasks := rfl
@[simp] theorem State.modMgmt_ctxs (s : State) (f : Mgmt → Mgmt) : (s.modMgmt f).ctxs = s.ctxs := rfl
@[simp] theorem State.modMgmt_routes (s : State) (f : Mgmt → Mgmt) : (s.modMgmt f).routes = s.routes := rfl

/-! ### `setMasks` -/

@[simp] theorem State.setMasks_cycle (s : State) (d : Nat) (m : BitVec 16) : (s.setMasks d m).cycle = s.cycle := rfl
@[simp] theorem State.setMasks_serial (s : State) (d : Nat) (m : BitVec 16) : (s.setMasks d m).serial = s.serial := rfl
@[simp] theorem State.setMasks_agenda (s : State) (d : Nat) (m : BitVec 16) : (s.setMasks d m).agenda = s.agenda := rfl
@[simp] theorem State.setMasks_inputs (s : State) (d : Nat) (m : BitVec 16) : (s.setMasks d m).inputs = s.inputs := rfl
@[simp] theorem State.setMasks_focus (s : State) (d : Nat) (m : BitVec 16) : (s.setMasks d m).focus = s.focus := rfl
@[simp] theorem State.setMasks_mem (s : State) (d : Nat) (m : BitVec 16) : (s.setMasks d m).mem = s.mem := rfl
@[simp] theorem State.setMasks_seqs (s : State) (d : Nat) (m : BitVec 16) : (s.setMasks d m).seqs = s.seqs := rfl
@[simp] theorem State.setMasks_fab (s : State) (d : Nat) (m : BitVec 16) : (s.setMasks d m).fab = s.fab := rfl
@[simp] theorem State.setMasks_engs (s : State) (d : Nat) (m : BitVec 16) : (s.setMasks d m).engs = s.engs := rfl
@[simp] theorem State.setMasks_ports (s : State) (d : Nat) (m : BitVec 16) : (s.setMasks d m).ports = s.ports := rfl
@[simp] theorem State.setMasks_tasks (s : State) (d : Nat) (m : BitVec 16) : (s.setMasks d m).tasks = s.tasks := rfl
@[simp] theorem State.setMasks_ctxs (s : State) (d : Nat) (m : BitVec 16) : (s.setMasks d m).ctxs = s.ctxs := rfl
@[simp] theorem State.setMasks_outer (s : State) (d : Nat) (m : BitVec 16) : (s.setMasks d m).outer = s.outer := rfl

/-! ### `acceptPacket` -/

@[simp] theorem State.acceptPacket_cycle (s : State) (c : Nat) (p : List Byte) : (s.acceptPacket c p).cycle = s.cycle := rfl
@[simp] theorem State.acceptPacket_agenda (s : State) (c : Nat) (p : List Byte) : (s.acceptPacket c p).agenda = s.agenda := rfl
@[simp] theorem State.acceptPacket_inputs (s : State) (c : Nat) (p : List Byte) : (s.acceptPacket c p).inputs = s.inputs := rfl
@[simp] theorem State.acceptPacket_focus (s : State) (c : Nat) (p : List Byte) : (s.acceptPacket c p).focus = s.focus := rfl
@[simp] theorem State.acceptPacket_mem (s : State) (c : Nat) (p : List Byte) : (s.acceptPacket c p).mem = s.mem := rfl
@[simp] theorem State.acceptPacket_seqs (s : State) (c : Nat) (p : List Byte) : (s.acceptPacket c p).seqs = s.seqs := rfl
@[simp] theorem State.acceptPacket_fab (s : State) (c : Nat) (p : List Byte) : (s.acceptPacket c p).fab = s.fab := rfl
@[simp] theorem State.acceptPacket_engs (s : State) (c : Nat) (p : List Byte) : (s.acceptPacket c p).engs = s.engs := rfl
@[simp] theorem State.acceptPacket_ports (s : State) (c : Nat) (p : List Byte) : (s.acceptPacket c p).ports = s.ports := rfl
@[simp] theorem State.acceptPacket_tasks (s : State) (c : Nat) (p : List Byte) : (s.acceptPacket c p).tasks = s.tasks := rfl
@[simp] theorem State.acceptPacket_ctxs (s : State) (c : Nat) (p : List Byte) : (s.acceptPacket c p).ctxs = s.ctxs := rfl
@[simp] theorem State.acceptPacket_outer (s : State) (c : Nat) (p : List Byte) : (s.acceptPacket c p).outer = s.outer := rfl

end Sys2Proof.Machine
end

