-- ==== Sys2Proof/Laws/Strand.lean ====
section
/-! SUPPORT. Strands and their registers: what a table gives after an entry is set, what completing an instruction does to
the acting strand and to the others, and when a result of a fixed latency is in its register. -/

namespace Sys2Proof.Machine

/-! ### Tables -/

/-- What a table gives after one entry is set. -/
theorem lookupD_insertD {α : Type} (l : List (Nat × α)) (k j : Nat) (v d : α) :
    lookupD (insertD l k v) j d = if j = k then v else lookupD l j d := by
  induction l with
  | nil => simp only [insertD, lookupD, eq_comm (a := k)]
  | cons p t ih =>
    obtain ⟨i, w⟩ := p
    simp only [insertD]
    split
    · next h => subst h; simp only [lookupD, eq_comm (a := j)]; split <;> rfl
    · next h =>
      split
      · simp only [lookupD, eq_comm (a := k)]
      · simp only [lookupD, ih]
        by_cases e : i = j
        · subst e; simp [h]
        · simp [e]

/-- The strand just set. -/
@[simp] theorem strand_setStrand_same (s : State) (n : Nat) (t : Strand) : (s.setStrand n t).strand n = t := by
  simp [State.strand, State.setStrand, lookupD_insertD]

/-- Every other strand is as before. -/
theorem strand_setStrand_other (s : State) (n m : Nat) (t : Strand) (h : m ≠ n) :
    (s.setStrand n t).strand m = s.strand m := by
  simp [State.strand, State.setStrand, lookupD_insertD, h]

/-- The acting strand just set. -/
@[simp] theorem cur_setCur (s : State) (t : Strand) : (s.setCur t).cur = t := strand_setStrand_same s s.focus.strand t

/-- The strand of a state in which only the strand's table counts. -/
theorem strand_of_seqs {s t : State} (n : Nat) (h : t.seqs.strands = s.seqs.strands) : t.strand n = s.strand n := by
  simp [State.strand, h]

/-! ### Completing an instruction -/

/-- A table whose entries change by a function that keeps the value of an unlisted one. -/
theorem lookupD_map {α : Type} (l : List (Nat × α)) (n : Nat) (d : α) (g : Nat → α → α) (hd : ∀ k, g k d = d) :
    lookupD (l.map fun p => (p.1, g p.1 p.2)) n d = g n (lookupD l n d) := by
  induction l with
  | nil => simp [lookupD, hd]
  | cons p t ih =>
    obtain ⟨k, w⟩ := p
    simp only [List.map_cons, lookupD]
    split
    · next h => subst h; rfl
    · exact ih

/-- What another strand of the core keeps for `yield` when a strand issues (R230). -/
def seenBy (me c n : Nat) (t : Strand) : Strand :=
  if coreOf n = c && n != me then { t with yieldTo := t.yieldTo.map fun y => (y.1, y.2.filter (· != me)) } else t

/-- Issuing changes of a strand at most what it keeps for `yield`. -/
theorem strand_issued (s : State) (q : Issue) (n : Nat) :
    (s.issued q).strand n = seenBy s.focus.strand (coreOf s.focus.strand) n (s.strand n) := by
  have h := lookupD_map s.seqs.strands n Strand.reset (seenBy s.focus.strand (coreOf s.focus.strand))
    (by intro k; unfold seenBy; split <;> rfl)
  show lookupD _ n Strand.reset = _
  refine Eq.trans ?_ h
  congr 1
  apply List.map_congr_left
  intro p _
  unfold seenBy
  split <;> rfl

/-- The acting strand is as it was set. -/
@[simp] theorem cur_issued (s : State) (q : Issue) : (s.issued q).cur = s.cur := by
  show (s.issued q).strand s.focus.strand = _
  rw [strand_issued]; simp [seenBy, State.cur]

/-- The acting strand after an instruction that goes on to the next (R185, R207). -/
@[simp] theorem cur_done (s : State) (q : Issue) (len : Nat) (f : Strand → Strand) :
    (s.done q len f).cur = (f s.cur).advance s.cycle q len := by
  simp [State.done]

/-- The acting strand after an instruction that goes to a target (R205, R207). -/
@[simp] theorem cur_goto (s : State) (q : Issue) (a : DWord) (l : Bool) (f : Strand → Strand) :
    (s.goto q a l f).cur = (f s.cur).jump s.cycle q a l := by
  simp [State.goto]

/-- Another strand after it: at most what it keeps for `yield` has changed. -/
theorem strand_done_other (s : State) (q : Issue) (len : Nat) (f : Strand → Strand) (n : Nat) (h : n ≠ s.focus.strand) :
    (s.done q len f).strand n = seenBy s.focus.strand (coreOf s.focus.strand) n (s.strand n) := by
  unfold State.done
  rw [strand_issued]
  simp [State.setCur, strand_setStrand_other _ _ _ _ h]

theorem strand_goto_other (s : State) (q : Issue) (a : DWord) (l : Bool) (f : Strand → Strand) (n : Nat)
    (h : n ≠ s.focus.strand) :
    (s.goto q a l f).strand n = seenBy s.focus.strand (coreOf s.focus.strand) n (s.strand n) := by
  unfold State.goto
  rw [strand_issued]
  simp [State.setCur, strand_setStrand_other _ _ _ _ h]

@[simp] theorem cur_of_focus (s t : State) (h : t.focus.strand = s.focus.strand) (hs : t.seqs = s.seqs) : t.cur = s.cur := by
  simp [State.cur, State.strand, h, hs]

/-! ### What an instruction leaves of its strand -/

@[simp] theorem advance_g (t : Strand) (c : Nat) (q : Issue) (n : Nat) : (t.advance c q n).g = t.g := rfl
@[simp] theorem advance_writes (t : Strand) (c : Nat) (q : Issue) (n : Nat) : (t.advance c q n).writes = t.writes := rfl
@[simp] theorem advance_status (t : Strand) (c : Nat) (q : Issue) (n : Nat) : (t.advance c q n).status = t.status := rfl
@[simp] theorem advance_ops (t : Strand) (c : Nat) (q : Issue) (n : Nat) : (t.advance c q n).ops = t.ops := rfl
@[simp] theorem advance_handles (t : Strand) (c : Nat) (q : Issue) (n : Nat) : (t.advance c q n).handles = t.handles := rfl
@[simp] theorem advance_run (t : Strand) (c : Nat) (q : Issue) (n : Nat) : (t.advance c q n).run = t.run := rfl
@[simp] theorem advance_ctx (t : Strand) (c : Nat) (q : Issue) (n : Nat) : (t.advance c q n).ctx = t.ctx := rfl
@[simp] theorem advance_asid (t : Strand) (c : Nat) (q : Issue) (n : Nat) : (t.advance c q n).asid = t.asid := rfl
@[simp] theorem advance_tvec (t : Strand) (c : Nat) (q : Issue) (n : Nat) : (t.advance c q n).tvec = t.tvec := rfl
@[simp] theorem advance_readyAt (t : Strand) (c : Nat) (q : Issue) (n : Nat) :
    (t.advance c q n).readyAt = c + 1 + q.gap.toNat := rfl
@[simp] theorem advance_reg (t : Strand) (c : Nat) (q : Issue) (n : Nat) (r : GReg) : (t.advance c q n).reg r = t.reg r := rfl
@[simp] theorem jump_reg (t : Strand) (c : Nat) (q : Issue) (a : DWord) (l : Bool) (r : GReg) :
    (t.jump c q a l).reg r = t.reg r := rfl
@[simp] theorem jump_pc (t : Strand) (c : Nat) (q : Issue) (a : DWord) (l : Bool) : (t.jump c q a l).pc = a := rfl
@[simp] theorem jump_writes (t : Strand) (c : Nat) (q : Issue) (a : DWord) (l : Bool) : (t.jump c q a l).writes = t.writes := rfl

/-- With no loop to end, the next instruction follows (R185). -/
theorem advance_pc_noLoop (t : Strand) (c : Nat) (q : Issue) (n : Nat) (h : t.loops = []) :
    (t.advance c q n).pc = t.pc + BitVec.ofNat 64 n := by
  simp [Strand.advance, loopBack, h]

/-! ### Registers (R54, R187, R194) -/

/-- g0 reads zero whatever is written. -/
@[simp] theorem reg_zero (t : Strand) : t.reg 0#5 = 0#64 := by simp [Strand.reg]

/-- A register after a write. -/
theorem reg_setReg (t : Strand) (r x : GReg) (v : DWord) :
    (t.setReg r v).reg x = if x = 0 then 0 else if x = r then v else t.reg x := by
  unfold Strand.setReg Strand.reg
  by_cases hx : x = 0
  · rw [if_pos hx, if_pos hx]
  · rw [if_neg hx, if_neg hx, if_neg hx]
    by_cases hr : r = 0
    · have : ¬ x = r := fun e => hx (e.trans hr)
      simp only [if_pos hr, if_neg this]
    · simp only [if_neg hr]
      by_cases e : x = r
      · subst e; simp
      · have : r.toNat ≠ x.toNat := fun h => e (BitVec.eq_of_toNat_eq h.symm)
        simp [e, Vector.getElem_set_ne _ _ this]

/-- A write to g0 changes nothing. -/
@[simp] theorem setReg_zero (t : Strand) (v : DWord) : t.setReg 0#5 v = t := by simp [Strand.setReg]

/-- Writing a register leaves every other part of the strand. -/
theorem setReg_eq (t : Strand) (r : GReg) (v : DWord) : t.setReg r v = { t with g := (t.setReg r v).g } := by
  unfold Strand.setReg; split <;> rfl

/-- Writing results leaves every other part of the strand. -/
theorem commitList_eq (t : Strand) (l : List (GReg × DWord × Nat)) :
    t.commitList l = { t with g := (t.commitList l).g } := by
  induction l generalizing t with
  | nil => rfl
  | cons w ws ih =>
    obtain ⟨r, v, n⟩ := w
    have h := ih (t.setReg r v)
    have k := setReg_eq t r v
    show (t.setReg r v).commitList ws = { t with g := ((t.setReg r v).commitList ws).g }
    generalize (t.setReg r v).commitList ws = u at *
    rw [h]
    generalize t.setReg r v = w at *
    rw [k]

/-- A register that a list of results does not name keeps its value. -/
theorem reg_commitList_other (t : Strand) (l : List (GReg × DWord × Nat)) (x : GReg) (h : ∀ w ∈ l, w.1 ≠ x) :
    (t.commitList l).reg x = t.reg x := by
  induction l generalizing t with
  | nil => rfl
  | cons w ws ih =>
    obtain ⟨r, v, n⟩ := w
    have ne : ¬ x = r := fun e => h (r, v, n) (List.mem_cons_self) e.symm
    show ((t.setReg r v).commitList ws).reg x = _
    rw [ih _ fun w hw => h w (List.mem_cons_of_mem _ hw), reg_setReg, if_neg ne]
    by_cases hx : x = 0
    · subst hx; simp
    · rw [if_neg hx]

/-- The last result of a list for a register is what the register holds. -/
theorem reg_commitList_last (t : Strand) (l : List (GReg × DWord × Nat)) (r : GReg) (v : DWord) (n : Nat) (h : r ≠ 0) :
    (t.commitList (l ++ [(r, v, n)])).reg r = v := by
  induction l generalizing t with
  | nil => show (t.setReg r v).reg r = v; rw [reg_setReg, if_neg h, if_pos rfl]
  | cons w ws ih => obtain ⟨r', v', n'⟩ := w; exact ih _

theorem reg_of_g (t u : Strand) (x : GReg) (h : t.g = u.g) : t.reg x = u.reg x := by simp [Strand.reg, h]

/-- A result of latency L is in its register at the end of cycle + L − 1, when the results due by then are written. -/
theorem reg_result_commit (t : Strand) (c L : Nat) (r : GReg) (v : DWord) (h1 : 1 ≤ L) :
    ((t.result c L r v).commit (c + L - 1)).reg r = if r = 0 then 0 else v := by
  by_cases hr : r = 0
  · subst hr; simp
  rw [if_neg hr]
  unfold Strand.result
  by_cases hL : L ≤ 1
  · have : L = 1 := by omega
    subst this
    rw [if_pos hL]
    generalize hu : ({ t with writes := t.writes.filter fun w => !(w.1 = r && decide (w.2.2 ≤ c)) } : Strand) = u
    have hw : (u.setReg r v).writes = t.writes.filter fun w => !(w.1 = r && decide (w.2.2 ≤ c)) := by
      rw [setReg_eq, ← hu]
    unfold Strand.commit
    rw [reg_commitList_other]
    · show (u.setReg r v).reg r = v
      rw [reg_setReg, if_neg hr, if_pos rfl]
    · intro w hm e
      obtain ⟨m1, m2⟩ := List.mem_filter.mp hm
      rw [hw] at m1
      have m3 := (List.mem_filter.mp m1).2
      simp [e] at m3 m2
      omega
  · rw [if_neg hL]
    unfold Strand.commit
    have hd : decide (c + L - 1 ≤ c + L - 1) = true := by simp
    simp only [List.filter_append, List.filter_cons, List.filter_nil, hd, if_true]
    exact reg_commitList_last _ _ _ _ _ hr

/-- Until then a register keeps its value, and for ever if it is another one (R187). -/
theorem reg_result_before (t : Strand) (c L : Nat) (r x : GReg) (v : DWord) (h : 2 ≤ L ∨ x ≠ r) :
    (t.result c L r v).reg x = t.reg x := by
  unfold Strand.result
  by_cases hL : L ≤ 1
  · rw [if_pos hL, reg_setReg]
    have ne : ¬ x = r := by
      rcases h with h | h
      · omega
      · exact h
    rw [if_neg ne]
    by_cases hx : x = 0
    · subst hx; simp
    · rw [if_neg hx]; rfl
  · rw [if_neg hL]; rfl

/-- A result changes of its strand only the register and the pending results. -/
theorem result_eq (t : Strand) (c L : Nat) (r : GReg) (v : DWord) :
    t.result c L r v = { t with g := (t.result c L r v).g, writes := (t.result c L r v).writes } := by
  unfold Strand.result
  split
  · generalize hu : ({ t with writes := t.writes.filter fun w => !(w.1 = r && decide (w.2.2 ≤ c)) } : Strand) = u
    have h := setReg_eq u r v
    generalize u.setReg r v = w at *
    rw [h, ← hu]
  · rfl

end Sys2Proof.Machine
end

