-- ==== Sys2Proof/Laws/Instr.lean ====
section
/-! SUPPORT. What the shared operations of the sequencer do, in the terms in which the obligations are stated: going on,
branching, giving a result, trapping, issuing an operation, giving a handle, acting on an object at home. -/

open Sys2Proof.Machine Sys2Proof.Claim

namespace Sys2Proof.Laws

/-- Membership is not changed by placing. -/
theorem mem_placeBy {α : Type} (le : α → α → Bool) (x y : α) (l : List α) :
    y ∈ placeBy le x l ↔ y = x ∨ y ∈ l := by
  induction l with
  | nil => simp [placeBy]
  | cons z t ih =>
    simp only [placeBy]
    split
    · simp
    · rw [List.mem_cons, ih, List.mem_cons, or_left_comm]

/-- Membership is not changed by sorting. -/
theorem mem_sortBy {α : Type} (le : α → α → Bool) (y : α) (l : List α) : y ∈ sortBy le l ↔ y ∈ l := by
  induction l with
  | nil => simp [sortBy]
  | cons z t ih => simp [sortBy, mem_placeBy, ih]

/-! ### What an instruction leaves outside its strand (R185, R230) -/

/-- Going on to the next instruction changes nothing outside the strands and the cores. -/
theorem onlyStrands_done (s : State) (q : Issue) (n : Nat) (f : Strand → Strand) : OnlyStrands s (s.done q n f) := by
  constructor <;> rfl

/-- Nor does going to a target. -/
theorem onlyStrands_goto (s : State) (q : Issue) (a : DWord) (l : Bool) (f : Strand → Strand) : OnlyStrands s (s.goto q a l f) := by
  constructor <;> rfl

/-- What a core keeps of the last issue (R185). -/
theorem core_issued (s : State) (q : Issue) (c : Nat) :
   ((s.issued q).core c) = if c = coreOf s.focus.strand then { s.core c with last := s.focus.strand % 4, lastSw := q.sw, used := s.cycle + 1 } else s.core c := by
  show lookupD (insertD s.seqs.cores _ _) c Core.reset = _
  rw [lookupD_insertD]
  split
  · next h => subst h; rfl
  · rfl

/-- After an issue the other strands keep all but what they hold for `yield`. -/
theorem others_issued (s s0 : State) (q : Issue) (hf : s.focus = s0.focus) (h : ∀ n, n ≠ s.focus.strand → s.strand n = s0.strand n)
   (hc : s.seqs.cores = s0.seqs.cores) : OthersKeep s0 (s.issued q) := by
  constructor
  · intro n hn
    rw [strand_issued, h n (by rw [hf]; exact hn)]
    unfold seenBy; split <;> rfl
  · intro c; rw [core_issued]; have : s.core c = s0.core c := by simp [State.core, hc]
    split <;> simp [this]
  · intro c; rw [core_issued]; have : s.core c = s0.core c := by simp [State.core, hc]
    split <;> simp [this]

/-- The other strands after an instruction that goes on. -/
theorem others_done (s : State) (q : Issue) (n : Nat) (f : Strand → Strand) : OthersKeep s (s.done q n f) := by
  apply others_issued
  · rfl
  · intro m hm; exact strand_setStrand_other s s.focus.strand m _ hm
  · rfl

/-- The same where the meaning changed its state before it completed. -/
theorem others_done' (s0 s : State) (q : Issue) (n : Nat) (f : Strand → Strand) (hf : s.focus = s0.focus) (h : ∀ m, m ≠ s0.focus.strand → s.strand m = s0.strand m) (hc : s.seqs.cores = s0.seqs.cores) : OthersKeep s0 (s.done q n f) := by
  apply others_issued
  · exact hf
  · intro m hm
    have e : s.focus.strand = s0.focus.strand := by rw [hf]
    rw [← h m (by rw [← e]; exact hm)]
    exact strand_setStrand_other s s.focus.strand m _ hm
  · exact hc

/-- The other strands after an instruction that goes to a target. -/
theorem others_goto (s : State) (q : Issue) (a : DWord) (l : Bool) (f : Strand → Strand) : OthersKeep s (s.goto q a l f) := by
  apply others_issued
  · rfl
  · intro m hm; exact strand_setStrand_other s s.focus.strand m _ hm
  · rfl

/-! ### Where the strand goes on (R205, R207) -/

/-- An instruction that leaves pc, loops and STATUS goes on to the next, or back to the body of a loop. -/
theorem goesOn_done (s : State) (q : Issue) (n : Nat) (f : Strand → Strand) (h : (f s.cur).pc = s.cur.pc) (h2 : (f s.cur).loops = s.cur.loops) (h3 : (f s.cur).status = s.cur.status) :
    GoesOn s (s.done q n f) q n := by
  constructor
  · simp
  · intro hl
    rw [cur_done]
    have hb : loopBack (f s.cur).pc (f s.cur).lbase (f s.cur).loops.reverse = (none, s.cur.loops.reverse) := by
      rw [h, h2]
      rcases hr : s.cur.loops.reverse with _ | ⟨e, r⟩
      · rfl
      · have he : s.cur.loops.getLast? = some e := by rw [← List.head?_reverse, hr]; rfl
        simp only [loopBack]
        have := hl e he
        split
        · rfl
        · rfl
    rw [h] at hb
    simp only [Strand.advance]
    rw [h, hb]; simp

/-- The same where the meaning changed its state before it completed. -/
theorem goesOn_done' (s s0 : State) (q : Issue) (n : Nat) (f : Strand → Strand) (hc : s.cycle = s0.cycle) (h : (f s.cur).pc = s0.cur.pc) (h2 : (f s.cur).loops = s0.cur.loops) :
    GoesOn s0 (s.done q n f) q n := by
  constructor
  · simp [hc]
  · intro hl
    rw [cur_done]
    have hb : loopBack (f s.cur).pc (f s.cur).lbase (f s.cur).loops.reverse = (none, s0.cur.loops.reverse) := by
      rw [h, h2]
      rcases hr : s0.cur.loops.reverse with _ | ⟨e, r⟩
      · rfl
      · have he : s0.cur.loops.getLast? = some e := by rw [← List.head?_reverse, hr]; rfl
        simp only [loopBack]
        have := hl e he
        split
        · rfl
        · rfl
    rw [h] at hb
    simp only [Strand.advance]
    rw [h, hb]; simp

/-- The target of a branch: pc plus four times the signed field. -/
theorem target_eq {w : Nat} (s : State) (off : BitVec w) (h : w ≤ 64) : s.target off = s.cur.pc + BitVec.ofInt 64 (4 * off.toInt) := by
  unfold State.target
  rw [Int.mul_comm, BitVec.ofInt_mul]; rfl

/-- What leaving a loop body does with the loop levels. -/
theorem leavesLoops_goto (s : State) (q : Issue) (a : DWord) (f : Strand → Strand) (h : (f s.cur).pc = s.cur.pc) (h2 : (f s.cur).loops = s.cur.loops) (h3 : (f s.cur).status = s.cur.status) :
   LeavesLoops s (s.goto q a true f) a := by
  constructor
  · intro hk
    rw [cur_goto]
    show (loopLeave (f s.cur).pc a (f s.cur).lbase (f s.cur).loops.reverse).reverse = _
    rw [h, h2]
    rcases hr : s.cur.loops.reverse with _ | ⟨e, r⟩
    · simp [loopLeave]; simpa using hr
    · have he : s.cur.loops.getLast? = some e := by rw [← List.head?_reverse, hr]; rfl
      have := hk e he
      have hh : loopLeave s.cur.pc a (f s.cur).lbase (e :: r) = e :: r := by
        simp only [loopLeave]
        split
        · rfl
        · rw [if_neg]
          intro hc; apply this
          simp only [Bool.and_eq_true, Bool.not_eq_true', decide_eq_true_eq, Bool.and_eq_false_iff, decide_eq_false_iff_not, inBody] at hc ⊢
          omega
      rw [hh, ← hr, List.reverse_reverse]
  · intro e he hb hin hout
    rw [cur_goto]
    show (loopLeave (f s.cur).pc a (f s.cur).lbase (f s.cur).loops.reverse).reverse = _
    have hb2 : (f s.cur).lbase = 0 := by rw [← hb]; simp [Strand.lbase, h3]
    rw [h, h2, he, hb2]
    simp only [List.reverse_cons, List.reverse_nil, List.nil_append, loopLeave, List.length_nil]
    rw [if_neg (by omega), if_pos]
    · rfl
    · simp only [Bool.and_eq_true, Bool.not_eq_true', decide_eq_true_eq, Bool.and_eq_false_iff, decide_eq_false_iff_not, inBody] at hin hout ⊢
      omega

/-- A conditional branch, from its condition. -/
theorem branchesWhen_of_branch (i : Instr) (q : Issue) (off : BitVec 13) (c : State → Bool) (cond : State → Prop) (hc : ∀ s, cond s ↔ c s = true)
   (h : ∀ s, exec i s = s.branch q off (c s)) : BranchesWhen i q off cond := by
  constructor
  · intro s hs
    refine ⟨_, by rw [h, (hc s).mp hs]; rfl, ?_, ?_, ?_, ?_, ?_, onlyStrands_goto .., others_goto ..⟩
    · constructor
      · rw [cur_goto]; exact target_eq s off (by decide)
      · rw [cur_goto]; rfl
    · have := leavesLoops_goto s q (s.target off) id rfl rfl rfl
      rwa [target_eq s off (by decide)] at *
    all_goals constructor <;> (intros; rw [cur_goto]; rfl)
  · intro s hs
    have hf : c s = false := by
      cases e : c s
      · rfl
      · exact absurd ((hc s).mpr e) hs
    refine ⟨_, by rw [h, hf]; rfl, goesOn_done _ _ _ _ rfl rfl rfl, ?_, ?_, ?_, onlyStrands_done .., others_done ..⟩
    all_goals constructor <;> (intros; rw [cur_done]; rfl)

/-! ### Results (R187) -/

/-- Writing the same results to equal registers gives equal registers. -/
theorem commitList_g_congr (l : List (GReg × DWord × Nat)) (t u : Strand) (h : t.g = u.g) : (t.commitList l).g = (u.commitList l).g := by
  induction l generalizing t u with
  | nil => exact h
  | cons w ws ih =>
    obtain ⟨r, x, n⟩ := w
    apply ih
    unfold Strand.setReg; split
    · exact h
    · simp [h]

/-- An instruction whose meaning writes one result and goes on. -/
theorem computes_of_done (i : Instr) (q : Issue) (len L : Nat) (d : GReg) (v : State → DWord) (hL : 1 ≤ L)
   (h : ∀ s, exec i s = .next (s.done q len fun t => t.result s.cycle L d (v s))) : Computes i q len L d v := by
  constructor
  intro s
  refine ⟨_, h s, ?_, ?_, ?_, ?_, ?_, onlyStrands_done .., others_done ..⟩
  · apply goesOn_done <;> (rw [result_eq])
  · constructor
    · rw [cur_done]
      show ((s.cur.result s.cycle L d (v s)).advance s.cycle q len |>.commit _).reg d = _
      rw [← reg_result_commit s.cur s.cycle L d (v s) hL]
      apply reg_of_g
      exact commitList_g_congr _ _ _ rfl
    · intro h1; subst h1
      rw [cur_done, advance_reg]
      by_cases hd : d = 0
      · subst hd; simp
      · rw [if_neg hd]; unfold Strand.result; simp only [Nat.le_refl, if_true]; rw [reg_setReg, if_neg hd, if_pos rfl]
    · intro h2; rw [cur_done, advance_reg]; exact reg_result_before _ _ _ _ _ _ (.inl h2)
  · constructor
    · intro x hx; rw [cur_done, advance_reg]; exact reg_result_before _ _ _ _ _ _ (.inr hx)
    · intro w hw
      rw [cur_done, advance_writes]
      unfold Strand.result
      split
      · rw [setReg_eq]; simp [hw]
      · simp; intro e; exact absurd (by rw [e]) hw
  · constructor <;> (rw [cur_done, result_eq]; rfl)
  · constructor <;> (rw [cur_done, result_eq]; rfl)

/-- The shared form of the register instructions. -/
theorem exec_eq_of_alu (s : State) (i : Instr) (q : Issue) (L : Nat) (d : GReg) (v w : DWord) (h : exec i s = s.alu q L d v) (e : v = w) :
   exec i s = .next (s.done q 4 fun t => t.result s.cycle L d w) := by rw [h, e]; rfl

/-- Counting by a fold is the length of the filtered list. -/
theorem foldl_toNat_eq_filter (l : List Nat) (p : Nat → Bool) (k : Nat) : l.foldl (fun n i => n + (p i).toNat) k = k + (l.filter p).length := by
  induction l generalizing k with
  | nil => rfl
  | cons a t ih => simp only [List.foldl_cons, ih, List.filter_cons]; cases p a <;> simp <;> omega

/-! ### Taking a trap (R214–R217) -/

/-- The fields of the STATUS a trap leaves. -/
theorem statusTrap_fields (t : Strand) (l : Nat) (hl : t.ldepth = l) :
    t.statusTrap.getLsbD 8 = t.status.getLsbD 7 ∧ t.statusTrap.getLsbD 7 = true ∧
    t.statusTrap.getLsbD 5 = t.status.getLsbD 6 ∧ t.statusTrap.getLsbD 6 = false ∧
    t.statusTrap.extractLsb' 13 3 = t.status.extractLsb' 10 3 ∧
    t.statusTrap.extractLsb' 10 3 = BitVec.ofNat 3 l ∧
    t.statusTrap.extractLsb' 16 48 = 0 ∧ t.statusTrap.getLsbD 9 = false ∧ t.statusTrap.extractLsb' 0 5 = 0 := by
  have key : ∀ (p m : Fin 8) (a b : Bool),
    let x := statusOf p.1 m.1 a true false b
    x.getLsbD 8 = a ∧ x.getLsbD 7 = true ∧ x.getLsbD 5 = b ∧ x.getLsbD 6 = false ∧
    x.extractLsb' 13 3 = BitVec.ofNat 3 p.1 ∧ x.extractLsb' 10 3 = BitVec.ofNat 3 m.1 ∧ x.extractLsb' 16 48 = 0 ∧ x.getLsbD 9 = false ∧ x.extractLsb' 0 5 = 0 := by
    decide +kernel
  have hp : t.lbase < 8 := by
    simp only [Strand.lbase, field]; exact Nat.mod_lt _ (by decide)
  have e : t.statusTrap = statusOf (⟨t.lbase, hp⟩ : Fin 8).1 (⟨l % 8, Nat.mod_lt _ (by decide)⟩ : Fin 8).1 t.sup true false t.ae := by
    simp [Strand.statusTrap, statusOf, hl]
  have k := key ⟨t.lbase, hp⟩ ⟨l % 8, Nat.mod_lt _ (by decide)⟩ t.sup t.ae
  rw [← e] at k
  obtain ⟨k1, k2, k3, k4, k5, k6, k7, k8, k9⟩ := k
  refine ⟨k1, k2, k3, k4, ?_, ?_, k7, k8, k9⟩
  · rw [k5]; apply BitVec.eq_of_toNat_eq; simp [Strand.lbase, field, BitVec.extractLsb'_toNat]
  · rw [k6]; apply BitVec.eq_of_toNat_eq; simp

/-- Draining the results changes only the registers and the results. -/
theorem drain_eq (t : Strand) : t.drain = { t with g := t.drain.g, writes := [] } := by
  unfold Strand.drain
  exact commitList_eq _ _

/-- The drain is over when the last result is written. -/
theorem drainedAt_le (t : Strand) (c : Nat) : ∀ w ∈ t.writes, w.2.2 ≤ t.drainedAt c := by
  unfold Strand.drainedAt
  have key : ∀ (l : List (GReg × DWord × Nat)) (a : Nat), a ≤ l.foldl (fun a w => max a w.2.2) a ∧ ∀ w ∈ l, w.2.2 ≤ l.foldl (fun a w => max a w.2.2) a := by
    intro l; induction l with
    | nil => simp
    | cons x t ih =>
      intro a
      obtain ⟨h1, h2⟩ := ih (max a x.2.2)
      refine ⟨by simp only [List.foldl_cons]; omega, ?_⟩
      intro w hw
      simp only [List.foldl_cons]
      rcases List.mem_cons.mp hw with rfl | hw
      · omega
      · exact h2 w hw
  exact (key _ _).2

/-- Everything a trap does when its vector is not the address it comes from. -/
theorem traps_trapAt (s : State) (n : Nat) (epc cause addr info : DWord) (h : (s.strand n).atTvec = false) :
    Traps s (s.trapAt n epc cause addr info) n epc cause addr info := by
  have e : s.trapAt n epc cause addr info = s.setStrand n ((s.strand n).enter s.cycle epc cause addr info) := by
    simp [State.trapAt, h]
  rw [e]
  generalize hu : s.strand n = u
  have sb := statusTrap_fields u _ rfl
  have dq := drain_eq u
  constructor
  case results =>
    rw [strand_setStrand_same]
    refine ⟨by unfold Strand.enter; simp; rw [dq], ?_⟩
    intro w hw
    rw [hu] at hw
    show _ < u.drainedAt s.cycle + 1
    have := drainedAt_le u s.cycle w hw
    omega
  case regs =>
    intro r hr
    rw [hu] at hr
    rw [strand_setStrand_same]
    show u.drain.reg r = _
    unfold Strand.drain
    rw [reg_commitList_other]
    · rw [hu]; rfl
    · intro w hw; exact hr w ((mem_sortBy _ _ _).mp hw)
  case others => intro m hm; exact strand_setStrand_other _ _ _ _ hm
  case frame => constructor <;> rfl
  all_goals rw [strand_setStrand_same]
  all_goals try rw [hu]
  case loops => show u.drain.loops = _; rw [dq]
  case ops => show u.drain.ops = _ ∧ u.drain.handles = _; rw [dq]; exact ⟨rfl, rfl⟩
  case tvec => show u.drain.tvec = _; rw [dq]
  case run => show u.drain.run = _; rw [dq]
  all_goals first
    | rfl
    | exact sb.1
    | exact sb.2.1
    | exact sb.2.2.1
    | exact sb.2.2.2.1
    | exact sb.2.2.2.2.1
    | exact sb.2.2.2.2.2.1
    | exact sb.2.2.2.2.2.2

/-- A trap of the acting instruction. -/
theorem traps_trap (s : State) (cause addr info : DWord) (h : s.cur.atTvec = false) :
    Traps s (s.trap cause addr info) s.focus.strand s.cur.pc cause addr info := traps_trapAt s _ _ _ _ _ h

/-! ### Operations in flight (R78–R86) -/

/-- The operations of the acting strand not yet performed. -/
theorem mem_unperformed (s : State) (o : Op) : o ∈ s.unperformed s.focus.strand ↔ o ∈ s.cur.ops ∧ s.opDone s.curDie o = false := by
  unfold State.unperformed
  rw [List.mem_filter]
  simp only [dieOf, State.cur, State.curDie, Bool.not_eq_true']

/-- The arcs into a new operation. -/
theorem hasArcs_arcsInto (s : State) (k : OpKind) (va : Nat) (rel : Bool) : HasArcs s (s.arcsInto s.focus.strand k va rel) k va rel := by
  unfold State.arcsInto
  constructor
  · intro i hi; exact List.mem_append_left _ hi
  · intro o ho hd h
    apply List.mem_append_right
    apply List.mem_map_of_mem
    apply List.mem_filter.mpr
    refine ⟨(mem_unperformed s o).mpr ⟨ho, hd⟩, ?_⟩
    simpa [or_assoc] using h
  · intro i hi
    rcases List.mem_append.mp hi with h | h
    · exact .inl h
    · obtain ⟨o, ho, e⟩ := List.mem_map.mp h
      obtain ⟨h1, h2⟩ := List.mem_filter.mp ho
      obtain ⟨h3, h4⟩ := (mem_unperformed s o).mp h1
      exact .inr ⟨o, h3, e, h4, by simpa [or_assoc] using h2⟩

/-- The acting strand after an operation is issued. -/
theorem addOp_cur (s : State) (kind dst cls scope acq rel vals va) : (s.addOp kind dst cls scope acq rel vals va).cur = { s.cur with ops := s.cur.ops ++ [(⟨s.serial, kind, dst, cls, s.arcsInto s.focus.strand kind va rel, scope, acq, vals, s.cur.pc, va, s.cycle + 1 + Config.latency s.serial, none, none, none⟩ : Op)] } := by
  exact cur_setCur s _

/-- An instruction whose meaning issues one operation and goes on. -/
theorem issues_of (i : Instr) (s : State) (q len kind dst cls scope acq rel vals va) 
  (h : exec i s = .next ((s.addOp kind dst cls scope acq rel vals va).done q len id)) : Issues i s q len kind dst cls scope acq rel vals va := by
  refine ⟨_, (⟨s.serial, kind, dst, cls, s.arcsInto s.focus.strand kind va rel, scope, acq, vals, s.cur.pc, va, s.cycle + 1 + Config.latency s.serial, none, none, none⟩ : Op), h, ?_⟩
  have hc := addOp_cur s kind dst cls scope acq rel vals va
  constructor
  case listed => rw [cur_done, advance_ops, id_eq, hc]
  case arcs => exact hasArcs_arcsInto s kind va rel
  case goes => apply goesOn_done' <;> first | rfl | (rw [id_eq, hc])
  case others => apply others_done' s (s.addOp ..); rfl; (intro m hm; exact strand_setStrand_other s s.focus.strand m _ hm); rfl
  case frame => constructor <;> rfl
  case later => show _ < _ + 1 + _; omega
  case regs => constructor <;> (intros; rw [cur_done, id_eq, hc]; rfl)
  case control => constructor <;> (rw [cur_done, id_eq, hc]; rfl)
  case handles => rw [cur_done, id_eq, hc]; exact ⟨rfl, rfl⟩
  all_goals first | rfl | exact ⟨rfl, rfl⟩ | exact ⟨rfl, rfl, rfl⟩

/-- Bytes of a size and its code. -/
theorem sizeBytes_eq (sz : Size) : sizeBytes sz = 2 ^ sizeCode sz := by cases sz <;> rfl

/-- The offset of a memory form. -/
theorem memOff_eq (off : BitVec 9) (sz : Size) : memOff off sz = BitVec.ofInt 64 (off.toInt * 2 ^ sizeCode sz) := by
  unfold memOff; rw [BitVec.ofInt_mul, sizeBytes_eq]; congr 1

/-- An aligned access that the tables let through. -/
theorem access_of_ok (s : State) (x : DWord) (sz : Nat) (w : Bool) (k) (pa e) (h1 : x.toNat < 2 ^ 57) (h2 : x.toNat % 2 ^ sz = 0)
  (h3 : s.curTranslate (if w then .write else .read) x.toNat (2 ^ sz) = .ok pa e) : s.access x sz w k = .next (k pa e) := by
  unfold State.access
  rw [if_neg (by omega), if_neg (by simp [h2]), h3]

/-! ### Handles (R190–R193) -/

/-- An if inside a map. -/
theorem ite_map_st (p : Prop) [Decidable p] (h : Handle) : (if p then some h.st else none) = Option.map Handle.st (if decide p then some h else none) := by
  by_cases hp : p <;> simp [hp]

/-- Looking a handle up. -/
theorem named_eq (s : State) (v : DWord) : named s v = (s.cur.lookupHandle s.focus.strand v).map Handle.st := by
  have e : field v 5 0 = v.toNat % 64 := by simp [field]
  unfold named Strand.lookupHandle Strand.handle handleValue
  rw [e]
  generalize (s.cur.handles.find? fun h => h.slot = v.toNat % 64) = o
  cases o with
  | none => rfl
  | some h =>
    exact ite_map_st _ h

/-- The handle in a slot. -/
theorem handle_find (s : State) (k : Nat) : s.cur.handle k = s.cur.handles.find? fun h => h.slot = k := rfl

/-- The lowest free slot. -/
theorem freeSlot_eq (s : State) (k : Nat) (h : lowestFree s k) : s.cur.freeSlot = some k := by
  obtain ⟨⟨h1, h2⟩, h3⟩ := h
  unfold Strand.freeSlot
  have key : ∀ j, (match s.cur.handle j with | none => true | some h => h.st != .busy) = true ↔ ∀ h, (s.cur.handles.find? fun h => h.slot = j) = some h → h.st ≠ .busy := by
    intro j
    rw [handle_find]
    generalize (s.cur.handles.find? fun h => decide (h.slot = j)) = o
    cases o with
    | none => simp
    | some h => simp
  rw [List.find?_eq_some_iff_append]
  refine ⟨(key k).mpr h2, List.range k, (List.range' (k + 1) (63 - k)), ?_, ?_⟩
  · have : List.range 64 = List.range' 0 64 := List.range_eq_range'
    rw [this, List.range_eq_range', show 64 = k + (1 + (63 - k)) by omega, ← List.range'_append, ← List.range'_append]
    simp
  · intro j hj
    have hj' := List.mem_range.mp hj
    have := h3 j hj'
    rw [Bool.not_eq_true']
    cases hb : (match s.cur.handle j with | none => true | some h => h.st != HandleState.busy)
    · first | exact hb | rfl
    · exact absurd ⟨by omega, (key j).mp hb⟩ this

/-- The generation after. -/
theorem nextGen_eq (s : State) (k : Nat) : s.cur.nextGen k = BitVec.ofNat 16 (genOf s k) ∧ (s.cur.nextGen k).toNat = genOf s k := by
  unfold Strand.nextGen genOf
  rw [handle_find]
  generalize (s.cur.handles.find? fun h => decide (h.slot = k)) = o
  cases o with
  | none => exact ⟨rfl, rfl⟩
  | some h =>
    simp only
    by_cases hg : h.gen = 65535#16
    · simp [hg]
    · have : ¬ h.gen.toNat = 65535 := fun e => hg (BitVec.eq_of_toNat_eq e)
      have lt := h.gen.isLt
      rw [if_neg this]
      have e2 : (if h.gen = 0xFFFF then 1 else h.gen + 1) = h.gen + 1 := if_neg hg
      rw [e2]
      refine ⟨?_, ?_⟩
      · apply BitVec.eq_of_toNat_eq; simp
      · simp; omega

/-- The handles after one is set. -/
theorem setHandle_mem (t : Strand) (h x : Handle) : x ∈ (t.setHandle h).handles ↔ (x ∈ t.handles ∧ x.slot ≠ h.slot) ∨ x = h := by
  unfold Strand.setHandle
  simp

/-- The handle a command gives. -/
theorem handleGiven_done (s u : State) (q : Issue) (d : GReg) (k : Nat) (kind cls st) (f : Strand → Strand)
  (hfd : f u.cur = (s.cur.setHandle ⟨k, s.cur.nextGen k, s.serial, kind, cls, st, 0, 0⟩).result s.cycle 1 d (handleValue s.focus.strand k (s.cur.nextGen k))) :
  HandleGiven s (u.done q 4 f) d k kind cls st := by
  obtain ⟨g1, g2⟩ := nextGen_eq s k
  constructor
  · rw [cur_done, advance_reg, hfd]
    by_cases hd : d = 0
    · subst hd; simp
    · rw [if_neg hd]; unfold Strand.result; simp only [Nat.le_refl, if_true]; rw [reg_setReg, if_neg hd, if_pos rfl]
      unfold handleValue dieOf; rw [g2]
  · rw [cur_done, advance_handles, hfd, result_eq, ← g1]
    exact (setHandle_mem _ _ _).mpr (.inr rfl)
  · rw [cur_done, advance_handles, hfd, result_eq, ← g1]
    intro h hh hs
    rcases (setHandle_mem _ _ _).mp hh with ⟨_, h2⟩ | h2
    · exact absurd hs h2
    · exact h2

/-- What a command leaves. -/
theorem commandFrame_done (s u : State) (q : Issue) (d : GReg) (k : Nat) (kind cls st) (f : Strand → Strand) (hT : u = { s with engs := u.engs, serial := u.serial, seqs := { s.seqs with strands := u.seqs.strands } })
  (hu : u.focus = s.focus) (ho : ∀ n, n ≠ s.focus.strand → u.strand n = s.strand n)
  (hfd : f u.cur = (s.cur.setHandle ⟨k, s.cur.nextGen k, s.serial, kind, cls, st, 0, 0⟩).result s.cycle 1 d (handleValue s.focus.strand k (s.cur.nextGen k))) :
  CommandFrame s (u.done q 4 f) d k := by
  constructor
  case regs =>
    constructor
    · intro x hx; rw [cur_done, advance_reg, hfd]; exact reg_result_before _ _ _ _ _ _ (.inr hx)
    · intro w hw
      rw [cur_done, advance_writes, hfd]
      unfold Strand.result
      simp only [Nat.le_refl, if_true]; rw [setReg_eq]; simp [hw]; exact Iff.rfl
  case ops => rw [cur_done, hfd, result_eq]; exact ⟨rfl, rfl⟩
  case slots =>
    intro h hs
    rw [cur_done, advance_handles, hfd, result_eq]
    rw [setHandle_mem]
    simp only [hs]
    constructor
    · rintro (⟨h1, _⟩ | rfl)
      · exact h1
      · exact absurd rfl hs
    · intro h1; exact .inl ⟨h1, hs⟩
  case control => constructor <;> (rw [cur_done, hfd, result_eq]; rfl)
  case others => exact others_done' s u q 4 f hu ho (by rw [hT])
  case walks =>
    rw [show (u.done q 4 f).seqs.tlbs = u.seqs.tlbs from rfl, show (u.done q 4 f).seqs.walks = u.seqs.walks from rfl,
      show (u.done q 4 f).seqs.queued = u.seqs.queued from rfl, show (u.done q 4 f).seqs.answers = u.seqs.answers from rfl, hT]
    exact ⟨rfl, rfl, rfl, rfl⟩
  all_goals (first | (show u.cycle = _) | (show u.agenda = _) | (show u.inputs = _) | (show u.focus = _)| (show u.mem = _)| (show u.fab = _)| (show u.ports = _)| (show u.tasks = _)| (show u.ctxs = _)| (show u.routes = _)| (show u.outer = _))
  all_goals rw [hT]

/-! ### Objects at home -/

/-- A clock covers itself. -/
theorem covers_self (c : Clock) : c.covers c = true := by simp [Clock.covers, reaches]

/-- With every operation performed, nothing is waited for. -/
theorem depsMet_all (s : State) (l : List Nat) (h : ∀ o ∈ s.cur.ops, s.opDone s.curDie o = true) : s.depsMet s.focus.strand l = true := by
  unfold State.depsMet
  rw [Bool.not_eq_true']
  rw [List.any_eq_false]
  intro o ho
  obtain ⟨h1, h2⟩ := (mem_unperformed s o).mp ho
  rw [h o h1] at h2; exact absurd h2 (by decide)

/-- The state in which an object instruction has been sent. -/
def objectSent (s : State) (x : Span) : State := s.setCur { s.cur with progress := some ⟨s.serial, s.clock s.curDie, 1, 0, [x]⟩ }

/-- An object instruction whose object is at home and which waits for nothing, in one step. -/
theorem objectStep_of (s : State) (q d a extra n also rel ready k pa) (h : AtHome s a extra n pa also rel)
    (hr : ∀ x, ready (objectSent s x) pa (s.clock s.curDie) = true) :
    ∃ x : Span, x.pa = pa ∧ x.n = n ∧ x.va = (s.cur.reg a).toNat ∧ x.page.ms = false ∧
      s.objectStep q d a extra n rel ready k = (match k (objectSent s x) x with
        | (s1, some r) => s1.recvObject q d a r
        | (s1, none) => .next s1) := by
  obtain ⟨e, he, hms, hown, -⟩ := h.maps
  have h1 : s.curParked = false := by
    unfold State.curParked; rw [List.any_eq_false]; intro w hw; simpa using h.fresh.2.2 w hw
  have ha : (s.cur.awaits a || extra.any s.cur.awaits) = false := by
    rw [h.regs a (by simp)]; simp; intro x hx; exact h.regs x (by simp [hx])
  refine ⟨⟨(s.cur.reg a).toNat, pa, n, pageAttr e⟩, rfl, rfl, rfl, hms, ?_⟩
  unfold State.objectStep
  simp only [h.fresh.1, h1, h.fresh.2.1, ha, Bool.false_eq_true, if_false]
  unfold State.blockOf State.spanOf
  rw [if_neg (by simpa using h.aligned), he]
  simp only [h.clean, Bool.and_false, Bool.false_eq_true, if_false]
  unfold State.beginObject State.objectDeps
  rw [depsMet_all s _ h.arcs]
  have h2 : (s.reachPa s.curDie pa != .waits) = true := by simp [h.reach]
  simp only [List.all_cons, List.all_nil, h2, Bool.and_self, if_true]
  unfold State.onObject
  have h3 : ∀ x, (objectSent s x).reachPa (objectSent s x).curDie pa = .open_ := fun x => h.reach
  have h4 : ∀ x, (objectSent s x).ownedIn (pageAttr e) pa n = none := fun x => hown
  have h5 := h3 ⟨(s.cur.reg a).toNat, pa, n, pageAttr e⟩
  have h6 := h4 ⟨(s.cur.reg a).toNat, pa, n, pageAttr e⟩
  have h7 := hr ⟨(s.cur.reg a).toNat, pa, n, pageAttr e⟩
  unfold objectSent at h5 h6 h7
  simp only [h5, List.findSome?_cons, h6, List.findSome?_nil, h7, if_true]
  rfl

/-! ### Reading a range of memory -/

/-- One byte of a range. -/
theorem readN_get (m : Memory) (a n i : Nat) (h : i < n) : (readN m a n)[i]? = some (memRead m (a + i)) := by
  induction n generalizing a i with
  | zero => omega
  | succ n ih =>
    cases i with
    | zero => simp [readN]
    | succ i => simp only [readN, List.getElem?_cons_succ]; rw [ih (a + 1) i (by omega)]; congr 2; omega

/-- A range depends on its bytes alone. -/
theorem readN_ext (m m' : Memory) (a n : Nat) (h : ∀ i, i < n → memRead m (a + i) = memRead m' (a + i)) : readN m a n = readN m' a n := by
  induction n generalizing a with
  | zero => rfl
  | succ n ih =>
    simp only [readN]
    rw [show memRead m a = memRead m' a from by simpa using h 0 (by omega)]
    rw [ih (a + 1) fun i hi => by have := h (i + 1) (by omega); rwa [show a + 1 + i = a + (i + 1) by omega]]

/-- A range inside the one just written. -/
theorem readN_writeN (m : Memory) (a : Nat) (bs : List Byte) (o n : Nat) (hw : Memory.wf m = true) (h : o + n ≤ bs.length) :
   readN (writeN m a bs) (a + o) n = (bs.drop o).take n := by
  apply List.ext_getElem?
  intro i
  by_cases hi : i < n
  · rw [readN_get _ _ _ _ hi]
    rw [List.getElem?_take_of_lt hi, List.getElem?_drop]
    have hl : o + i < (bs.map some).length := by simp; omega
    have := memRead_writeOpt_inside a (o + i) (bs.map some) hw hl
    unfold writeN
    rw [show a + o + i = a + (o + i) by omega, this]
    simp
  · rw [List.getElem?_eq_none (by rw [readN_length]; omega), List.getElem?_eq_none (by simp; omega)]

end Sys2Proof.Laws
end

