-- ==== Sys2Proof/Laws/PerInstr.lean ====
section
/-! SUPPORT. One statement for each instruction, for the statements about all of them. `WordsFit`: the words the
encoder gives are at most two, and each is a word of 32 bits (R52, R60, R64). -/

namespace Sys2Proof.Laws

/-! ### The parts of a word -/

theorem bits_lt (q : Issue) (op : Nat) (h : op < 64) : q.bits op < 2 ^ 32 ∧ q.bits op % 2 ^ 23 = 0 := by
  have := q.gap.isLt
  unfold Issue.bits
  split <;> omega

theorem bit_lt (b : Bool) : bit b < 2 := by cases b <;> decide
theorem size_code_lt (z : Size) : z.code < 4 := by cases z <;> decide
theorem memOrd_code_lt (o : MemOrd) : o.code < 4 := by cases o <;> decide
theorem scope_code_lt (c : Scope) : c.code < 8 := by cases c <;> decide
theorem fenceKind_code_lt (k : FenceKind) : k.code < 4 := by cases k <;> decide
theorem handleCond_code_lt (c : HandleCond) : c.code < 4 := by cases c <;> decide
theorem aop_code_lt (o : AOp) : o.code < 16 := by cases o <;> decide
theorem pupd_code_lt (m : PUpd) : m.code < 4 := by cases m <;> decide
theorem esize_code_lt (z : ESize) : z.code < 4 := by cases z <;> decide
theorem loopPredCode_lt (p : Option PReg) : loopPredCode p < 32 := by
  cases p with
  | none => decide
  | some p => have := p.isLt; simp only [loopPredCode]; omega
theorem src_code_lt (a : Src) : a.code < 32 := by
  cases a <;> simp only [Src.code] <;> (try decide) <;> (rename_i n; have := n.isLt; omega)
theorem dst_code_lt (a : Dst) : a.code < 32 := by
  cases a <;> simp only [Dst.code] <;> (try decide) <;> (rename_i n; have := n.isLt; omega)

/-! ### The formats -/

theorem encQ3_lt (q : Issue) (op fn : Nat) (d a b : GReg) (h : op < 64) (hf : fn < 256) : encQ3 q op d a b fn < 2 ^ 32 := by
  have := bits_lt q op h; have := d.isLt; have := a.isLt; have := b.isLt; unfold encQ3; omega
theorem encQI_lt (q : Issue) (op : Nat) (d a : GReg) (imm : BitVec 13) (h : op < 64) : encQI q op d a imm < 2 ^ 32 := by
  have := bits_lt q op h; have := d.isLt; have := a.isLt; have := imm.isLt; unfold encQI; omega
theorem encQU_lt (q : Issue) (op : Nat) (d : GReg) (imm : BitVec 18) (h : op < 64) : encQU q op d imm < 2 ^ 32 := by
  have := bits_lt q op h; have := d.isLt; have := imm.isLt; unfold encQU; omega
theorem encQM_lt (q : Issue) (op : Nat) (d a : GReg) (off : BitVec 9) (sz : Size) (o : MemOrd) (h : op < 64) :
    encQM q op d a off sz o < 2 ^ 32 := by
  have := bits_lt q op h; have := d.isLt; have := a.isLt; have := off.isLt
  have := size_code_lt sz; have := memOrd_code_lt o; unfold encQM; omega
theorem encQA_lt (q : Issue) (d a b : GReg) (o : Nat) (sc : Scope) (dbl : Bool) (h : o < 16) :
    encQA q d a b o sc dbl < 2 ^ 32 := by
  have := bits_lt q 0x19 (by decide); have := d.isLt; have := a.isLt; have := b.isLt
  have := scope_code_lt sc; unfold encQA; split <;> omega
theorem encQE_lt (q : Issue) (op : Nat) (d a b c : GReg) (sub : Nat) (h : op < 64) (hs : sub < 8) :
    encQE q op d a b c sub < 2 ^ 32 := by
  have := bits_lt q op h; have := d.isLt; have := a.isLt; have := b.isLt; have := c.isLt; unfold encQE; omega
theorem encQC_lt (q : Issue) (d a : GReg) (o : Nat) (n : BitVec 11) (h : o < 4) : encQC q d a o n < 2 ^ 32 := by
  have := bits_lt q 0x28 (by decide); have := d.isLt; have := a.isLt; have := n.isLt; unfold encQC; omega
theorem encQL_lt (q : Issue) (d : GReg) (sub hi lo : Nat) (hs : sub < 32) (hh : hi < 2 ^ 13) (hl : lo < 2 ^ 32) :
    ∀ w ∈ encQL q d sub hi lo, w < 2 ^ 32 := by
  have := bits_lt q 0x3F (by decide); have := d.isLt
  intro w hw
  simp only [encQL, List.mem_cons, List.not_mem_nil, or_false] at hw
  rcases hw with rfl | rfl <;> omega
theorem encEA_lt (op : Nat) (f : EA) (h : op < 128) : encEA op f < 2 ^ 32 := by
  have := dst_code_lt f.d; have := src_code_lt f.a; have := src_code_lt f.b
  have := f.pd.isLt; have := pupd_code_lt f.pm; have := f.tg.isLt; have := f.md.isLt; unfold encEA; omega
theorem encEI_lt (op : Nat) (d : Dst) (a : Src) (imm : BitVec 15) (h : op < 128) : encEI op d a imm < 2 ^ 32 := by
  have := dst_code_lt d; have := src_code_lt a; have := imm.isLt; unfold encEI; omega
theorem encEM_lt (op d a : Nat) (site : SiteNo) (b z : Nat) (h : op < 128) (hd : d < 32) (ha : a < 32) (hb : b < 32)
    (hz : z < 16) : encEM op d a site b z < 2 ^ 32 := by
  have := site.isLt; unfold encEM; omega
theorem encEC_lt (op d a b f t m : Nat) (h : op < 128) (hd : d < 32) (ha : a < 32) (hb : b < 32) (hf : f < 32) (ht : t < 8)
    (hm : m < 4) : encEC op d a b f t m < 2 ^ 32 := by
  unfold encEC; omega
theorem encP_lt (op : Nat) (x y z : PReg) (m : Nat) (h : op < 128) (hm : m < 4) : encP op x y z m < 2 ^ 32 := by
  have := x.isLt; have := y.isLt; have := z.isLt; unfold encP; omega

/-- An instruction of one word. -/
theorem oneWord {w : Nat} (h : w < 2 ^ 32) : [w].length ≤ 2 ∧ ∀ v ∈ [w], v < 2 ^ 32 :=
  ⟨Nat.le_succ 1, fun _ hv => (List.mem_singleton.mp hv) ▸ h⟩

/-- The words of an instruction are at most two, each below 2^32. -/
def WordsFit.Statement (i : Instr) : Prop := (encode i).length ≤ 2 ∧ ∀ w ∈ encode i, w < 2 ^ 32

/-- An event has no word. -/
theorem noWord {i : Instr} (h : encode i = []) : WordsFit.Statement i := by
  unfold WordsFit.Statement; rw [h]; exact ⟨by decide, fun _ hv => nomatch hv⟩

theorem WordsFit.add (q : Issue) (d a b : GReg) : WordsFit.Statement (.add q d a b) := oneWord (encQ3_lt _ _ _ _ _ _ (by decide) (by decide))
theorem WordsFit.sub (q : Issue) (d a b : GReg) : WordsFit.Statement (.sub q d a b) := oneWord (encQ3_lt _ _ _ _ _ _ (by decide) (by decide))
theorem WordsFit.and (q : Issue) (d a b : GReg) : WordsFit.Statement (.and q d a b) := oneWord (encQ3_lt _ _ _ _ _ _ (by decide) (by decide))
theorem WordsFit.or (q : Issue) (d a b : GReg) : WordsFit.Statement (.or q d a b) := oneWord (encQ3_lt _ _ _ _ _ _ (by decide) (by decide))
theorem WordsFit.xor (q : Issue) (d a b : GReg) : WordsFit.Statement (.xor q d a b) := oneWord (encQ3_lt _ _ _ _ _ _ (by decide) (by decide))
theorem WordsFit.andn (q : Issue) (d a b : GReg) : WordsFit.Statement (.andn q d a b) := oneWord (encQ3_lt _ _ _ _ _ _ (by decide) (by decide))
theorem WordsFit.shl (q : Issue) (d a b : GReg) : WordsFit.Statement (.shl q d a b) := oneWord (encQ3_lt _ _ _ _ _ _ (by decide) (by decide))
theorem WordsFit.shr (q : Issue) (d a b : GReg) : WordsFit.Statement (.shr q d a b) := oneWord (encQ3_lt _ _ _ _ _ _ (by decide) (by decide))
theorem WordsFit.sha (q : Issue) (d a b : GReg) : WordsFit.Statement (.sha q d a b) := oneWord (encQ3_lt _ _ _ _ _ _ (by decide) (by decide))
theorem WordsFit.min (q : Issue) (d a b : GReg) : WordsFit.Statement (.min q d a b) := oneWord (encQ3_lt _ _ _ _ _ _ (by decide) (by decide))
theorem WordsFit.max (q : Issue) (d a b : GReg) : WordsFit.Statement (.max q d a b) := oneWord (encQ3_lt _ _ _ _ _ _ (by decide) (by decide))
theorem WordsFit.minn (q : Issue) (d a b : GReg) : WordsFit.Statement (.minn q d a b) := oneWord (encQ3_lt _ _ _ _ _ _ (by decide) (by decide))
theorem WordsFit.maxn (q : Issue) (d a b : GReg) : WordsFit.Statement (.maxn q d a b) := oneWord (encQ3_lt _ _ _ _ _ _ (by decide) (by decide))
theorem WordsFit.slt (q : Issue) (d a b : GReg) : WordsFit.Statement (.slt q d a b) := oneWord (encQ3_lt _ _ _ _ _ _ (by decide) (by decide))
theorem WordsFit.sltn (q : Issue) (d a b : GReg) : WordsFit.Statement (.sltn q d a b) := oneWord (encQ3_lt _ _ _ _ _ _ (by decide) (by decide))
theorem WordsFit.mul (q : Issue) (d a b : GReg) : WordsFit.Statement (.mul q d a b) := oneWord (encQ3_lt _ _ _ _ _ _ (by decide) (by decide))
theorem WordsFit.mulh (q : Issue) (d a b : GReg) : WordsFit.Statement (.mulh q d a b) := oneWord (encQ3_lt _ _ _ _ _ _ (by decide) (by decide))
theorem WordsFit.mulhn (q : Issue) (d a b : GReg) : WordsFit.Statement (.mulhn q d a b) := oneWord (encQ3_lt _ _ _ _ _ _ (by decide) (by decide))
theorem WordsFit.div (q : Issue) (d a b : GReg) : WordsFit.Statement (.div q d a b) := oneWord (encQ3_lt _ _ _ _ _ _ (by decide) (by decide))
theorem WordsFit.divn (q : Issue) (d a b : GReg) : WordsFit.Statement (.divn q d a b) := oneWord (encQ3_lt _ _ _ _ _ _ (by decide) (by decide))
theorem WordsFit.rem (q : Issue) (d a b : GReg) : WordsFit.Statement (.rem q d a b) := oneWord (encQ3_lt _ _ _ _ _ _ (by decide) (by decide))
theorem WordsFit.remn (q : Issue) (d a b : GReg) : WordsFit.Statement (.remn q d a b) := oneWord (encQ3_lt _ _ _ _ _ _ (by decide) (by decide))
theorem WordsFit.clz (q : Issue) (d a : GReg) : WordsFit.Statement (.clz q d a) := oneWord (encQ3_lt _ _ _ _ _ _ (by decide) (by decide))
theorem WordsFit.popc (q : Issue) (d a : GReg) : WordsFit.Statement (.popc q d a) := oneWord (encQ3_lt _ _ _ _ _ _ (by decide) (by decide))
theorem WordsFit.home (q : Issue) (d a : GReg) : WordsFit.Statement (.home q d a) := oneWord (encQ3_lt _ _ _ _ _ _ (by decide) (by decide))
theorem WordsFit.addi (q : Issue) (d a : GReg) (imm : BitVec 13) : WordsFit.Statement (.addi q d a imm) := oneWord (encQI_lt _ _ _ _ _ (by decide))
theorem WordsFit.andi (q : Issue) (d a : GReg) (imm : BitVec 13) : WordsFit.Statement (.andi q d a imm) := oneWord (encQI_lt _ _ _ _ _ (by decide))
theorem WordsFit.ori (q : Issue) (d a : GReg) (imm : BitVec 13) : WordsFit.Statement (.ori q d a imm) := oneWord (encQI_lt _ _ _ _ _ (by decide))
theorem WordsFit.xori (q : Issue) (d a : GReg) (imm : BitVec 13) : WordsFit.Statement (.xori q d a imm) := oneWord (encQI_lt _ _ _ _ _ (by decide))
theorem WordsFit.slti (q : Issue) (d a : GReg) (imm : BitVec 13) : WordsFit.Statement (.slti q d a imm) := oneWord (encQI_lt _ _ _ _ _ (by decide))
theorem WordsFit.sltni (q : Issue) (d a : GReg) (imm : BitVec 13) : WordsFit.Statement (.sltni q d a imm) := oneWord (encQI_lt _ _ _ _ _ (by decide))
theorem WordsFit.shli (q : Issue) (d a : GReg) (imm : BitVec 13) : WordsFit.Statement (.shli q d a imm) := oneWord (encQI_lt _ _ _ _ _ (by decide))
theorem WordsFit.shri (q : Issue) (d a : GReg) (imm : BitVec 13) : WordsFit.Statement (.shri q d a imm) := oneWord (encQI_lt _ _ _ _ _ (by decide))
theorem WordsFit.shai (q : Issue) (d a : GReg) (imm : BitVec 13) : WordsFit.Statement (.shai q d a imm) := oneWord (encQI_lt _ _ _ _ _ (by decide))
theorem WordsFit.lui (q : Issue) (d : GReg) (imm : BitVec 18) : WordsFit.Statement (.lui q d imm) := oneWord (encQU_lt _ _ _ _ (by decide))
theorem WordsFit.jal (q : Issue) (d : GReg) (off : BitVec 18) : WordsFit.Statement (.jal q d off) := oneWord (encQU_lt _ _ _ _ (by decide))
theorem WordsFit.jalr (q : Issue) (d a : GReg) (imm : BitVec 13) : WordsFit.Statement (.jalr q d a imm) := oneWord (encQI_lt _ _ _ _ _ (by decide))
theorem WordsFit.beq (q : Issue) (a b : GReg) (off : BitVec 13) : WordsFit.Statement (.beq q a b off) := oneWord (encQI_lt _ _ _ _ _ (by decide))
theorem WordsFit.bne (q : Issue) (a b : GReg) (off : BitVec 13) : WordsFit.Statement (.bne q a b off) := oneWord (encQI_lt _ _ _ _ _ (by decide))
theorem WordsFit.blt (q : Issue) (a b : GReg) (off : BitVec 13) : WordsFit.Statement (.blt q a b off) := oneWord (encQI_lt _ _ _ _ _ (by decide))
theorem WordsFit.bge (q : Issue) (a b : GReg) (off : BitVec 13) : WordsFit.Statement (.bge q a b off) := oneWord (encQI_lt _ _ _ _ _ (by decide))
theorem WordsFit.bltn (q : Issue) (a b : GReg) (off : BitVec 13) : WordsFit.Statement (.bltn q a b off) := oneWord (encQI_lt _ _ _ _ _ (by decide))
theorem WordsFit.bgen (q : Issue) (a b : GReg) (off : BitVec 13) : WordsFit.Statement (.bgen q a b off) := oneWord (encQI_lt _ _ _ _ _ (by decide))
theorem WordsFit.loop (q : Issue) (a : GReg) (off : BitVec 13) : WordsFit.Statement (.loop q a off) := oneWord (encQI_lt _ _ _ _ _ (by decide))
theorem WordsFit.btst (q : Issue) (a : GReg) (cond : HandleCond) (off : BitVec 13) : WordsFit.Statement (.btst q a cond off) := oneWord (encQI_lt _ _ _ _ _ (by decide))
theorem WordsFit.ld (q : Issue) (d a : GReg) (off : BitVec 9) (sz : Size) (ord : MemOrd) : WordsFit.Statement (.ld q d a off sz ord) := oneWord (encQM_lt _ _ _ _ _ _ _ (by decide))
theorem WordsFit.ldn (q : Issue) (d a : GReg) (off : BitVec 9) (sz : Size) (ord : MemOrd) : WordsFit.Statement (.ldn q d a off sz ord) := oneWord (encQM_lt _ _ _ _ _ _ _ (by decide))
theorem WordsFit.st (q : Issue) (d a : GReg) (off : BitVec 9) (sz : Size) (ord : MemOrd) : WordsFit.Statement (.st q d a off sz ord) := oneWord (encQM_lt _ _ _ _ _ _ _ (by decide))
theorem WordsFit.aadd (q : Issue) (d a b : GReg) (scope : Scope) (dbl : Bool) : WordsFit.Statement (.aadd q d a b scope dbl) := oneWord (encQA_lt _ _ _ _ _ _ _ (by decide))
theorem WordsFit.aand (q : Issue) (d a b : GReg) (scope : Scope) (dbl : Bool) : WordsFit.Statement (.aand q d a b scope dbl) := oneWord (encQA_lt _ _ _ _ _ _ _ (by decide))
theorem WordsFit.aor (q : Issue) (d a b : GReg) (scope : Scope) (dbl : Bool) : WordsFit.Statement (.aor q d a b scope dbl) := oneWord (encQA_lt _ _ _ _ _ _ _ (by decide))
theorem WordsFit.axor (q : Issue) (d a b : GReg) (scope : Scope) (dbl : Bool) : WordsFit.Statement (.axor q d a b scope dbl) := oneWord (encQA_lt _ _ _ _ _ _ _ (by decide))
theorem WordsFit.amin (q : Issue) (d a b : GReg) (scope : Scope) (dbl : Bool) : WordsFit.Statement (.amin q d a b scope dbl) := oneWord (encQA_lt _ _ _ _ _ _ _ (by decide))
theorem WordsFit.amax (q : Issue) (d a b : GReg) (scope : Scope) (dbl : Bool) : WordsFit.Statement (.amax q d a b scope dbl) := oneWord (encQA_lt _ _ _ _ _ _ _ (by decide))
theorem WordsFit.aminn (q : Issue) (d a b : GReg) (scope : Scope) (dbl : Bool) : WordsFit.Statement (.aminn q d a b scope dbl) := oneWord (encQA_lt _ _ _ _ _ _ _ (by decide))
theorem WordsFit.amaxn (q : Issue) (d a b : GReg) (scope : Scope) (dbl : Bool) : WordsFit.Statement (.amaxn q d a b scope dbl) := oneWord (encQA_lt _ _ _ _ _ _ _ (by decide))
theorem WordsFit.aswap (q : Issue) (d a b : GReg) (scope : Scope) (dbl : Bool) : WordsFit.Statement (.aswap q d a b scope dbl) := oneWord (encQA_lt _ _ _ _ _ _ _ (by decide))
theorem WordsFit.acas (q : Issue) (d a b : GReg) (scope : Scope) (dbl : Bool) : WordsFit.Statement (.acas q d a b scope dbl) := oneWord (encQA_lt _ _ _ _ _ _ _ (by decide))
theorem WordsFit.afadd (q : Issue) (d a b : GReg) (scope : Scope) : WordsFit.Statement (.afadd q d a b scope) := oneWord (encQA_lt _ _ _ _ _ _ _ (by decide))
theorem WordsFit.abfadd2 (q : Issue) (d a b : GReg) (scope : Scope) : WordsFit.Statement (.abfadd2 q d a b scope) := oneWord (encQA_lt _ _ _ _ _ _ _ (by decide))
theorem WordsFit.fence (q : Issue) (scope : Scope) (kind : FenceKind) : WordsFit.Statement (.fence q scope kind) := by
  have := scope_code_lt scope; have := fenceKind_code_lt kind
  have := bits_lt q 0x1A (by decide)
  exact oneWord (by omega)
theorem WordsFit.wait (q : Issue) (ld st cp tl bk : BitVec 4) : WordsFit.Statement (.wait q ld st cp tl bk) := by
  have := ld.isLt; have := st.isLt; have := cp.isLt; have := tl.isLt; have := bk.isLt
  have := bits_lt q 0x1B (by decide)
  exact oneWord (by omega)
theorem WordsFit.clean (q : Issue) (a b : GReg) : WordsFit.Statement (.clean q a b) := oneWord (encQE_lt _ _ _ _ _ _ _ (by decide) (by decide))
theorem WordsFit.inval (q : Issue) (a b : GReg) : WordsFit.Statement (.inval q a b) := oneWord (encQE_lt _ _ _ _ _ _ _ (by decide) (by decide))
theorem WordsFit.flush (q : Issue) (a b : GReg) : WordsFit.Statement (.flush q a b) := oneWord (encQE_lt _ _ _ _ _ _ _ (by decide) (by decide))
theorem WordsFit.discard (q : Issue) (a b : GReg) : WordsFit.Statement (.discard q a b) := oneWord (encQE_lt _ _ _ _ _ _ _ (by decide) (by decide))
theorem WordsFit.pref (q : Issue) (a b : GReg) : WordsFit.Statement (.pref q a b) := oneWord (encQE_lt _ _ _ _ _ _ _ (by decide) (by decide))
theorem WordsFit.enq (q : Issue) (a b : GReg) : WordsFit.Statement (.enq q a b) := oneWord (encQE_lt _ _ _ _ _ _ _ (by decide) (by decide))
theorem WordsFit.tenq (q : Issue) (d a b : GReg) : WordsFit.Statement (.tenq q d a b) := oneWord (encQE_lt _ _ _ _ _ _ _ (by decide) (by decide))
theorem WordsFit.deq (q : Issue) (d a b : GReg) : WordsFit.Statement (.deq q d a b) := oneWord (encQE_lt _ _ _ _ _ _ _ (by decide) (by decide))
theorem WordsFit.tdeq (q : Issue) (d a b c : GReg) : WordsFit.Statement (.tdeq q d a b c) := oneWord (encQE_lt _ _ _ _ _ _ _ (by decide) (by decide))
theorem WordsFit.qinit (q : Issue) (d a : GReg) : WordsFit.Statement (.qinit q d a) := oneWord (encQE_lt _ _ _ _ _ _ _ (by decide) (by decide))
theorem WordsFit.qstat (q : Issue) (d a : GReg) : WordsFit.Statement (.qstat q d a) := oneWord (encQE_lt _ _ _ _ _ _ _ (by decide) (by decide))
theorem WordsFit.qdrain (q : Issue) (d a b : GReg) : WordsFit.Statement (.qdrain q d a b) := oneWord (encQE_lt _ _ _ _ _ _ _ (by decide) (by decide))
theorem WordsFit.binit (q : Issue) (d a b : GReg) : WordsFit.Statement (.binit q d a b) := oneWord (encQE_lt _ _ _ _ _ _ _ (by decide) (by decide))
theorem WordsFit.barr (q : Issue) (d a : GReg) : WordsFit.Statement (.barr q d a) := oneWord (encQE_lt _ _ _ _ _ _ _ (by decide) (by decide))
theorem WordsFit.bwait (q : Issue) (d a b : GReg) : WordsFit.Statement (.bwait q d a b) := oneWord (encQE_lt _ _ _ _ _ _ _ (by decide) (by decide))
theorem WordsFit.barw (q : Issue) (d a : GReg) : WordsFit.Statement (.barw q d a) := oneWord (encQE_lt _ _ _ _ _ _ _ (by decide) (by decide))
theorem WordsFit.bquery (q : Issue) (d a : GReg) : WordsFit.Statement (.bquery q d a) := oneWord (encQE_lt _ _ _ _ _ _ _ (by decide) (by decide))
theorem WordsFit.bpoison (q : Issue) (d a b : GReg) : WordsFit.Statement (.bpoison q d a b) := oneWord (encQE_lt _ _ _ _ _ _ _ (by decide) (by decide))
theorem WordsFit.launch (q : Issue) (d a : GReg) : WordsFit.Statement (.launch q d a) := oneWord (encQE_lt _ _ _ _ _ _ _ (by decide) (by decide))
theorem WordsFit.tdone (q : Issue) (a : GReg) : WordsFit.Statement (.tdone q a) := oneWord (encQE_lt _ _ _ _ _ _ _ (by decide) (by decide))
theorem WordsFit.tstat (q : Issue) (d a : GReg) : WordsFit.Statement (.tstat q d a) := oneWord (encQE_lt _ _ _ _ _ _ _ (by decide) (by decide))
theorem WordsFit.cfgld (q : Issue) (d a b c : GReg) : WordsFit.Statement (.cfgld q d a b c) := oneWord (encQE_lt _ _ _ _ _ _ _ (by decide) (by decide))
theorem WordsFit.place (q : Issue) (d a b : GReg) : WordsFit.Statement (.place q d a b) := oneWord (encQE_lt _ _ _ _ _ _ _ (by decide) (by decide))
theorem WordsFit.cfgdrop (q : Issue) (d a : GReg) : WordsFit.Statement (.cfgdrop q d a) := oneWord (encQE_lt _ _ _ _ _ _ _ (by decide) (by decide))
theorem WordsFit.gcall (q : Issue) (d a b : GReg) : WordsFit.Statement (.gcall q d a b) := oneWord (encQE_lt _ _ _ _ _ _ _ (by decide) (by decide))
theorem WordsFit.gret (q : Issue) (d : GReg) : WordsFit.Statement (.gret q d) := oneWord (encQE_lt _ _ _ _ _ _ _ (by decide) (by decide))
theorem WordsFit.strm (q : Issue) (d a b : GReg) : WordsFit.Statement (.strm q d a b) := oneWord (encQE_lt _ _ _ _ _ _ _ (by decide) (by decide))
theorem WordsFit.strmw (q : Issue) (d a b : GReg) : WordsFit.Statement (.strmw q d a b) := oneWord (encQE_lt _ _ _ _ _ _ _ (by decide) (by decide))
theorem WordsFit.strmc (q : Issue) (d a : GReg) : WordsFit.Statement (.strmc q d a) := oneWord (encQE_lt _ _ _ _ _ _ _ (by decide) (by decide))
theorem WordsFit.copy (q : Issue) (d a b c : GReg) : WordsFit.Statement (.copy q d a b c) := oneWord (encQE_lt _ _ _ _ _ _ _ (by decide) (by decide))
theorem WordsFit.fill (q : Issue) (d a b c : GReg) : WordsFit.Statement (.fill q d a b c) := oneWord (encQE_lt _ _ _ _ _ _ _ (by decide) (by decide))
theorem WordsFit.bfadd (q : Issue) (d a b c : GReg) : WordsFit.Statement (.bfadd q d a b c) := oneWord (encQE_lt _ _ _ _ _ _ _ (by decide) (by decide))
theorem WordsFit.bfmul (q : Issue) (d a b c : GReg) : WordsFit.Statement (.bfmul q d a b c) := oneWord (encQE_lt _ _ _ _ _ _ _ (by decide) (by decide))
theorem WordsFit.iadd32 (q : Issue) (d a b c : GReg) : WordsFit.Statement (.iadd32 q d a b c) := oneWord (encQE_lt _ _ _ _ _ _ _ (by decide) (by decide))
theorem WordsFit.fadd32 (q : Issue) (d a b c : GReg) : WordsFit.Statement (.fadd32 q d a b c) := oneWord (encQE_lt _ _ _ _ _ _ _ (by decide) (by decide))
theorem WordsFit.bfmax (q : Issue) (d a b c : GReg) : WordsFit.Statement (.bfmax q d a b c) := oneWord (encQE_lt _ _ _ _ _ _ _ (by decide) (by decide))
theorem WordsFit.rowcp (q : Issue) (d a b c : GReg) : WordsFit.Statement (.rowcp q d a b c) := oneWord (encQE_lt _ _ _ _ _ _ _ (by decide) (by decide))
theorem WordsFit.rowzero (q : Issue) (d a b : GReg) : WordsFit.Statement (.rowzero q d a b) := oneWord (encQE_lt _ _ _ _ _ _ _ (by decide) (by decide))
theorem WordsFit.subscr (q : Issue) (d a b : GReg) : WordsFit.Statement (.subscr q d a b) := oneWord (encQE_lt _ _ _ _ _ _ _ (by decide) (by decide))
theorem WordsFit.unsub (q : Issue) (d a b : GReg) : WordsFit.Statement (.unsub q d a b) := oneWord (encQE_lt _ _ _ _ _ _ _ (by decide) (by decide))
theorem WordsFit.sweep (q : Issue) (d a b : GReg) : WordsFit.Statement (.sweep q d a b) := oneWord (encQE_lt _ _ _ _ _ _ _ (by decide) (by decide))
theorem WordsFit.swait (q : Issue) (d a : GReg) : WordsFit.Statement (.swait q d a) := oneWord (encQE_lt _ _ _ _ _ _ _ (by decide) (by decide))
theorem WordsFit.pksend (q : Issue) (d a b c : GReg) : WordsFit.Statement (.pksend q d a b c) := oneWord (encQE_lt _ _ _ _ _ _ _ (by decide) (by decide))
theorem WordsFit.cmask (q : Issue) (d a : GReg) : WordsFit.Statement (.cmask q d a) := oneWord (encQE_lt _ _ _ _ _ _ _ (by decide) (by decide))
theorem WordsFit.cunmask (q : Issue) (d a : GReg) : WordsFit.Statement (.cunmask q d a) := oneWord (encQE_lt _ _ _ _ _ _ _ (by decide) (by decide))
theorem WordsFit.nop (q : Issue) : WordsFit.Statement (.nop q) := oneWord (encQ3_lt _ _ _ _ _ _ (by decide) (by decide))
theorem WordsFit.eret (q : Issue) : WordsFit.Statement (.eret q) := oneWord (encQ3_lt _ _ _ _ _ _ (by decide) (by decide))
theorem WordsFit.halt (q : Issue) : WordsFit.Statement (.halt q) := oneWord (encQ3_lt _ _ _ _ _ _ (by decide) (by decide))
theorem WordsFit.idle (q : Issue) : WordsFit.Statement (.idle q) := oneWord (encQ3_lt _ _ _ _ _ _ (by decide) (by decide))
theorem WordsFit.yield (q : Issue) : WordsFit.Statement (.yield q) := oneWord (encQ3_lt _ _ _ _ _ _ (by decide) (by decide))
theorem WordsFit.tlbi (q : Issue) (d a b : GReg) : WordsFit.Statement (.tlbi q d a b) := oneWord (encQ3_lt _ _ _ _ _ _ (by decide) (by decide))
theorem WordsFit.tlbia (q : Issue) (d : GReg) : WordsFit.Statement (.tlbia q d) := oneWord (encQ3_lt _ _ _ _ _ _ (by decide) (by decide))
theorem WordsFit.freeze (q : Issue) (d a b : GReg) : WordsFit.Statement (.freeze q d a b) := oneWord (encQ3_lt _ _ _ _ _ _ (by decide) (by decide))
theorem WordsFit.thaw (q : Issue) (d a b : GReg) : WordsFit.Statement (.thaw q d a b) := oneWord (encQ3_lt _ _ _ _ _ _ (by decide) (by decide))
theorem WordsFit.kill (q : Issue) (d a b : GReg) : WordsFit.Statement (.kill q d a b) := oneWord (encQ3_lt _ _ _ _ _ _ (by decide) (by decide))
theorem WordsFit.ctxsw (q : Issue) (d a : GReg) : WordsFit.Statement (.ctxsw q d a) := oneWord (encQ3_lt _ _ _ _ _ _ (by decide) (by decide))
theorem WordsFit.csrr (q : Issue) (d : GReg) (csr : BitVec 11) : WordsFit.Statement (.csrr q d csr) := oneWord (encQC_lt _ _ _ _ _ (by decide))
theorem WordsFit.csrw (q : Issue) (d a : GReg) (csr : BitVec 11) : WordsFit.Statement (.csrw q d a csr) := oneWord (encQC_lt _ _ _ _ _ (by decide))
theorem WordsFit.csrs (q : Issue) (d a : GReg) (csr : BitVec 11) : WordsFit.Statement (.csrs q d a csr) := oneWord (encQC_lt _ _ _ _ _ (by decide))
theorem WordsFit.csrc (q : Issue) (d a : GReg) (csr : BitVec 11) : WordsFit.Statement (.csrc q d a csr) := oneWord (encQC_lt _ _ _ _ _ (by decide))
theorem WordsFit.phase (q : Issue) (a : GReg) : WordsFit.Statement (.phase q a) := oneWord (encQE_lt _ _ _ _ _ _ _ (by decide) (by decide))
theorem WordsFit.evsch (q : Issue) (a b : GReg) : WordsFit.Statement (.evsch q a b) := oneWord (encQE_lt _ _ _ _ _ _ _ (by decide) (by decide))
theorem WordsFit.trap (q : Issue) (code : BitVec 18) : WordsFit.Statement (.trap q code) := oneWord (encQU_lt _ _ _ _ (by decide))
theorem WordsFit.limm (q : Issue) (d : GReg) (imm : BitVec 45) : WordsFit.Statement (.limm q d imm) := by
  have := d.isLt; have := imm.isLt
  exact ⟨Nat.le_refl 2, encQL_lt _ _ _ _ _ (by decide) (by omega) (by omega)⟩
theorem WordsFit.ldl (q : Issue) (d a : GReg) (off : BitVec 40) : WordsFit.Statement (.ldl q d a off) := by
  have := d.isLt; have := a.isLt; have := off.isLt
  exact ⟨Nat.le_refl 2, encQL_lt _ _ _ _ _ (by decide) (by omega) (by omega)⟩
theorem WordsFit.stl (q : Issue) (d a : GReg) (off : BitVec 40) : WordsFit.Statement (.stl q d a off) := by
  have := d.isLt; have := a.isLt; have := off.isLt
  exact ⟨Nat.le_refl 2, encQL_lt _ _ _ _ _ (by decide) (by omega) (by omega)⟩
theorem WordsFit.jall (q : Issue) (d : GReg) (off : BitVec 45) : WordsFit.Statement (.jall q d off) := by
  have := d.isLt; have := off.isLt
  exact ⟨Nat.le_refl 2, encQL_lt _ _ _ _ _ (by decide) (by omega) (by omega)⟩
theorem WordsFit.eNop (a b : Src) : WordsFit.Statement (.eNop a b) := oneWord (encEA_lt _ _ (by decide))
theorem WordsFit.mov (f : EA) : WordsFit.Statement (.mov f) := oneWord (encEA_lt _ _ (by decide))
theorem WordsFit.movi (d : Dst) (imm : BitVec 15) : WordsFit.Statement (.movi d imm) := oneWord (encEI_lt _ _ _ _ (by decide))
theorem WordsFit.movhi (f : EI) : WordsFit.Statement (.movhi f) := oneWord (encEI_lt _ _ _ _ (by decide))
theorem WordsFit.iadd (f : EA) : WordsFit.Statement (.iadd f) := oneWord (encEA_lt _ _ (by decide))
theorem WordsFit.isub (f : EA) : WordsFit.Statement (.isub f) := oneWord (encEA_lt _ _ (by decide))
theorem WordsFit.iadds (f : EA) : WordsFit.Statement (.iadds f) := oneWord (encEA_lt _ _ (by decide))
theorem WordsFit.isubs (f : EA) : WordsFit.Statement (.isubs f) := oneWord (encEA_lt _ _ (by decide))
theorem WordsFit.imul (f : EA) : WordsFit.Statement (.imul f) := oneWord (encEA_lt _ _ (by decide))
theorem WordsFit.imulh (f : EA) : WordsFit.Statement (.imulh f) := oneWord (encEA_lt _ _ (by decide))
theorem WordsFit.imulhn (f : EA) : WordsFit.Statement (.imulhn f) := oneWord (encEA_lt _ _ (by decide))
theorem WordsFit.imad (f : EA) : WordsFit.Statement (.imad f) := oneWord (encEA_lt _ _ (by decide))
theorem WordsFit.imin (f : EA) : WordsFit.Statement (.imin f) := oneWord (encEA_lt _ _ (by decide))
theorem WordsFit.imax (f : EA) : WordsFit.Statement (.imax f) := oneWord (encEA_lt _ _ (by decide))
theorem WordsFit.nmin (f : EA) : WordsFit.Statement (.nmin f) := oneWord (encEA_lt _ _ (by decide))
theorem WordsFit.nmax (f : EA) : WordsFit.Statement (.nmax f) := oneWord (encEA_lt _ _ (by decide))
theorem WordsFit.iabs (f : EA) : WordsFit.Statement (.iabs f) := oneWord (encEA_lt _ _ (by decide))
theorem WordsFit.eAnd (f : EA) : WordsFit.Statement (.eAnd f) := oneWord (encEA_lt _ _ (by decide))
theorem WordsFit.eOr (f : EA) : WordsFit.Statement (.eOr f) := oneWord (encEA_lt _ _ (by decide))
theorem WordsFit.eXor (f : EA) : WordsFit.Statement (.eXor f) := oneWord (encEA_lt _ _ (by decide))
theorem WordsFit.eAndn (f : EA) : WordsFit.Statement (.eAndn f) := oneWord (encEA_lt _ _ (by decide))
theorem WordsFit.eShl (f : EA) : WordsFit.Statement (.eShl f) := oneWord (encEA_lt _ _ (by decide))
theorem WordsFit.eShr (f : EA) : WordsFit.Statement (.eShr f) := oneWord (encEA_lt _ _ (by decide))
theorem WordsFit.eSha (f : EA) : WordsFit.Statement (.eSha f) := oneWord (encEA_lt _ _ (by decide))
theorem WordsFit.sel (f : EA) : WordsFit.Statement (.sel f) := oneWord (encEA_lt _ _ (by decide))
theorem WordsFit.iaddi (f : EI) : WordsFit.Statement (.iaddi f) := oneWord (encEI_lt _ _ _ _ (by decide))
theorem WordsFit.eAndi (f : EI) : WordsFit.Statement (.eAndi f) := oneWord (encEI_lt _ _ _ _ (by decide))
theorem WordsFit.eShli (f : EI) : WordsFit.Statement (.eShli f) := oneWord (encEI_lt _ _ _ _ (by decide))
theorem WordsFit.eShri (f : EI) : WordsFit.Statement (.eShri f) := oneWord (encEI_lt _ _ _ _ (by decide))
theorem WordsFit.ePopc (f : EA) : WordsFit.Statement (.ePopc f) := oneWord (encEA_lt _ _ (by decide))
theorem WordsFit.eClz (f : EA) : WordsFit.Statement (.eClz f) := oneWord (encEA_lt _ _ (by decide))
theorem WordsFit.idot4 (f : EA) : WordsFit.Statement (.idot4 f) := oneWord (encEA_lt _ _ (by decide))
theorem WordsFit.fadd (f : EA) : WordsFit.Statement (.fadd f) := oneWord (encEA_lt _ _ (by decide))
theorem WordsFit.fsub (f : EA) : WordsFit.Statement (.fsub f) := oneWord (encEA_lt _ _ (by decide))
theorem WordsFit.fmul (f : EA) : WordsFit.Statement (.fmul f) := oneWord (encEA_lt _ _ (by decide))
theorem WordsFit.ffma (f : EA) : WordsFit.Statement (.ffma f) := oneWord (encEA_lt _ _ (by decide))
theorem WordsFit.fmin (f : EA) : WordsFit.Statement (.fmin f) := oneWord (encEA_lt _ _ (by decide))
theorem WordsFit.fmax (f : EA) : WordsFit.Statement (.fmax f) := oneWord (encEA_lt _ _ (by decide))
theorem WordsFit.fabs (f : EA) : WordsFit.Statement (.fabs f) := oneWord (encEA_lt _ _ (by decide))
theorem WordsFit.fneg (f : EA) : WordsFit.Statement (.fneg f) := oneWord (encEA_lt _ _ (by decide))
theorem WordsFit.bfadd2 (f : EA) : WordsFit.Statement (.bfadd2 f) := oneWord (encEA_lt _ _ (by decide))
theorem WordsFit.bfmul2 (f : EA) : WordsFit.Statement (.bfmul2 f) := oneWord (encEA_lt _ _ (by decide))
theorem WordsFit.bffma2 (f : EA) : WordsFit.Statement (.bffma2 f) := oneWord (encEA_lt _ _ (by decide))
theorem WordsFit.bfdot2 (f : EA) : WordsFit.Statement (.bfdot2 f) := oneWord (encEA_lt _ _ (by decide))
theorem WordsFit.hadd2 (f : EA) : WordsFit.Statement (.hadd2 f) := oneWord (encEA_lt _ _ (by decide))
theorem WordsFit.hmul2 (f : EA) : WordsFit.Statement (.hmul2 f) := oneWord (encEA_lt _ _ (by decide))
theorem WordsFit.hfma2 (f : EA) : WordsFit.Statement (.hfma2 f) := oneWord (encEA_lt _ _ (by decide))
theorem WordsFit.fscale (f : EA) : WordsFit.Statement (.fscale f) := oneWord (encEA_lt _ _ (by decide))
theorem WordsFit.icmp (f : EA) : WordsFit.Statement (.icmp f) := oneWord (encEA_lt _ _ (by decide))
theorem WordsFit.fcmp (f : EA) : WordsFit.Statement (.fcmp f) := oneWord (encEA_lt _ _ (by decide))
theorem WordsFit.pset (pd : PReg) (v : Bool) : WordsFit.Statement (.pset pd v) := by
  have := pd.isLt; have := bit_lt v
  exact oneWord (encP_lt _ _ _ _ _ (by decide) (by omega))
theorem WordsFit.pand (pd pa pb : PReg) (na nb : Bool) : WordsFit.Statement (.pand pd pa pb na nb) := by
  have := pd.isLt; have := pa.isLt; have := pb.isLt; have := bit_lt na; have := bit_lt nb
  exact oneWord (encP_lt _ _ _ _ _ (by decide) (by omega))
theorem WordsFit.por (pd pa pb : PReg) (na nb : Bool) : WordsFit.Statement (.por pd pa pb na nb) := by
  have := pd.isLt; have := pa.isLt; have := pb.isLt; have := bit_lt na; have := bit_lt nb
  exact oneWord (encP_lt _ _ _ _ _ (by decide) (by omega))
theorem WordsFit.pxor (pd pa pb : PReg) (na nb : Bool) : WordsFit.Statement (.pxor pd pa pb na nb) := by
  have := pd.isLt; have := pa.isLt; have := pb.isLt; have := bit_lt na; have := bit_lt nb
  exact oneWord (encP_lt _ _ _ _ _ (by decide) (by omega))
theorem WordsFit.pnot (pd pa : PReg) : WordsFit.Statement (.pnot pd pa) := by
  have := pd.isLt; have := pa.isLt
  exact oneWord (encP_lt _ _ _ _ _ (by decide) (by omega))
theorem WordsFit.pmov (pd pa : PReg) (mode : PMovMode) : WordsFit.Statement (.pmov pd pa mode) := by
  cases mode <;> exact oneWord (encP_lt _ _ _ _ _ (by decide) (by decide))
theorem WordsFit.cvtF32I32 (f : EA) : WordsFit.Statement (.cvtF32I32 f) := oneWord (encEA_lt _ _ (by decide))
theorem WordsFit.cvtI32F32 (f : EA) : WordsFit.Statement (.cvtI32F32 f) := oneWord (encEA_lt _ _ (by decide))
theorem WordsFit.cvtBf16F32 (f : EA) : WordsFit.Statement (.cvtBf16F32 f) := oneWord (encEA_lt _ _ (by decide))
theorem WordsFit.cvtF32Bf16 (f : EA) : WordsFit.Statement (.cvtF32Bf16 f) := oneWord (encEA_lt _ _ (by decide))
theorem WordsFit.cvtE4m3F32 (f : EA) : WordsFit.Statement (.cvtE4m3F32 f) := oneWord (encEA_lt _ _ (by decide))
theorem WordsFit.cvtE5m2F32 (f : EA) : WordsFit.Statement (.cvtE5m2F32 f) := oneWord (encEA_lt _ _ (by decide))
theorem WordsFit.cvtE2m1F32 (f : EA) : WordsFit.Statement (.cvtE2m1F32 f) := oneWord (encEA_lt _ _ (by decide))
theorem WordsFit.cvtF32E4m3 (f : EA) : WordsFit.Statement (.cvtF32E4m3 f) := oneWord (encEA_lt _ _ (by decide))
theorem WordsFit.cvtF32E5m2 (f : EA) : WordsFit.Statement (.cvtF32E5m2 f) := oneWord (encEA_lt _ _ (by decide))
theorem WordsFit.cvtF32E2m1 (f : EA) : WordsFit.Statement (.cvtF32E2m1 f) := oneWord (encEA_lt _ _ (by decide))
theorem WordsFit.cvtI8F32 (f : EA) : WordsFit.Statement (.cvtI8F32 f) := oneWord (encEA_lt _ _ (by decide))
theorem WordsFit.cvtF32I8 (f : EA) : WordsFit.Statement (.cvtF32I8 f) := oneWord (encEA_lt _ _ (by decide))
theorem WordsFit.sclx (f : EA) : WordsFit.Statement (.sclx f) := oneWord (encEA_lt _ _ (by decide))
theorem WordsFit.cvtF16F32 (f : EA) : WordsFit.Statement (.cvtF16F32 f) := oneWord (encEA_lt _ _ (by decide))
theorem WordsFit.cvtF32F16 (f : EA) : WordsFit.Statement (.cvtF32F16 f) := oneWord (encEA_lt _ _ (by decide))
theorem WordsFit.exp2 (f : EA) : WordsFit.Statement (.exp2 f) := oneWord (encEA_lt _ _ (by decide))
theorem WordsFit.log2 (f : EA) : WordsFit.Statement (.log2 f) := oneWord (encEA_lt _ _ (by decide))
theorem WordsFit.rcp (f : EA) : WordsFit.Statement (.rcp f) := oneWord (encEA_lt _ _ (by decide))
theorem WordsFit.rsqrt (f : EA) : WordsFit.Statement (.rsqrt f) := oneWord (encEA_lt _ _ (by decide))
theorem WordsFit.sqrt (f : EA) : WordsFit.Statement (.sqrt f) := oneWord (encEA_lt _ _ (by decide))
theorem WordsFit.rstat (f : EA) : WordsFit.Statement (.rstat f) := oneWord (encEA_lt _ _ (by decide))
theorem WordsFit.rmerge (d : XReg) (a : XReg) (pd : PReg) (pm : PUpd) : WordsFit.Statement (.rmerge d a pd pm) := by
  have := d.isLt; have := a.isLt; have := pd.isLt; have := pupd_code_lt pm
  exact oneWord (by omega)
theorem WordsFit.lred (f : EA) : WordsFit.Statement (.lred f) := oneWord (encEA_lt _ _ (by decide))
theorem WordsFit.lscan (f : EA) : WordsFit.Statement (.lscan f) := oneWord (encEA_lt _ _ (by decide))
theorem WordsFit.lperm (f : EA) : WordsFit.Statement (.lperm f) := oneWord (encEA_lt _ _ (by decide))
theorem WordsFit.lbcast (f : EA) : WordsFit.Statement (.lbcast f) := oneWord (encEA_lt _ _ (by decide))
theorem WordsFit.lshift (f : EA) : WordsFit.Statement (.lshift f) := oneWord (encEA_lt _ _ (by decide))
theorem WordsFit.sld (d : Dst) (site : SiteNo) (a : Src) (sz : ESize) (sx : Bool) : WordsFit.Statement (.sld d site a sz sx) := by
  have := dst_code_lt d; have := site.isLt; have := src_code_lt a; have := esize_code_lt sz; have := bit_lt sx
  exact oneWord (encEM_lt _ _ _ _ _ _ (by decide) (by omega) (by omega) (by omega) (by omega))
theorem WordsFit.sst (site : SiteNo) (a b : Src) (sz : ESize) : WordsFit.Statement (.sst site a b sz) := by
  have := site.isLt; have := src_code_lt a; have := src_code_lt b; have := esize_code_lt sz
  exact oneWord (encEM_lt _ _ _ _ _ _ (by decide) (by omega) (by omega) (by omega) (by omega))
theorem WordsFit.satm (aop : AOp) (d : Dst) (site : SiteNo) (a b : Src) : WordsFit.Statement (.satm aop d site a b) := by
  have := aop_code_lt aop; have := dst_code_lt d; have := site.isLt; have := src_code_lt a; have := src_code_lt b
  exact oneWord (encEM_lt _ _ _ _ _ _ (by decide) (by omega) (by omega) (by omega) (by omega))
theorem WordsFit.spf (site : SiteNo) (a b : Src) : WordsFit.Statement (.spf site a b) := by
  have := site.isLt; have := src_code_lt a; have := src_code_lt b
  exact oneWord (encEM_lt _ _ _ _ _ _ (by decide) (by omega) (by omega) (by omega) (by omega))
theorem WordsFit.scln (site : SiteNo) (a b : Src) : WordsFit.Statement (.scln site a b) := by
  have := site.isLt; have := src_code_lt a; have := src_code_lt b
  exact oneWord (encEM_lt _ _ _ _ _ _ (by decide) (by omega) (by omega) (by omega) (by omega))
theorem WordsFit.sinv (site : SiteNo) (a b : Src) : WordsFit.Statement (.sinv site a b) := by
  have := site.isLt; have := src_code_lt a; have := src_code_lt b
  exact oneWord (encEM_lt _ _ _ _ _ _ (by decide) (by omega) (by omega) (by omega) (by omega))
theorem WordsFit.xld (d : Dst) (a : Src) (sz : ESize) (sx : Bool) : WordsFit.Statement (.xld d a sz sx) := by
  have := dst_code_lt d; have := src_code_lt a; have := esize_code_lt sz; have := bit_lt sx
  exact oneWord (encEM_lt _ _ _ _ _ _ (by decide) (by omega) (by omega) (by omega) (by omega))
theorem WordsFit.xst (a b : Src) (sz : ESize) : WordsFit.Statement (.xst a b sz) := by
  have := src_code_lt a; have := src_code_lt b; have := esize_code_lt sz
  exact oneWord (encEM_lt _ _ _ _ _ _ (by decide) (by omega) (by omega) (by omega) (by omega))
theorem WordsFit.feld (take : Bool) (d : Dst) (a : Src) (sz : ESize) : WordsFit.Statement (.feld take d a sz) := by
  have := bit_lt take; have := dst_code_lt d; have := src_code_lt a; have := esize_code_lt sz
  exact oneWord (encEM_lt _ _ _ _ _ _ (by decide) (by omega) (by omega) (by omega) (by omega))
theorem WordsFit.fest (a b : Src) (sz : ESize) : WordsFit.Statement (.fest a b sz) := by
  have := src_code_lt a; have := src_code_lt b; have := esize_code_lt sz
  exact oneWord (encEM_lt _ _ _ _ _ _ (by decide) (by omega) (by omega) (by omega) (by omega))
theorem WordsFit.feclr (a b : Src) : WordsFit.Statement (.feclr a b) := by
  have := src_code_lt a; have := src_code_lt b
  exact oneWord (encEC_lt _ _ _ _ _ _ _ (by decide) (by omega) (by omega) (by omega) (by omega) (by omega) (by omega))
theorem WordsFit.eenq (t : Bool) (f : BitVec 5) (b : Src) (tg : BitVec 3) : WordsFit.Statement (.eenq t f b tg) := by
  have := bit_lt t; have := f.isLt; have := src_code_lt b; have := tg.isLt
  exact oneWord (encEC_lt _ _ _ _ _ _ _ (by decide) (by omega) (by omega) (by omega) (by omega) (by omega) (by omega))
theorem WordsFit.edeq (t : Bool) (f : BitVec 5) (tg : BitVec 3) : WordsFit.Statement (.edeq t f tg) := by
  have := bit_lt t; have := f.isLt; have := tg.isLt
  exact oneWord (encEC_lt _ _ _ _ _ _ _ (by decide) (by omega) (by omega) (by omega) (by omega) (by omega) (by omega))
theorem WordsFit.ebar (na : Bool) (f : BitVec 5) (tg : BitVec 3) : WordsFit.Statement (.ebar na f tg) := by
  have := bit_lt na; have := f.isLt; have := tg.isLt
  exact oneWord (encEC_lt _ _ _ _ _ _ _ (by decide) (by omega) (by omega) (by omega) (by omega) (by omega) (by omega))
theorem WordsFit.mrld (at_ : Option Src) : WordsFit.Statement (.mrld at_) := by
  cases at_ with
  | none => exact oneWord (by decide)
  | some x => exact oneWord (encEC_lt _ _ _ _ _ _ _ (by decide) (by decide) (src_code_lt x) (by decide) (by decide) (by decide) (by decide))
theorem WordsFit.emit (kt : Bool) (d : Dst) (a : Src) (tg : BitVec 3) : WordsFit.Statement (.emit kt d a tg) := by
  have := bit_lt kt; have := dst_code_lt d; have := src_code_lt a; have := tg.isLt
  exact oneWord (encEC_lt _ _ _ _ _ _ _ (by decide) (by omega) (by omega) (by omega) (by omega) (by omega) (by omega))
theorem WordsFit.hdr (d : Dst) (a b : Src) (tg : BitVec 3) : WordsFit.Statement (.hdr d a b tg) := by
  have := dst_code_lt d; have := src_code_lt a; have := src_code_lt b; have := tg.isLt
  exact oneWord (encEC_lt _ _ _ _ _ _ _ (by decide) (by omega) (by omega) (by omega) (by omega) (by omega) (by omega))
theorem WordsFit.drop (page : Bool) (a b : Src) : WordsFit.Statement (.drop page a b) := by
  have := bit_lt page; have := src_code_lt a; have := src_code_lt b
  exact oneWord (encEC_lt _ _ _ _ _ _ _ (by decide) (by omega) (by omega) (by omega) (by omega) (by omega) (by omega))
theorem WordsFit.lgen (lane : Bool) (d : Dst) (pr : Option PReg) (tg : BitVec 3) : WordsFit.Statement (.lgen lane d pr tg) := by
  have := bit_lt lane; have := dst_code_lt d; have := loopPredCode_lt pr; have := tg.isLt
  exact oneWord (encEC_lt _ _ _ _ _ _ _ (by decide) (by omega) (by omega) (by omega) (by omega) (by omega) (by omega))
theorem WordsFit.lgb (a : Src) (pr : Option PReg) : WordsFit.Statement (.lgb a pr) := by
  have := src_code_lt a; have := loopPredCode_lt pr
  exact oneWord (encEC_lt _ _ _ _ _ _ _ (by decide) (by omega) (by omega) (by omega) (by omega) (by omega) (by omega))
theorem WordsFit.wsplit (half : Bool) (d : Dst) (a : Src) (tg : BitVec 3) : WordsFit.Statement (.wsplit half d a tg) := by
  have := bit_lt half; have := dst_code_lt d; have := src_code_lt a; have := tg.isLt
  exact oneWord (encEC_lt _ _ _ _ _ _ _ (by decide) (by omega) (by omega) (by omega) (by omega) (by omega) (by omega))
theorem WordsFit.wjoin (half : Bool) (d : Dst) (a : Src) (k : BitVec 5) : WordsFit.Statement (.wjoin half d a k) := by
  have := bit_lt half; have := dst_code_lt d; have := src_code_lt a; have := k.isLt
  exact oneWord (encEC_lt _ _ _ _ _ _ _ (by decide) (by omega) (by omega) (by omega) (by omega) (by omega) (by omega))
theorem WordsFit.ordt (skip : Bool) (d : Dst) (site : SiteNo) (tg : BitVec 3) : WordsFit.Statement (.ordt skip d site tg) := by
  have := bit_lt skip; have := dst_code_lt d; have := site.isLt; have := tg.isLt
  exact oneWord (by omega)
theorem WordsFit.ptake (a : Src) : WordsFit.Statement (.ptake a) := by
  have := src_code_lt a
  exact oneWord (encEC_lt _ _ _ _ _ _ _ (by decide) (by omega) (by omega) (by omega) (by omega) (by omega) (by omega))
theorem WordsFit.pgive (d : Dst) (tg : BitVec 3) : WordsFit.Statement (.pgive d tg) := by
  have := dst_code_lt d; have := tg.isLt
  exact oneWord (encEC_lt _ _ _ _ _ _ _ (by decide) (by omega) (by omega) (by omega) (by omega) (by omega) (by omega))
theorem WordsFit.eGcall (f : BitVec 5) : WordsFit.Statement (.eGcall f) := by
  have := f.isLt
  exact oneWord (encEC_lt _ _ _ _ _ _ _ (by decide) (by omega) (by omega) (by omega) (by omega) (by omega) (by omega))
theorem WordsFit.eGret : WordsFit.Statement (.eGret) := by
    exact oneWord (encEC_lt _ _ _ _ _ _ _ (by decide) (by omega) (by omega) (by omega) (by omega) (by omega) (by omega))
theorem WordsFit.etrap (go : Bool) (a : Src) (code : BitVec 10) : WordsFit.Statement (.etrap go a code) := by
  have := bit_lt go; have := src_code_lt a; have := code.isLt
  exact oneWord (by omega)
theorem WordsFit.ehalt (load : Bool) : WordsFit.Statement (.ehalt load) := by
  have := bit_lt load
  exact oneWord (encEC_lt _ _ _ _ _ _ _ (by decide) (by omega) (by omega) (by omega) (by omega) (by omega) (by omega))
theorem WordsFit.queueOpCancel (p : Party) : WordsFit.Statement (.queueOpCancel p) := noWord rfl
theorem WordsFit.firingComplete (e : ElemId) (ctx : Nat) : WordsFit.Statement (.firingComplete e ctx) := noWord rfl
theorem WordsFit.siteFillArrival (e : ElemId) (ctx : Nat) : WordsFit.Statement (.siteFillArrival e ctx) := noWord rfl
theorem WordsFit.chainTurn (e : ElemId) (ctx : Nat) : WordsFit.Statement (.chainTurn e ctx) := noWord rfl
theorem WordsFit.directoryForward (region : Nat) : WordsFit.Statement (.directoryForward region) := noWord rfl
theorem WordsFit.spreadUpdateApply (region : Nat) : WordsFit.Statement (.spreadUpdateApply region) := noWord rfl
theorem WordsFit.routerForward (buf : BufId) : WordsFit.Statement (.routerForward buf) := noWord rfl
theorem WordsFit.rowPacketDelivery (die idx : Nat) : WordsFit.Statement (.rowPacketDelivery die idx) := noWord rfl
theorem WordsFit.elementClockGate (e : ElemId) : WordsFit.Statement (.elementClockGate e) := noWord rfl
theorem WordsFit.elementPowerGate (e : ElemId) : WordsFit.Statement (.elementPowerGate e) := noWord rfl
theorem WordsFit.elementWake (e : ElemId) : WordsFit.Statement (.elementWake e) := noWord rfl
theorem WordsFit.weightLatch (e : ElemId) : WordsFit.Statement (.weightLatch e) := noWord rfl
theorem WordsFit.rowAssembly (e : ElemId) : WordsFit.Statement (.rowAssembly e) := noWord rfl
theorem WordsFit.mrowFire (e : ElemId) : WordsFit.Statement (.mrowFire e) := noWord rfl
theorem WordsFit.mrowOutput (e : ElemId) : WordsFit.Statement (.mrowOutput e) := noWord rfl
theorem WordsFit.configWordWrite (region : Nat) : WordsFit.Statement (.configWordWrite region) := noWord rfl
theorem WordsFit.configEnd (region : Nat) : WordsFit.Statement (.configEnd region) := noWord rfl
theorem WordsFit.bindCheck (region : Nat) : WordsFit.Statement (.bindCheck region) := noWord rfl
theorem WordsFit.placerServe (die : Nat) : WordsFit.Statement (.placerServe die) := noWord rfl
theorem WordsFit.loadEnd (region : Nat) : WordsFit.Statement (.loadEnd region) := noWord rfl
theorem WordsFit.streamTokenTransfer (cmd : Nat) : WordsFit.Statement (.streamTokenTransfer cmd) := noWord rfl
theorem WordsFit.copySector (cmd : Nat) : WordsFit.Statement (.copySector cmd) := noWord rfl
theorem WordsFit.bankSector (cmd : Nat) : WordsFit.Statement (.bankSector cmd) := noWord rfl
theorem WordsFit.rowTransfer (cmd : Nat) : WordsFit.Statement (.rowTransfer cmd) := noWord rfl
theorem WordsFit.writebackAccept (die pa : Nat) : WordsFit.Statement (.writebackAccept die pa) := noWord rfl
theorem WordsFit.orderReadPerform (strand ev : Nat) : WordsFit.Statement (.orderReadPerform strand ev) := noWord rfl
theorem WordsFit.orderWritePerform (strand ev : Nat) : WordsFit.Statement (.orderWritePerform strand ev) := noWord rfl
theorem WordsFit.orderApplyPending (die src : Nat) : WordsFit.Statement (.orderApplyPending die src) := noWord rfl
theorem WordsFit.loadComplete (strand ev : Nat) : WordsFit.Statement (.loadComplete strand ev) := noWord rfl
theorem WordsFit.lateEccTrap (strand : Nat) : WordsFit.Statement (.lateEccTrap strand) := noWord rfl
theorem WordsFit.walkComplete (die idx : Nat) : WordsFit.Statement (.walkComplete die idx) := noWord rfl
theorem WordsFit.shootdownAck (strand : Nat) : WordsFit.Statement (.shootdownAck strand) := noWord rfl
theorem WordsFit.handleComplete (cmd : Nat) : WordsFit.Statement (.handleComplete cmd) := noWord rfl
theorem WordsFit.asyncEventTake (strand : Nat) : WordsFit.Statement (.asyncEventTake strand) := noWord rfl
theorem WordsFit.idleWake (strand : Nat) : WordsFit.Statement (.idleWake strand) := noWord rfl
theorem WordsFit.yieldTimeout (strand : Nat) : WordsFit.Statement (.yieldTimeout strand) := noWord rfl
theorem WordsFit.faultRecordPost (ctx : Nat) : WordsFit.Statement (.faultRecordPost ctx) := noWord rfl
theorem WordsFit.contextRetire (ctx : Nat) : WordsFit.Statement (.contextRetire ctx) := noWord rfl
theorem WordsFit.freezeWave (region : Nat) : WordsFit.Statement (.freezeWave region) := noWord rfl
theorem WordsFit.freezePoint (region : Nat) : WordsFit.Statement (.freezePoint region) := noWord rfl
theorem WordsFit.calleeBind (region : Nat) : WordsFit.Statement (.calleeBind region) := noWord rfl
theorem WordsFit.gridReturn (region : Nat) : WordsFit.Statement (.gridReturn region) := noWord rfl
theorem WordsFit.pleatSpill (region : Nat) : WordsFit.Statement (.pleatSpill region) := noWord rfl
theorem WordsFit.pleatRefill (region : Nat) : WordsFit.Statement (.pleatRefill region) := noWord rfl
theorem WordsFit.launchAdmit (die : Nat) : WordsFit.Statement (.launchAdmit die) := noWord rfl
theorem WordsFit.pinBreak (region : Nat) : WordsFit.Statement (.pinBreak region) := noWord rfl
theorem WordsFit.taskReady (task : Nat) : WordsFit.Statement (.taskReady task) := noWord rfl
theorem WordsFit.agingTick (task : Nat) : WordsFit.Statement (.agingTick task) := noWord rfl
theorem WordsFit.taskBind (die : Nat) : WordsFit.Statement (.taskBind die) := noWord rfl
theorem WordsFit.groupBind (group : Nat) : WordsFit.Statement (.groupBind group) := noWord rfl
theorem WordsFit.preemptTimeout (task : Nat) : WordsFit.Statement (.preemptTimeout task) := noWord rfl
theorem WordsFit.taskFaultEnd (region : Nat) : WordsFit.Statement (.taskFaultEnd region) := noWord rfl
theorem WordsFit.retireComplete (task : Nat) : WordsFit.Statement (.retireComplete task) := noWord rfl
theorem WordsFit.eenqStatusDelivery (e : ElemId) : WordsFit.Statement (.eenqStatusDelivery e) := noWord rfl
theorem WordsFit.edeqDelivery (e : ElemId) : WordsFit.Statement (.edeqDelivery e) := noWord rfl
theorem WordsFit.barReleaseToken (e : ElemId) : WordsFit.Statement (.barReleaseToken e) := noWord rfl
theorem WordsFit.hostTailWrite (pa : Nat) (v : Word) : WordsFit.Statement (.hostTailWrite pa v) := noWord rfl
theorem WordsFit.hostHeadWrite (pa : Nat) (v : Word) : WordsFit.Statement (.hostHeadWrite pa v) := noWord rfl
theorem WordsFit.hostMemRead (pa n : Nat) : WordsFit.Statement (.hostMemRead pa n) := noWord rfl
theorem WordsFit.hostMemWrite (pa n : Nat) (v : DWord) : WordsFit.Statement (.hostMemWrite pa n v) := noWord rfl
theorem WordsFit.biSnoopResponse (pa : Nat) (dirty : Option Data512) : WordsFit.Statement (.biSnoopResponse pa dirty) := noWord rfl
theorem WordsFit.pageSend (die unit : Nat) : WordsFit.Statement (.pageSend die unit) := noWord rfl
theorem WordsFit.partialArrival (die idx : Nat) : WordsFit.Statement (.partialArrival die idx) := noWord rfl
theorem WordsFit.catchupFetch (die unit : Nat) : WordsFit.Statement (.catchupFetch die unit) := noWord rfl
theorem WordsFit.endHeaderSend (die : Nat) : WordsFit.Statement (.endHeaderSend die) := noWord rfl
theorem WordsFit.flitReceive (link seq : Nat) (crcOk : Bool) (payload : Nat) : WordsFit.Statement (.flitReceive link seq crcOk payload) := noWord rfl
theorem WordsFit.linkTrained (link width : Nat) : WordsFit.Statement (.linkTrained link width) := noWord rfl
theorem WordsFit.linkTrainingFailure (link : Nat) : WordsFit.Statement (.linkTrainingFailure link) := noWord rfl
theorem WordsFit.linkLaneLoss (link : Nat) : WordsFit.Statement (.linkLaneLoss link) := noWord rfl
theorem WordsFit.linkFence (link : Nat) : WordsFit.Statement (.linkFence link) := noWord rfl
theorem WordsFit.linkRetrain (link : Nat) : WordsFit.Statement (.linkRetrain link) := noWord rfl
theorem WordsFit.ctxtab (v : DWord) : WordsFit.Statement (.ctxtab v) := noWord rfl
theorem WordsFit.registerWrite (off : Nat) (v : DWord) : WordsFit.Statement (.registerWrite off v) := noWord rfl
theorem WordsFit.packetArrival (die : Nat) : WordsFit.Statement (.packetArrival die) := noWord rfl
theorem WordsFit.probeSend (e : ElemId) (ctx queue : Nat) : WordsFit.Statement (.probeSend e ctx queue) := noWord rfl
theorem WordsFit.probeReturn (idx : Nat) : WordsFit.Statement (.probeReturn idx) := noWord rfl
theorem WordsFit.softError (unit : ErrUnit) (corrected : Bool) (addr : Nat) : WordsFit.Statement (.softError unit corrected addr) := noWord rfl
theorem WordsFit.wringTest (idx : Nat) : WordsFit.Statement (.wringTest idx) := noWord rfl
theorem WordsFit.wringTestResult (idx : Nat) (pass : Bool) : WordsFit.Statement (.wringTestResult idx pass) := noWord rfl
theorem WordsFit.moduleStart (img : StartInput) : WordsFit.Statement (.moduleStart img) := noWord rfl
theorem WordsFit.startRunning : WordsFit.Statement (.startRunning) := noWord rfl
theorem WordsFit.startWatchdog : WordsFit.Statement (.startWatchdog) := noWord rfl
theorem WordsFit.firmwareUpdate (img : FirmwareImage) : WordsFit.Statement (.firmwareUpdate img) := noWord rfl
theorem WordsFit.getMeasurements : WordsFit.Statement (.getMeasurements) := noWord rfl
theorem WordsFit.keyLoad (slot : Nat) : WordsFit.Statement (.keyLoad slot) := noWord rfl
theorem WordsFit.keyErase (slot : Nat) : WordsFit.Statement (.keyErase slot) := noWord rfl
theorem WordsFit.eventLogRead : WordsFit.Statement (.eventLogRead) := noWord rfl
theorem WordsFit.flitAcknowledgement (link seq : Nat) (replay : Bool) : WordsFit.Statement (.flitAcknowledgement link seq replay) := noWord rfl
theorem WordsFit.creditReturn (link : Nat) : WordsFit.Statement (.creditReturn link) := noWord rfl
theorem WordsFit.spdmSessionRequest (secured : Bool) : WordsFit.Statement (.spdmSessionRequest secured) := noWord rfl

end Sys2Proof.Laws
end

