-- ==== Sys2Proof/Tests/Slice0.lean ====
section
/-! SUPPORT. Tests: ill-formed terms that `Instr.wf` refuses, words written out from the encoding tables of the spec and what
they decode to, single steps with results worked out from the rules, and for every statement a state that meets its
hypotheses. -/

namespace Sys2Proof.Test

set_option Elab.async false

open Sys2Proof Sys2Proof.Machine Sys2Proof.Claim

/-- GAP 2, SW set. -/
def q : Issue := ⟨2, true⟩

/-- Registers g1, g2, … of a strand. -/
def regs (vs : List Nat) (u : Strand) : Strand :=
  (vs.foldl (fun (p : Nat × Strand) v => (p.1 + 1, p.2.setReg (BitVec.ofNat 5 p.1) (BitVec.ofNat 64 v))) (1, u)).2

/-- A strand that runs in supervisor mode at 0x10000 with its handler at 0x800. -/
def sup : Strand := { Strand.reset with run := .running, pc := 0x10000, tvec := 0x800 }

/-- The same in user mode. -/
def usr : Strand := { sup with status := 0 }

/-- The machine with strand 0 as given, acting. -/
def one (u : Strand) : State := State.reset.setStrand 0 u

/-- A 64 KiB page at a virtual address on a frame, with every permission, home place 0 (R237). -/
def page (va frame : Nat) : TlbEntry :=
  ⟨0, va, 65536, BitVec.ofNat 64 (frame + 0x3F), 0, 1023, []⟩

/-- The machine with strand 0 as given and pages in its core's translation cache. -/
def paged (u : Strand) (ps : List (Nat × Nat)) : State :=
  let s := one u
  { s with seqs := { s.seqs with tlbs := ps.map fun p => (.core 0 0, page p.1 p.2) }, ctxs := { s.ctxs with keys := [(0, 0)] } }

/-! ### Ill-formed terms -/

/-- Immediates, loops, sizes, register pairs and control registers (R58, R203, R206, R209, R255, R195). -/
theorem test_illformed_sequencer : ∀ i ∈ ([.shli q 1 2 64, .shri q 1 2 64, .shai q 1 2 0x1FFF, .loop q 1 0, .loop q 1 0x1000,
    .ldn q 1 2 0 .d .plain, .bfadd q 1 2 3 31, .bfmul q 1 2 3 31, .iadd32 q 1 2 3 31, .fadd32 q 1 2 3 31, .bfmax q 1 2 3 31,
    .csrr q 1 0x007, .csrw q 1 2 0x010, .csrs q 1 2 0x020, .csrc q 1 2 0x034] : List Instr), i.wf = false := by decide +kernel

/-- EA words: MOD, PD without PM, carry, TG without an output, an accumulating form without a register, B of a unary form (R67,
R124, R127). -/
theorem test_illformed_ea : ∀ i ∈ ([.iadd ⟨.reg 1, .reg 2, .reg 3, 0, .none, 0, 1⟩, .iadd ⟨.reg 1, .reg 2, .reg 3, 4, .none, 0, 0⟩,
    .imul ⟨.reg 1, .reg 2, .reg 3, 4, .cu, 0, 0⟩, .iadd ⟨.reg 1, .reg 2, .reg 3, 0, .none, 5, 0⟩,
    .imad ⟨.o0, .reg 2, .reg 3, 0, .none, 0, 0⟩, .iabs ⟨.reg 1, .reg 2, .reg 3, 0, .none, 0, 0⟩,
    .cvtBf16F32 ⟨.reg 1, .reg 2, .reg 3, 0, .none, 0, 1⟩, .idot4 ⟨.reg 1, .reg 2, .reg 3, 0, .none, 0, 3⟩,
    .fscale ⟨.reg 1, .reg 2, .reg 3, 0, .none, 0, 2⟩, .rstat ⟨.reg 13, .reg 2, .reg 0, 0, .none, 0, 0⟩,
    .eShli ⟨.reg 1, .reg 2, 32⟩, .eShri ⟨.reg 1, .reg 2, 32⟩, .rmerge 13 2 0 .none, .rmerge 3 15 0 .none, .rmerge 3 2 0 .cu,
    .rmerge 3 2 1 .none] : List Instr), i.wf = false := by decide +kernel

/-- Memory and EC words: destinations, sign extension, sizes, ports, tags, channels (R156 to R175). -/
theorem test_illformed_ec : ∀ i ∈ ([.sld .none 1 (.reg 2) .w false, .sld (.reg 1) 1 (.reg 2) .w true, .satm .cas .none 1 (.reg 2) (.reg 3),
    .xld .none (.reg 2) .b false, .xld (.reg 1) (.reg 2) .t true, .feld false .none (.reg 2) .w, .feld false (.reg 1) (.reg 2) .h,
    .eenq true 16 (.reg 1) 0, .eenq false 1 (.reg 1) 3, .edeq true 16 0, .edeq true 1 7, .ebar true 16 0, .ebar true 1 2,
    .emit false (.reg 1) (.take 0) 0, .emit false .o0 (.reg 1) 0, .emit false .none (.take 0) 1, .hdr (.reg 1) (.reg 2) (.reg 3) 0,
    .drop false (.reg 1) (.take 0), .drop false (.take 0) (.reg 1), .drop true (.take 0) .zero, .lgen false (.reg 1) none 1,
    .lgb (.keep 0) none, .wsplit false .o0 (.keep 1) 0, .wsplit false (.reg 1) (.take 0) 0, .wjoin false .o0 (.take 0) 0,
    .wjoin false (.reg 1) (.take 0) 4, .wjoin true (.reg 1) (.take 0) 2, .ordt false (.reg 1) 2 0, .ordt true .o0 2 0,
    .ptake (.reg 1), .pgive (.reg 1) 0] : List Instr), i.wf = false := by decide +kernel

/-! ### Words written out from the encodings (R52 to R66) -/

/-- The words that chapters 3 and 6 work out. -/
theorem test_words_worked_out : (decodeSeq 0x61149FFD 0).toOption = some (.addi ⟨1, true⟩ 5 4 (BitVec.ofInt 13 (-3))) ∧
    (decodeSeq 0x0B948004 0).toOption = some (.ldn ⟨0, false⟩ 5 4 0 .h .plain) ∧
    (decodeSeq 0x0D87FFF8 0).toOption = some (.wait ⟨0, false⟩ 0 15 15 15 15) ∧
    (decodeElem 0x08280820).toOption = some (.iadd ⟨.reg 2, .take 0, .reg 2, 0, .nz, 0, 0⟩) ∧
    (decodeElem 0x75300021).toOption = some (.pset 0 true) := by decide +kernel

theorem test_sequencer_words_alu : ∀ p ∈ ([
    (0b10100000100001000100001100000000, .add q 1 2 3),
    (0b10100000100001000100001100000001, .sub q 1 2 3),
    (0b10100000100001000100001100000010, .and q 1 2 3),
    (0b10100000100001000100001100000011, .or q 1 2 3),
    (0b10100000100001000100001100000100, .xor q 1 2 3),
    (0b10100000100001000100001100000101, .andn q 1 2 3),
    (0b10100000100001000100001100000110, .shl q 1 2 3),
    (0b10100000100001000100001100000111, .shr q 1 2 3),
    (0b10100000100001000100001100001000, .sha q 1 2 3),
    (0b10100000100001000100001100001001, .min q 1 2 3),
    (0b10100000100001000100001100001010, .max q 1 2 3),
    (0b10100000100001000100001100001011, .minn q 1 2 3),
    (0b10100000100001000100001100001100, .maxn q 1 2 3),
    (0b10100000100001000100001100001101, .slt q 1 2 3),
    (0b10100000100001000100001100001110, .sltn q 1 2 3),
    (0b10100000100001000100001100001111, .mul q 1 2 3),
    (0b10100000100001000100001100010000, .mulh q 1 2 3),
    (0b10100000100001000100001100010001, .mulhn q 1 2 3),
    (0b10100000100001000100001100010010, .div q 1 2 3),
    (0b10100000100001000100001100010011, .divn q 1 2 3),
    (0b10100000100001000100001100010100, .rem q 1 2 3),
    (0b10100000100001000100001100010101, .remn q 1 2 3),
    (0b10100000110001100100000000010110, .clz q 17 18),
    (0b10100000110001100100000000010111, .popc q 17 18),
    (0b10100000110001100100000000011000, .home q 17 18)] : List (Nat × Instr)),
    (decodeSeq p.1 0).toOption = some p.2 := by decide +kernel

theorem test_sequencer_words_imm : ∀ p ∈ ([
    (0b10100001000100001011111111110000, .addi q 4 5 0x1FF0),
    (0b10100001100100001011111111110000, .andi q 4 5 0x1FF0),
    (0b10100010000100001011111111110000, .ori q 4 5 0x1FF0),
    (0b10100010100100001011111111110000, .xori q 4 5 0x1FF0),
    (0b10100011000100001011111111110000, .slti q 4 5 0x1FF0),
    (0b10100011100100001011111111110000, .sltni q 4 5 0x1FF0),
    (0b10100100000100001010000000111111, .shli q 4 5 63),
    (0b10100100100100001010000000111111, .shri q 4 5 63),
    (0b10100101000100001010000000111111, .shai q 4 5 63),
    (0b10100110100100001011000000000000, .jalr q 4 5 0x1000),
    (0b10100101111110100000000000000001, .lui q 30 0x20001),
    (0b10100110011110111111111111111111, .jal q 30 0x3FFFF)] : List (Nat × Instr)),
    (decodeSeq p.1 0).toOption = some p.2 := by decide +kernel

theorem test_sequencer_words_branch : ∀ p ∈ ([
    (0b10100111000110001111100000000000, .beq q 6 7 0x1800),
    (0b10100111100110001111100000000000, .bne q 6 7 0x1800),
    (0b10101000000110001111100000000000, .blt q 6 7 0x1800),
    (0b10101000100110001111100000000000, .bge q 6 7 0x1800),
    (0b10101001000110001111100000000000, .bltn q 6 7 0x1800),
    (0b10101001100110001111100000000000, .bgen q 6 7 0x1800),
    (0b10101010000110000000111111111111, .loop q 6 0x0FFF),
    (0b10101010100110000001111111111111, .btst q 6 .busy 0x1FFF),
    (0b10101010100110000011111111111111, .btst q 6 .done 0x1FFF),
    (0b10101010100110000101111111111111, .btst q 6 .fault 0x1FFF),
    (0b10101010100110000111111111111111, .btst q 6 .notBusy 0x1FFF)] : List (Nat × Instr)),
    (decodeSeq p.1 0).toOption = some p.2 := by decide +kernel

theorem test_sequencer_words_mem : ∀ p ∈ ([
    (0b10101011001000010011111100000000, .ld q 8 9 0x1F0 .b .plain),
    (0b10101011001000010011111100000101, .ld q 8 9 0x1F0 .h .sync),
    (0b10101011001000010011111100001010, .ld q 8 9 0x1F0 .w .nt),
    (0b10101011001000010011111100001100, .ld q 8 9 0x1F0 .d .plain),
    (0b10101011101000010010111100000000, .ldn q 8 9 0x0F0 .b .plain),
    (0b10101011101000010010111100000101, .ldn q 8 9 0x0F0 .h .sync),
    (0b10101011101000010010111100001010, .ldn q 8 9 0x0F0 .w .nt),
    (0b10101100001000010011000000011101, .st q 8 9 0x101 .d .sync)] : List (Nat × Instr)),
    (decodeSeq p.1 0).toOption = some p.2 := by decide +kernel

theorem test_sequencer_words_atom : ∀ p ∈ ([
    (0b10101100100001000100001100000000, .aadd q 1 2 3 .ctx false),
    (0b10101100100001000100001100010011, .aand q 1 2 3 .elem true),
    (0b10101100100001000100001100100100, .aor q 1 2 3 .region false),
    (0b10101100100001000100001100110111, .axor q 1 2 3 .die true),
    (0b10101100100001000100001101001000, .amin q 1 2 3 .dev false),
    (0b10101100100001000100001101011011, .amax q 1 2 3 .sys true),
    (0b10101100100001000100001101100000, .aminn q 1 2 3 .ctx false),
    (0b10101100100001000100001101110011, .amaxn q 1 2 3 .elem true),
    (0b10101100100001000100001110000100, .aswap q 1 2 3 .region false),
    (0b10101100100001000100001110010111, .acas q 1 2 3 .die true),
    (0b10101100100001000100001110100000, .afadd q 1 2 3 .ctx),
    (0b10101100100001000100001110111010, .abfadd2 q 1 2 3 .sys)] : List (Nat × Instr)),
    (decodeSeq p.1 0).toOption = some p.2 := by decide +kernel

theorem test_sequencer_words_sync : ∀ p ∈ ([
    (0b10101101001100000000000000000000, .fence q .die .full),
    (0b10101101010001000000000000000000, .fence q .dev .acquire),
    (0b10101101010110000000000000000000, .fence q .sys .release),
    (0b10101101100010010001101000101000, .wait q 1 2 3 4 5),
    (0b10101110000000010100101100000000, .clean q 10 11),
    (0b10101110000000010100101100000001, .inval q 10 11),
    (0b10101110000000010100101100000010, .flush q 10 11),
    (0b10101110000000010100101100000011, .discard q 10 11),
    (0b10101110000000010100101100000100, .pref q 10 11),
    (0b10101110100000010100101100000000, .enq q 10 11),
    (0b10110100100000010100101100000001, .evsch q 10 11),
    (0b10110100100000010100000000000000, .phase q 10)] : List (Nat × Instr)),
    (decodeSeq p.1 0).toOption = some p.2 := by decide +kernel

theorem test_sequencer_words_object : ∀ p ∈ ([
    (0b10101110101100011010111000000001, .tenq q 12 13 14),
    (0b10101110101100011010111000000010, .deq q 12 13 14),
    (0b10101110101100011010111000000110, .qdrain q 12 13 14),
    (0b10101111001100011010111000000000, .binit q 12 13 14),
    (0b10101111001100011010111000000010, .bwait q 12 13 14),
    (0b10101111001100011010111000000101, .bpoison q 12 13 14),
    (0b10101110101100011010111001111011, .tdeq q 12 13 14 15),
    (0b10101110101100011010000000000100, .qinit q 12 13),
    (0b10101110101100011010000000000101, .qstat q 12 13),
    (0b10101111001100011010000000000001, .barr q 12 13),
    (0b10101111001100011010000000000011, .barw q 12 13),
    (0b10101111001100011010000000000100, .bquery q 12 13)] : List (Nat × Instr)),
    (decodeSeq p.1 0).toOption = some p.2 := by decide +kernel

theorem test_sequencer_words_command : ∀ p ∈ ([
    (0b10110000010000100011001000000001, .place q 16 17 18),
    (0b10110000010000100011001000000011, .gcall q 16 17 18),
    (0b10110000110000100011001000000000, .strm q 16 17 18),
    (0b10110000110000100011001000000001, .strmw q 16 17 18),
    (0b10110010010000100011001000000001, .rowzero q 16 17 18),
    (0b10110010110000100011001000000000, .subscr q 16 17 18),
    (0b10110010110000100011001000000001, .unsub q 16 17 18),
    (0b10110010110000100011001000000010, .sweep q 16 17 18),
    (0b10110000010000100011001010011000, .cfgld q 16 17 18 19),
    (0b10110001010000100011001010011000, .copy q 16 17 18 19),
    (0b10110001010000100011001010011001, .fill q 16 17 18 19),
    (0b10110001110000100011001010011000, .bfadd q 16 17 18 19),
    (0b10110001110000100011001010011001, .bfmul q 16 17 18 19),
    (0b10110001110000100011001010011010, .iadd32 q 16 17 18 19),
    (0b10110001110000100011001010011011, .fadd32 q 16 17 18 19),
    (0b10110001110000100011001010011100, .bfmax q 16 17 18 19),
    (0b10110010010000100011001010011000, .rowcp q 16 17 18 19),
    (0b10110011010000100011001010011000, .pksend q 16 17 18 19),
    (0b10101111110000100010000000000000, .launch q 16 17),
    (0b10101111110000100010000000000010, .tstat q 16 17),
    (0b10110000010000100010000000000010, .cfgdrop q 16 17),
    (0b10110000110000100010000000000010, .strmc q 16 17),
    (0b10110010110000100010000000000011, .swait q 16 17),
    (0b10110011010000100010000000000001, .cmask q 16 17),
    (0b10110011010000100010000000000010, .cunmask q 16 17),
    (0b10101111100000100010000000000001, .tdone q 17),
    (0b10110000010000000000000000000100, .gret q 16)] : List (Nat × Instr)),
    (decodeSeq p.1 0).toOption = some p.2 := by decide +kernel

theorem test_sequencer_words_system : ∀ p ∈ ([
    (0b10110011100000000000000000000000, .nop q),
    (0b10110011100000000000000000000001, .eret q),
    (0b10110011100000000000000000000010, .halt q),
    (0b10110011100000000000000000000011, .idle q),
    (0b10110011100000000000000000000100, .yield q),
    (0b10110011110100101011011000000101, .tlbi q 20 21 22),
    (0b10110011110100101011011000000111, .freeze q 20 21 22),
    (0b10110011110100101011011000001000, .thaw q 20 21 22),
    (0b10110011110100101011011000001001, .kill q 20 21 22),
    (0b10110011110100101010000000001010, .ctxsw q 20 21),
    (0b10110011110100000000000000000110, .tlbia q 20),
    (0b10110100010100000000000001000001, .csrr q 20 0x041),
    (0b10110100010100101010100001000000, .csrw q 20 21 0x040),
    (0b10110100010100101011000000010011, .csrs q 20 21 0x013),
    (0b10110100010100101011100000000000, .csrc q 20 21 0x000),
    (0b10110101000000111111111111111111, .trap q 0x3FFFF)] : List (Nat × Instr)),
    (decodeSeq p.1 0).toOption = some p.2 := by decide +kernel

theorem test_sequencer_words_long : ∀ p ∈ ([
    (0b10111111100011000001101010111100, 0x12345678, .limm q 3 (BitVec.ofNat 45 0x1ABC12345678)),
    (0b10111111100011000010010010011010, 0x12345678, .ldl q 3 4 (BitVec.ofNat 40 0x9A12345678)),
    (0b10111111100011000101111100000001, 0xFFFFFFFF, .stl q 3 31 (BitVec.ofNat 40 0x01FFFFFFFF)),
    (0b10111111100001000111111111111111, 0xFFFFFFFE, .jall q 1 (BitVec.ofInt 45 (-2)))] : List (Nat × Nat × Instr)),
    (decodeSeq p.1 p.2.1).toOption = some p.2.2 := by decide +kernel

theorem test_element_words_move : ∀ p ∈ ([
    (0b00000001001110000110100000000000, .eNop (.take 0) .zero),
    (0b00000101001100000100000000000001, .movi .none 0x4001),
    (0b00000111000111001111111111110000, .movhi ⟨.o1, .here, 0x7FF0⟩),
    (0b00110011000111001111111111110000, .iaddi ⟨.o1, .here, 0x7FF0⟩),
    (0b00110101000111001111111111110000, .eAndi ⟨.o1, .here, 0x7FF0⟩),
    (0b00110110100111000000000000011111, .eShli ⟨.reg 9, .lane, 31⟩),
    (0b00111000100111000000000000011111, .eShri ⟨.reg 9, .lane, 31⟩)] : List (Nat × Instr)),
    (decodeElem p.1).toOption = some p.2 := by decide +kernel

theorem test_element_words_unary : ∀ p ∈ ([
    (0b00000011001010111000001010111000, .mov ⟨.both, .keep 3, .reg 0, 5, .nz, 6, 0⟩),
    (0b00100001001010111000001010111000, .iabs ⟨.both, .keep 3, .reg 0, 5, .nz, 6, 0⟩),
    (0b00111011001010111000001010111000, .ePopc ⟨.both, .keep 3, .reg 0, 5, .nz, 6, 0⟩),
    (0b00111101001010111000001010111000, .eClz ⟨.both, .keep 3, .reg 0, 5, .nz, 6, 0⟩),
    (0b01001101001010111000001010111000, .fabs ⟨.both, .keep 3, .reg 0, 5, .nz, 6, 0⟩),
    (0b01001111001010111000001010111000, .fneg ⟨.both, .keep 3, .reg 0, 5, .nz, 6, 0⟩),
    (0b10000001001010111000001010111000, .cvtF32I32 ⟨.both, .keep 3, .reg 0, 5, .nz, 6, 0⟩),
    (0b10000011001010111000001010111000, .cvtI32F32 ⟨.both, .keep 3, .reg 0, 5, .nz, 6, 0⟩),
    (0b10011001001010111000001010111000, .sclx ⟨.both, .keep 3, .reg 0, 5, .nz, 6, 0⟩),
    (0b10100001001010111000001010111000, .exp2 ⟨.both, .keep 3, .reg 0, 5, .nz, 6, 0⟩),
    (0b10100011001010111000001010111000, .log2 ⟨.both, .keep 3, .reg 0, 5, .nz, 6, 0⟩),
    (0b10100101001010111000001010111000, .rcp ⟨.both, .keep 3, .reg 0, 5, .nz, 6, 0⟩),
    (0b10100111001010111000001010111000, .rsqrt ⟨.both, .keep 3, .reg 0, 5, .nz, 6, 0⟩),
    (0b10101001001010111000001010111000, .sqrt ⟨.both, .keep 3, .reg 0, 5, .nz, 6, 0⟩)] : List (Nat × Instr)),
    (decodeElem p.1).toOption = some p.2 := by decide +kernel

theorem test_element_words_int : ∀ p ∈ ([
    (0b00001001000000001100101111001100, .iadd ⟨.o0, .reg 1, .take 2, 7, .neg, 3, 0⟩),
    (0b00001011000000001100101111001100, .isub ⟨.o0, .reg 1, .take 2, 7, .neg, 3, 0⟩),
    (0b00001101000000001100101111001100, .iadds ⟨.o0, .reg 1, .take 2, 7, .neg, 3, 0⟩),
    (0b00001111000000001100101111001100, .isubs ⟨.o0, .reg 1, .take 2, 7, .neg, 3, 0⟩),
    (0b00010001000000001100101111001100, .imul ⟨.o0, .reg 1, .take 2, 7, .neg, 3, 0⟩),
    (0b00010011000000001100101111001100, .imulh ⟨.o0, .reg 1, .take 2, 7, .neg, 3, 0⟩),
    (0b00010101000000001100101111001100, .imulhn ⟨.o0, .reg 1, .take 2, 7, .neg, 3, 0⟩),
    (0b00011001000000001100101111001100, .imin ⟨.o0, .reg 1, .take 2, 7, .neg, 3, 0⟩),
    (0b00011011000000001100101111001100, .imax ⟨.o0, .reg 1, .take 2, 7, .neg, 3, 0⟩),
    (0b00011101000000001100101111001100, .nmin ⟨.o0, .reg 1, .take 2, 7, .neg, 3, 0⟩),
    (0b00011111000000001100101111001100, .nmax ⟨.o0, .reg 1, .take 2, 7, .neg, 3, 0⟩),
    (0b00100011000000001100101111001100, .eAnd ⟨.o0, .reg 1, .take 2, 7, .neg, 3, 0⟩),
    (0b00100101000000001100101111001100, .eOr ⟨.o0, .reg 1, .take 2, 7, .neg, 3, 0⟩),
    (0b00100111000000001100101111001100, .eXor ⟨.o0, .reg 1, .take 2, 7, .neg, 3, 0⟩),
    (0b00101001000000001100101111001100, .eAndn ⟨.o0, .reg 1, .take 2, 7, .neg, 3, 0⟩),
    (0b00101011000000001100101111001100, .eShl ⟨.o0, .reg 1, .take 2, 7, .neg, 3, 0⟩),
    (0b00101101000000001100101111001100, .eShr ⟨.o0, .reg 1, .take 2, 7, .neg, 3, 0⟩),
    (0b00101111000000001100101111001100, .eSha ⟨.o0, .reg 1, .take 2, 7, .neg, 3, 0⟩)] : List (Nat × Instr)),
    (decodeElem p.1).toOption = some p.2 := by decide +kernel

theorem test_element_words_float : ∀ p ∈ ([
    (0b01000001000000001100101111001100, .fadd ⟨.o0, .reg 1, .take 2, 7, .neg, 3, 0⟩),
    (0b01000011000000001100101111001100, .fsub ⟨.o0, .reg 1, .take 2, 7, .neg, 3, 0⟩),
    (0b01000101000000001100101111001100, .fmul ⟨.o0, .reg 1, .take 2, 7, .neg, 3, 0⟩),
    (0b01001001000000001100101111001100, .fmin ⟨.o0, .reg 1, .take 2, 7, .neg, 3, 0⟩),
    (0b01001011000000001100101111001100, .fmax ⟨.o0, .reg 1, .take 2, 7, .neg, 3, 0⟩),
    (0b01010001000000001100101111001100, .bfadd2 ⟨.o0, .reg 1, .take 2, 7, .neg, 3, 0⟩),
    (0b01010011000000001100101111001100, .bfmul2 ⟨.o0, .reg 1, .take 2, 7, .neg, 3, 0⟩),
    (0b01011001000000001100101111001100, .hadd2 ⟨.o0, .reg 1, .take 2, 7, .neg, 3, 0⟩),
    (0b01011011000000001100101111001100, .hmul2 ⟨.o0, .reg 1, .take 2, 7, .neg, 3, 0⟩),
    (0b10111001000000001100101111001100, .lperm ⟨.o0, .reg 1, .take 2, 7, .neg, 3, 0⟩),
    (0b10111011000000001100101111001100, .lbcast ⟨.o0, .reg 1, .take 2, 7, .neg, 3, 0⟩),
    (0b00010110111110001101010000000000, .imad ⟨.reg 15, .take 1, .keep 1, 0, .none, 0, 0⟩),
    (0b01000110111110001101010000000000, .ffma ⟨.reg 15, .take 1, .keep 1, 0, .none, 0, 0⟩),
    (0b01010100111110001101010000000000, .bffma2 ⟨.reg 15, .take 1, .keep 1, 0, .none, 0, 0⟩),
    (0b01010110111110001101010000000000, .bfdot2 ⟨.reg 15, .take 1, .keep 1, 0, .none, 0, 0⟩),
    (0b01011100111110001101010000000000, .hfma2 ⟨.reg 15, .take 1, .keep 1, 0, .none, 0, 0⟩),
    (0b00111110111110001101010100100010, .idot4 ⟨.reg 15, .take 1, .keep 1, 2, .nz, 0, 2⟩),
    (0b00110001000100010000111001000111, .sel ⟨.o1, .reg 2, .reg 3, 4, .neg, 1, 3⟩),
    (0b01011111000100010000111001000101, .fscale ⟨.o1, .reg 2, .reg 3, 4, .neg, 1, 1⟩),
    (0b01110001000100010000111001000110, .icmp ⟨.o1, .reg 2, .reg 3, 4, .neg, 1, 2⟩),
    (0b01110011000100010000111001000111, .fcmp ⟨.o1, .reg 2, .reg 3, 4, .neg, 1, 3⟩),
    (0b10111101000100010000111001000111, .lshift ⟨.o1, .reg 2, .reg 3, 4, .neg, 1, 3⟩)] : List (Nat × Instr)),
    (decodeElem p.1).toOption = some p.2 := by decide +kernel

theorem test_element_words_convert : ∀ p ∈ ([
    (0b10000101000100010000111001000110, .cvtBf16F32 ⟨.o1, .reg 2, .reg 3, 4, .neg, 1, 2⟩),
    (0b10001001000100010000111001000111, .cvtE4m3F32 ⟨.o1, .reg 2, .reg 3, 4, .neg, 1, 3⟩),
    (0b10001011000100010000111001000110, .cvtE5m2F32 ⟨.o1, .reg 2, .reg 3, 4, .neg, 1, 2⟩),
    (0b10011011000100010000111001000111, .cvtF16F32 ⟨.o1, .reg 2, .reg 3, 4, .neg, 1, 3⟩),
    (0b10001101000100010000111001000110, .cvtE2m1F32 ⟨.o1, .reg 2, .reg 3, 4, .neg, 1, 2⟩),
    (0b10010101000100010000111001000110, .cvtI8F32 ⟨.o1, .reg 2, .reg 3, 4, .neg, 1, 2⟩),
    (0b10000110011110100000000010100001, .cvtF32Bf16 ⟨.reg 7, .keep 0, .reg 0, 1, .nz, 0, 1⟩),
    (0b10001110011110100000000010100011, .cvtF32E4m3 ⟨.reg 7, .keep 0, .reg 0, 1, .nz, 0, 3⟩),
    (0b10010000011110100000000010100010, .cvtF32E5m2 ⟨.reg 7, .keep 0, .reg 0, 1, .nz, 0, 2⟩),
    (0b10010010011110100000000010100001, .cvtF32E2m1 ⟨.reg 7, .keep 0, .reg 0, 1, .nz, 0, 1⟩),
    (0b10010110011110100000000010100011, .cvtF32I8 ⟨.reg 7, .keep 0, .reg 0, 1, .nz, 0, 3⟩),
    (0b10011100011110100000000010100001, .cvtF32F16 ⟨.reg 7, .keep 0, .reg 0, 1, .nz, 0, 1⟩),
    (0b10110100011110100000000010100010, .lred ⟨.reg 7, .keep 0, .reg 0, 1, .nz, 0, 2⟩),
    (0b10110110011110100000000010100011, .lscan ⟨.reg 7, .keep 0, .reg 0, 1, .nz, 0, 3⟩),
    (0b10110000110010000000000110100000, .rstat ⟨.reg 12, .take 0, .reg 0, 3, .nz, 0, 0⟩),
    (0b10110010110001110000000111000000, .rmerge 12 14 3 .neg)] : List (Nat × Instr)),
    (decodeElem p.1).toOption = some p.2 := by decide +kernel

theorem test_element_words_pred : ∀ p ∈ ([
    (0b01110101001100000000001110100001, .pset 7 true),
    (0b01110111001100110001110010100001, .pand 1 6 7 false true),
    (0b01111001001100110001110010100010, .por 1 6 7 true false),
    (0b01111011001100110001110010100011, .pxor 1 6 7 true true),
    (0b01111101001100110000000010100000, .pnot 1 6),
    (0b01111111001100110000000010100000, .pmov 1 6 .each),
    (0b01111111001100110000000010100001, .pmov 1 6 .any),
    (0b01111111001100110000000010100010, .pmov 1 6 .all)] : List (Nat × Instr)),
    (decodeElem p.1).toOption = some p.2 := by decide +kernel

theorem test_element_words_store : ∀ p ∈ ([
    (0b11000000000100010111111000000101, .sld (.reg 1) 63 (.reg 2) .h true),
    (0b11000101001100010100001000111100, .sst 33 (.reg 2) (.reg 3) .t),
    (0b11000110000100010100000100110000, .satm .add (.reg 1) 32 (.reg 2) (.take 3)),
    (0b11000110000100010100000100110001, .satm .and (.reg 1) 32 (.reg 2) (.take 3)),
    (0b11000110000100010100000100110010, .satm .or (.reg 1) 32 (.reg 2) (.take 3)),
    (0b11000110000100010100000100110011, .satm .xor (.reg 1) 32 (.reg 2) (.take 3)),
    (0b11000110000100010100000100110100, .satm .min (.reg 1) 32 (.reg 2) (.take 3)),
    (0b11000110000100010100000100110101, .satm .max (.reg 1) 32 (.reg 2) (.take 3)),
    (0b11000110000100010100000100110110, .satm .minn (.reg 1) 32 (.reg 2) (.take 3)),
    (0b11000110000100010100000100110111, .satm .maxn (.reg 1) 32 (.reg 2) (.take 3)),
    (0b11000110000100010100000100111000, .satm .swap (.reg 1) 32 (.reg 2) (.take 3)),
    (0b11000110000100010100000100111001, .satm .cas (.reg 1) 32 (.reg 2) (.take 3)),
    (0b11000110000100010100000100111010, .satm .fadd (.reg 1) 32 (.reg 2) (.take 3)),
    (0b11000110000100010100000100111011, .satm .bfadd2 (.reg 1) 32 (.reg 2) (.take 3)),
    (0b11001001001110000000001100010000, .spf 1 (.take 0) (.take 1)),
    (0b11001011001110000000001100010000, .scln 1 (.take 0) (.take 1)),
    (0b11001101001110000000001100010000, .sinv 1 (.take 0) (.take 1)),
    (0b11001111000000100000000000001000, .xld .o0 (.reg 4) .w false),
    (0b11010001001100100000000100100000, .xst (.reg 4) (.take 2) .b),
    (0b11010011000100100000000000001101, .feld true .o1 (.reg 4) .t),
    (0b11010101001100100000000001010100, .fest (.reg 4) (.reg 5) .h),
    (0b11010110000000100001010000000000, .feclr (.reg 4) (.reg 5))] : List (Nat × Instr)),
    (decodeElem p.1).toOption = some p.2 := by decide +kernel

theorem test_element_words_port : ∀ p ∈ ([
    (0b11011000000000000000010111111101, .eenq true 15 (.reg 1) 7),
    (0b11011010000000000000000111011100, .edeq false 14 7),
    (0b11011100000000000000000110100001, .ebar true 13 0),
    (0b11011110000001000000000000000001, .mrld (some (.reg 8))),
    (0b11100001001010000000000000001001, .emit true .both (.take 0) 2),
    (0b11101011000010000000000000001001, .wsplit true .o0 (.take 0) 2),
    (0b11100011000100001110000000010100, .hdr .o1 (.reg 1) .lane 5),
    (0b11100100000010011000000000000001, .drop true (.take 3) (.reg 0)),
    (0b11100111000000000000000111010001, .lgen true .o0 (some 6) 4),
    (0b11101000000010001000000110100000, .lgb (.take 1) (some 5)),
    (0b11101100001110010000000001100000, .wjoin false (.reg 3) (.take 2) 3),
    (0b11101111001100000110000000000001, .ordt true .none 48 0),
    (0b11110000000010001000000000000000, .ptake (.take 1)),
    (0b11110011000100000000000000011000, .pgive .o1 6),
    (0b11110100000000000000001111100000, .eGcall 31),
    (0b11110110000000000000000000000000, .eGret),
    (0b11111000000000001111111111100001, .etrap true (.reg 1) 0x3FF),
    (0b11111010000000000000000000000001, .ehalt true)] : List (Nat × Instr)),
    (decodeElem p.1).toOption = some p.2 := by decide +kernel
/-! ### States that meet the hypotheses of the statements -/

theorem test_witness_ImmediateFormsCompute : (63 : BitVec 13).toNat ≤ 63 ∧ (0 : BitVec 13).toNat ≤ 63 := by decide

/-- Each comparison holds in one state and not in the other, at the ends of the number ranges. -/
theorem test_witness_BranchesCompareAndJump :
    let s := one (regs [2 ^ 63, 2 ^ 63 - 1] sup)
    let t := one (regs [2 ^ 63 - 1, 2 ^ 63 - 1] sup)
    (t.cur.reg 1 = t.cur.reg 2 ∧ ¬ s.cur.reg 1 = s.cur.reg 2) ∧ (s.cur.reg 1 ≠ s.cur.reg 2 ∧ ¬ t.cur.reg 1 ≠ t.cur.reg 2) ∧
    ((s.cur.reg 1).toInt < (s.cur.reg 2).toInt ∧ ¬ (t.cur.reg 1).toInt < (t.cur.reg 2).toInt) ∧
    ((t.cur.reg 2).toInt ≤ (t.cur.reg 1).toInt ∧ ¬ (s.cur.reg 2).toInt ≤ (s.cur.reg 1).toInt) ∧
    ((s.cur.reg 2).toNat < (s.cur.reg 1).toNat ∧ ¬ (t.cur.reg 1).toNat < (t.cur.reg 2).toNat) ∧
    ((s.cur.reg 2).toNat ≤ (s.cur.reg 1).toNat ∧ ¬ (s.cur.reg 1).toNat ≤ (s.cur.reg 2).toNat) := by decide +kernel

/-- A handle slot with its generation and state. -/
def held (slot : Nat) (gen : BitVec 16) (st : HandleState) : Handle := ⟨slot, gen, 7, .fill 0 64 0, .cp, st, 0, 0⟩

theorem test_witness_HandleTestBranches :
    let u := { regs [0x10000, 0xFFFF003F, 0x20001, 0x20002, 0] sup with handles := [held 0 1 .busy, held 63 0xFFFF .done, held 1 2 .fault] }
    let s := one u
    named s (s.cur.reg 1) = some .busy ∧ named s (s.cur.reg 2) = some .done ∧ named s (s.cur.reg 3) = some .fault ∧
    ¬ named s (s.cur.reg 4) = some .busy ∧ ¬ named s (s.cur.reg 5) = some .done ∧ ¬ named s (s.cur.reg 1) = some .fault ∧
    named s (s.cur.reg 5) ≠ some .busy ∧ ¬ named s (s.cur.reg 1) ≠ some .busy := by decide +kernel

theorem test_witness_JumpsLinkAndGo :
    let s := one (regs [0x20000, 0x20003] sup)
    let t := one { sup with pc := 0x10002 }
    (s.cur.pc + BitVec.ofInt 64 (4 * (0x20000 : BitVec 18).toInt)).toNat % 4 = 0 ∧
    (s.cur.pc + BitVec.ofInt 64 (4 * (BitVec.ofInt 45 (-1)).toInt)).toNat % 4 = 0 ∧
    (s.cur.reg 1 + BitVec.ofInt 64 (0 : BitVec 13).toInt).toNat % 4 = 0 ∧ s.cur.atTvec = false ∧
    (s.cur.reg 2 + BitVec.ofInt 64 (0 : BitVec 13).toInt).toNat % 4 ≠ 0 ∧
    (t.cur.pc + BitVec.ofInt 64 (4 * (0 : BitVec 18).toInt)).toNat % 4 ≠ 0 ∧ t.cur.atTvec = false ∧
    (t.cur.pc + BitVec.ofInt 64 (4 * (0 : BitVec 45).toInt)).toNat % 4 ≠ 0 := by decide +kernel

/-- A loop entry that ends elsewhere. -/
def loopAt (last : DWord) (count : BitVec 32) : LoopEntry := ⟨count, 0x10000, last⟩

theorem test_witness_LoopPushesSkipsOrTraps :
    let s := paged (regs [1, 2 ^ 32] sup) [(0x10000, 0)]
    let f := one { regs [1] sup with loops := [loopAt 0x10020 2, loopAt 0x1001C 2, loopAt 0x10018 2, loopAt 0x10014 2] }
    let g := one { regs [1] sup with loops := [loopAt 0x10020 2, loopAt 0x1001C 2, loopAt 0x10018 2] }
    (∀ e, f.cur.loops.getLast? = some e → e.last ≠ f.cur.pc) ∧ (∀ e, s.cur.loops.getLast? = some e → e.last ≠ s.cur.pc) ∧
    (0 : BitVec 13).toInt < 1 ∧ s.cur.atTvec = false ∧ 1 ≤ (1 : BitVec 13).toInt ∧
    1 ≤ (s.cur.reg 1).toNat % 2 ^ 32 ∧ s.cur.loops.length < 4 ∧ g.cur.loops.length < 4 ∧ 1 ≤ (g.cur.reg 1).toNat % 2 ^ 32 ∧
    (s.cur.reg 2).toNat % 2 ^ 32 = 0 ∧
    s.curTranslate .fetch (s.cur.pc + BitVec.ofInt 64 (4 * (1 : BitVec 13).toInt)).toNat 4 = .ok 4 (page 0x10000 0) ∧
    1 ≤ (f.cur.reg 1).toNat % 2 ^ 32 ∧ f.cur.loops.length = 4 ∧ f.cur.atTvec = false := by
  refine ⟨?_, ?_, ?_⟩
  · intro e h; cases (show some (loopAt 0x10014 2) = some e from h); decide +kernel
  · intro e h; cases (show none = some e from h)
  · decide +kernel

theorem test_witness_LoopEndRepeatsOrPops :
    let e := loopAt 0x10000 2
    let d := loopAt 0x10000 1
    let x := loopAt 0x20000 9
    ((one { sup with loops := [x, e] }).cur.loops = [x] ++ [e] ∧ e.last = sup.pc ∧ sup.lbase ≤ [x].length ∧ 1 < e.count.toNat) ∧
    ((one { sup with loops := [x, d] }).cur.loops = [x] ++ [d] ∧ d.last = sup.pc ∧ d.count.toNat ≤ 1 ∧ x.last ≠ sup.pc) ∧
    ((one { sup with loops := [e, d] }).cur.loops = [e] ++ [d] ∧ [e] = [] ++ [e] ∧ e.last = sup.pc ∧
      sup.lbase ≤ ([] : List LoopEntry).length ∧ 1 < e.count.toNat) := by decide +kernel

theorem test_witness_LoadsIssueTranslated :
    let s := paged (regs [0x1FFF8, 0x10100] sup) [(0x10000, 0x30000)]
    settled s [1] ∧ settled s [2] ∧ hasRoom s .ld ∧
    (s.cur.reg 1 + BitVec.ofInt 64 ((0 : BitVec 9).toInt * 2 ^ sizeCode .d)).toNat < 2 ^ 57 ∧
    (s.cur.reg 1 + BitVec.ofInt 64 ((0 : BitVec 9).toInt * 2 ^ sizeCode .d)).toNat % 2 ^ sizeCode .d = 0 ∧
    s.curTranslate .read (s.cur.reg 1 + BitVec.ofInt 64 ((0 : BitVec 9).toInt * 2 ^ sizeCode .d)).toNat (2 ^ sizeCode .d) =
      .ok 0x3FFF8 (page 0x10000 0x30000) ∧
    s.curTranslate .read (s.cur.reg 2 + BitVec.ofInt 64 ((0x100 : BitVec 9).toInt * 2 ^ sizeCode .b)).toNat (2 ^ sizeCode .b) =
      .ok 0x30000 (page 0x10000 0x30000) ∧
    (s.cur.reg 2 + BitVec.ofInt 64 (0xFE00 : BitVec 40).toInt).toNat % 8 = 0 ∧
    s.curTranslate .read (s.cur.reg 2 + BitVec.ofInt 64 (0xFE00 : BitVec 40).toInt).toNat 8 = .ok 0x3FF00 (page 0x10000 0x30000) := by
  unfold settled hasRoom; decide +kernel

theorem test_witness_StoresIssueTranslated :
    let s := paged (regs [0x1FFF8, 0x10100] sup) [(0x10000, 0x30000)]
    settled s [1, 2] ∧ hasRoom s .st ∧
    (s.cur.reg 1 + BitVec.ofInt 64 ((0 : BitVec 9).toInt * 2 ^ sizeCode .d)).toNat % 2 ^ sizeCode .d = 0 ∧
    s.curTranslate .write (s.cur.reg 1 + BitVec.ofInt 64 ((0 : BitVec 9).toInt * 2 ^ sizeCode .d)).toNat (2 ^ sizeCode .d) =
      .ok 0x3FFF8 (page 0x10000 0x30000) ∧
    (s.cur.reg 1 + BitVec.ofInt 64 (BitVec.ofInt 40 (-8)).toInt).toNat % 8 = 0 ∧
    s.curTranslate .write (s.cur.reg 1 + BitVec.ofInt 64 (BitVec.ofInt 40 (-8)).toInt).toNat 8 = .ok 0x3FFF0 (page 0x10000 0x30000) := by
  unfold settled hasRoom; decide +kernel

theorem test_witness_AtomicsIssueTranslated :
    let s := paged (regs [0x1FFF8, 0x1FFFC] sup) [(0x10000, 0x30000)]
    settled s [1, 2, 3] ∧ hasRoom s .ld ∧ (s.cur.reg 1).toNat % 8 = 0 ∧ (s.cur.reg 2).toNat % 4 = 0 ∧
    s.curTranslate .atomic (s.cur.reg 1).toNat 8 = .ok 0x3FFF8 (page 0x10000 0x30000) ∧
    s.curTranslate .atomic (s.cur.reg 2).toNat 4 = .ok 0x3FFFC (page 0x10000 0x30000) := by
  unfold settled hasRoom; decide +kernel

/-- A page that a user may not use, read or write. -/
def barred (va : Nat) : State :=
  let s := one (regs [2 ^ 57 - 8, va + 4, va + 8] usr)
  { s with seqs := { s.seqs with tlbs := [(.core 0 0, { page va 0x30000 with leaf := 0x30003 })] }, ctxs := { s.ctxs with keys := [(0, 0)] } }

theorem test_witness_AccessFaultsArePrecise :
    let s := barred 0x10000
    settled s [1, 2, 3] ∧ hasRoom s .ld ∧ hasRoom s .st ∧ s.cur.atTvec = false ∧
    2 ^ 57 ≤ (s.cur.reg 1 + BitVec.ofInt 64 ((1 : BitVec 9).toInt * 2 ^ sizeCode .d)).toNat ∧
    (s.cur.reg 2 + BitVec.ofInt 64 ((0 : BitVec 9).toInt * 2 ^ sizeCode .d)).toNat < 2 ^ 57 ∧
    (s.cur.reg 2 + BitVec.ofInt 64 ((0 : BitVec 9).toInt * 2 ^ sizeCode .d)).toNat % 2 ^ sizeCode .d ≠ 0 ∧
    (s.cur.reg 3 + BitVec.ofInt 64 ((0 : BitVec 9).toInt * 2 ^ sizeCode .d)).toNat % 2 ^ sizeCode .d = 0 ∧
    s.curTranslate .read (s.cur.reg 3).toNat 8 = .bad 0x08 0 ∧ s.curTranslate .write (s.cur.reg 3).toNat 8 = .bad 0x08 0 ∧
    (s.cur.reg 2).toNat % 8 ≠ 0 := by
  unfold settled hasRoom; decide +kernel

/-- An operation in flight. -/
def opOf (kind : OpKind) (cls : OpClass) : Op :=
  { id := 1, kind := kind, dst := 0, cls := cls, deps := [], scope := none, acq := false, vals := false, pc := 0x10000, va := 0x10000,
    due := 5, before := none, stamp := none, result := none }

/-- A load in flight. -/
def loadOp : Op := opOf (.load 0x30000 8 false false ⟨false, false, 0⟩) .ld

theorem test_witness_FencesAndWaits :
    let s := one sup
    let t := one { sup with ops := [loadOp] }
    (∀ o ∈ s.cur.ops, s.opDone s.curDie o = true) ∧ scopeHolds s .die ∧ scopeHolds s .dev ∧ scopeHolds s .sys ∧
    (∃ o ∈ t.cur.ops, t.opDone t.curDie o = false) ∧ (loadOp ∈ t.cur.ops ∧ loadOp.kind.isRead = true) ∧
    (withinCount t .ld 1 ∧ withinCount t .st 0 ∧ withinCount t .cp 15 ∧ withinCount t .tl 0 ∧ withinCount t .bk 0) ∧
    ¬ withinCount t .ld 0 := by
  unfold withinCount; refine ⟨?_, trivial, ?_, ?_, ?_⟩
  · decide +kernel
  · show ∀ e, e < 8 → _; decide +kernel
  · show (∀ e, e < 8 → _) ∧ _; decide +kernel
  · decide +kernel

/-- A command of strand 0. -/
def cmdOf (id : Nat) (kind : CmdKind) : Cmd :=
  { id := id, kind := kind, strand := 0, slot := some 0, die := 0, ctx := 0, asid := 0, user := false, task := none, deps := [], due := 0, at_ := 0,
    began := false, pages := [], writes := [], strm := none, ended := none, paused := false, unit := 0, count := 0 }

/-- A task of strand 0. -/
def taskOf0 (st : TaskState) : Task :=
  { no := 4, die := 0, kind := 0, ctx := 0, asid := 0, image := 0x10000, args := 0, src2 := 0, bop := 0, count := 0, prio := 1, lq := 0, overlap := false,
    cq := 0, handle := 0, group := 0, ranges := [], arcs := [], follows := none, st := st, since := 0, pooled := false, aged := 0, waitAt := none,
    status := 0, launch := none, user := false, strand := some 0, region := some 1, bank := none, bound := 0, above := none, packet := none,
    item := 0, pc := 0, place := none, opsDue := [], cmdsDue := [] }

/-- home: an address that translates, one that does not with an entry in the cache and without, one past the address space,
and one that waits; place; tstat and strmc on each kind of handle. -/
theorem test_witness_ValueOperationsCompleteInLd :
    let hs := [{ held 5 1 .busy with cmd := 9, kind := .launch 0x10000 0 }, held 6 1 .done,
      { held 7 1 .busy with cmd := 8, kind := .strm false 0x20000 0 }, { held 8 1 .done with kind := .strm false 0x20000 0, count := 3 }]
    let s := paged (regs [0x10000, 0x20000, 0, 0x10005, 0xFFFF003F, 0x10006, 0x10007, 0x10008] { sup with handles := hs }) [(0x10000, 0x30000)]
    let t := paged (regs [2 ^ 57] sup) []
    (hasRoom s .ld ∧ s.curTranslate .read (s.cur.reg 1).toNat 1 = .ok 0x30000 (page 0x10000 0x30000)) ∧
    (hasRoom t .ld ∧ t.curTranslate .read (t.cur.reg 1).toNat 1 = .bad 0x06 0 ∧ 0x200000000000000 ≤ (t.cur.reg 1).toNat) ∧
    (hasRoom (barred 0x10000) .ld ∧ (barred 0x10000).curTranslate .read ((barred 0x10000).cur.reg 3).toNat 1 = .bad 0x08 0 ∧
      ((barred 0x10000).cur.reg 3).toNat < 0x200000000000000 ∧
      (barred 0x10000).curEntry ((barred 0x10000).cur.reg 3).toNat = some { page 0x10000 0x30000 with leaf := 0x30003 }) ∧
    (s.curTranslate .read (s.cur.reg 2).toNat 1 = .miss) ∧ settled s [1, 2] ∧
    (settled s [3] ∧ s.cur.reg 3 = 0) ∧
    (s.cur.reg 4 ≠ 0 ∧ s.cur.lookupHandle s.focus.strand (s.cur.reg 4) = some { held 5 1 .busy with cmd := 9, kind := .launch 0x10000 0 }) ∧
    (s.cur.reg 6 ≠ 0 ∧ s.cur.lookupHandle s.focus.strand (s.cur.reg 6) = some (held 6 1 .done) ∧ (∀ x p, (held 6 1 .done).kind ≠ .launch x p)) ∧
    (s.cur.reg 5 ≠ 0 ∧ named s (s.cur.reg 5) = none) ∧
    (s.cur.lookupHandle s.focus.strand (s.cur.reg 7) = some { held 7 1 .busy with cmd := 8, kind := .strm false 0x20000 0 }) ∧
    (s.cur.lookupHandle s.focus.strand (s.cur.reg 8) = some { held 8 1 .done with kind := .strm false 0x20000 0, count := 3 } ∧
      (held 8 1 .done).st ≠ .busy) := by
  unfold settled hasRoom
  refine ⟨by decide +kernel, by decide +kernel, by decide +kernel, by decide +kernel, by decide +kernel, by decide +kernel, by decide +kernel,
    ⟨by decide +kernel, by decide +kernel, fun x p h => ?_⟩, by decide +kernel, by decide +kernel, by decide +kernel⟩
  cases (show CmdKind.fill 0 64 0 = .launch x p from h)

/-- Operations with a value, of a task word (of the strand's own task, of a launch, of none) and of a stop (of a stream that runs
and of one that has ended) that perform, and one that completes. -/
theorem test_witness_ValueOperationsCompleteInLd_perform :
    let mk (k : OpKind) : Op := { opOf k .ld with vals := true, dst := 4 }
    let go (u : Strand) (k : OpKind) : State := { one { u with ops := [mk k] } with
      cycle := 9
      engs := { State.reset.engs with cmds := [cmdOf 8 (.strm false 0x20000 0), { cmdOf 9 (.strm false 0x20000 0) with ended := some 0, count := 3 }] }
      tasks := { State.reset.tasks with tasks := [{ taskOf0 .running with launch := some 5 }] } }
    let v := one { sup with ops := [{ mk (.value 7) with result := some 7 }] }
    (∀ k ∈ [OpKind.value 7, .taskWord none, .taskWord (some 5), .taskWord (some 6), .stop 8, .stop 9],
      (go sup k).op 0 1 = some (mk k) ∧ (go sup k).mayPerform 0 (mk k) = true ∧ (go { sup with task := some 4 } k).mayPerform 0 (mk k) = true) ∧
    ((go { sup with task := some 4 } (.taskWord none)).strand 0).task = some 4 ∧
    (go { sup with task := some 4 } (.taskWord none)).taskNo 4 = some { taskOf0 .running with launch := some 5 } ∧
    ((go sup (.taskWord none)).strand 0).task = none ∧
    ((go sup (.taskWord none)).tasks.tasks.find? fun k => decide (k.launch = some 5)) = some { taskOf0 .running with launch := some 5 } ∧
    (∀ k ∈ (go sup (.taskWord none)).tasks.tasks, k.launch ≠ some 6) ∧
    ((go sup (.stop 8)).cmd 8 = some (cmdOf 8 (.strm false 0x20000 0)) ∧ (cmdOf 8 (.strm false 0x20000 0)).ended = none) ∧
    ((go sup (.stop 9)).cmd 9 = some { cmdOf 9 (.strm false 0x20000 0) with ended := some 0, count := 3 }) ∧
    (v.op 0 1 = some { mk (.value 7) with result := some 7 } ∧ v.opDone (dieOf 0) { mk (.value 7) with result := some 7 } = true) := by decide +kernel

theorem test_witness_CacheMaintenanceIssues :
    let s := paged (regs [0x10000, 0x40, 0x10004, 0, 0x3F, 2 ^ 40] sup) [(0x10000, 0x30000)]
    settled s [1, 2] ∧ settled s [3, 4] ∧ hasRoom s .st ∧ (s.cur.reg 4).toNat % 2 ^ 40 = 0 ∧ (s.cur.reg 6).toNat % 2 ^ 40 = 0 ∧
    (s.cur.reg 1).toNat % 64 = 0 ∧ (s.cur.reg 2).toNat % 2 ^ 40 ≠ 0 ∧ (s.cur.reg 2).toNat % 2 ^ 40 % 64 = 0 ∧
    (s.cur.reg 3).toNat % 64 ≠ 0 ∧ s.cur.atTvec = false ∧ s.cur.sup = true ∧ (s.cur.reg 1).toNat % 256 = 0 ∧
    s.curTranslate .read (s.cur.reg 1).toNat 256 = .ok 0x30000 (page 0x10000 0x30000) := by
  unfold settled hasRoom; decide +kernel

theorem test_witness_CopyAndBankCommandsGiveHandles :
    let s := one { regs [0x10000, 0x20000, 0, 0, 64, 2 ^ 40] sup with handles := [held 0 1 .busy] }
    settled s [1, 2, 3, 3 + 1] ∧ settled s [1, 2, 5, 5 + 1] ∧ lowestFree s 1 ∧ lowestFree (one sup) 0 ∧ (s.cur.reg 5).toNat ≠ 0 ∧
    (s.cur.reg 3).toNat = 0 ∧ (s.cur.reg (3 + 1)).toNat % 2 ^ 40 = 0 ∧ (s.cur.reg (5 + 1)).toNat % 2 ^ 40 = 0 ∧
    (s.cur.reg (4 + 1)).toNat % 2 ^ 40 ≠ 0 := by
  refine ⟨?_, ?_, ⟨⟨by decide, ?_⟩, ?_⟩, ⟨⟨by decide, ?_⟩, ?_⟩, ?_⟩
  · unfold settled; decide +kernel
  · unfold settled; decide +kernel
  · intro h e; cases (show none = some h from e)
  · intro j hj hf
    obtain rfl : j = 0 := by omega
    exact hf.2 (held 0 1 .busy) rfl rfl
  · intro h e; cases (show none = some h from e)
  · intro j hj; omega
  · decide +kernel

/-- Sixty-four handles that are all busy. -/
def allBusy : List Handle := (List.range 64).map fun k => held k 1 .busy

theorem test_witness_RegionCommandsGiveHandles :
    let s := one (regs [0x10000, 0x20000, 0x30000] sup)
    let t := one { sup with handles := allBusy }
    let w := one { sup with ops := [{ loadOp with vals := true, dst := 1 }] }
    settled s [1, 2, 3] ∧ lowestFree s 0 ∧ (∀ k, ¬ slotFree t k) ∧ w.cur.awaits 1 = true := by
  refine ⟨?_, ⟨⟨by decide, ?_⟩, ?_⟩, ?_, ?_⟩
  · unfold settled; decide +kernel
  · intro h e; cases (show none = some h from e)
  · intro j hj; omega
  · have all : ∀ k, k < 64 → (allBusy.find? fun h => h.slot = k) = some (held k 1 .busy) := by decide +kernel
    exact fun k hf => hf.2 (held k 1 .busy) (all k hf.1) rfl
  · decide +kernel

/-- Words of four bytes at an address of the image of a die. -/
def withWords (s : State) (d pa : Nat) (ws : List Nat) : State :=
  s.setImage d { s.image d with mem := writeN (s.image d).mem pa (ws.flatMap (toBytes 4)) }

/-- Where no key has sealed a sector, every page reads the bytes as they are. -/
theorem keyShows_intro {s : State} {page : PageAttr} {pa n : Nat} (h : s.mem.sealed = []) : KeyShows s page pa n := by
  intro a _ _ k t _ h2
  simp [State.sealOf, h] at h2

/-- AtHome from what can be computed, with no party parked anywhere and no sector sealed. -/
theorem atHome_intro {s : State} {a : GReg} {extra : List GReg} {n pa : Nat} {also : List (Nat × Nat)} {release : Bool} (e : TlbEntry)
    (h : s.cur.got = none ∧ s.cur.progress = none ∧ s.ports.parked = [] ∧ (∀ r ∈ a :: extra, s.cur.awaits r = false) ∧
      (∀ o ∈ s.cur.ops, s.opDone s.curDie o = true) ∧ (s.cur.reg a).toNat % n = 0 ∧
      s.curTranslate .atomic (s.cur.reg a).toNat n = .ok pa e ∧ (pageAttr e).ms = false ∧ s.ownedIn (pageAttr e) pa n = none ∧
      s.mem.sealed = [] ∧ s.spoilt s.curDie (some (coreOf s.focus.strand)) pa n = false ∧ pa + 64 ≤ 2 ^ 51 ∧
      s.reachPa s.curDie pa = .open_ ∧
      (∀ e, e < 8 → (s.clock e).covers (s.clock s.curDie) = true) ∧ Memory.wf (s.image (homeDie pa)).mem = true) :
    AtHome s a extra n pa also release := by
  obtain ⟨h1, h2, h3, h4, h5, h6, h7, h8, h9, h10, h11, h12, h13, h14, h15⟩ := h
  exact ⟨⟨h1, h2, by simp [h3]⟩, h4, h5, h6, ⟨e, h7, h8, h9, fun _ _ => keyShows_intro h10⟩, h11, h12, h13, fun _ => h14, by simp [h3], h15⟩

/-- A queue of two 8-byte elements at 0x30000 with its ring at 0x30100: indices, MODE and FREE as given; the CHECK of
its static fields is 0x5A5A ^ 0x0008 ^ 0x0001 ^ 0x0002 ^ 0x0100 ^ 0x0050 (R323). -/
def ringed (head tail free closed : Nat) (u : Strand) : State :=
  withWords (paged u [(0x10000, 0x30000), (0x20000, 0x30000)]) 0 0x30000
    [head, tail, free, 0x00010008, 0x20100, 0, closed * 2 ^ 30 + 0x50, 0x5B01, 0x30100, 0, 0, 0, tail, 0, head, 0]

/-- The block of such a queue. -/
def blockOf (head tail free closed : Nat) : QBlock :=
  ⟨head, tail, free, 0x00010008, 0x20100, closed * 2 ^ 30 + 0x50, 0x5B01, 0x30100, tail, head⟩

/-- The same queue seen by strand 64, which is strand 0 of die 1 and acts as given. -/
def ringedFar (head tail free closed : Nat) (u : Strand) : State :=
  let x := { (ringed head tail free closed sup).setStrand 64 u with focus := { Focus.reset with strand := 64 } }
  let y : State := { x with seqs := { x.seqs with tlbs := [(.core 1 0, page 0x10000 0x30000)] } }
  (y.setImage 1 { y.image 0 with clock := (y.image 1).clock }).setLink { Link.reset 24 with st := .up }

theorem test_witness_EnqueuePutsAtTail :
    let u := regs [0x10000, 0x1122] sup
    (AtHome (ringed 0 1 1 0 u) 1 [2] 64 0x30000 [(0x30108, 8)] true ∧ blockOf 0 1 1 0 = (ringed 0 1 1 0 u).qblock (homeDie 0x30000) 0x30000 ∧
      RingReady (ringed 0 1 1 0 u) 0x30000 8 1 ∧ ((ringed 0 1 1 0 u).qblock (ringed 0 1 1 0 u).curDie 0x30000).esize = 8 ∧
      ((ringed 0 1 1 0 u).qblock (ringed 0 1 1 0 u).curDie 0x30000).pmode ≠ 2 ∧ (blockOf 0 1 1 0).closed = false ∧
      1 ≤ (blockOf 0 1 1 0).free ∧ (ringed 0 1 1 0 u).curDie = homeDie 0x30000) ∧
    (AtHome (ringedFar 0 1 1 0 u) 1 [2] 64 0x30000 [(0x30108, 8)] true ∧
      blockOf 0 1 1 0 = (ringedFar 0 1 1 0 u).qblock (homeDie 0x30000) 0x30000 ∧ RingReady (ringedFar 0 1 1 0 u) 0x30000 8 1 ∧
      ((ringedFar 0 1 1 0 u).qblock (ringedFar 0 1 1 0 u).curDie 0x30000).esize = 8 ∧
      ((ringedFar 0 1 1 0 u).qblock (ringedFar 0 1 1 0 u).curDie 0x30000).pmode ≠ 2 ∧ (ringedFar 0 1 1 0 u).curDie ≠ homeDie 0x30000) ∧
    (AtHome (ringed 0 2 0 0 u) 1 [2] 64 0x30000 [(0x30100, 8)] true ∧ RingReady (ringed 0 2 0 0 u) 0x30000 8 2 ∧
      ((ringed 0 2 0 0 u).qblock (ringed 0 2 0 0 u).curDie 0x30000).esize = 8 ∧
      ((ringed 0 2 0 0 u).qblock (ringed 0 2 0 0 u).curDie 0x30000).pmode ≠ 2 ∧ (blockOf 0 2 0 0).closed = false ∧ (blockOf 0 2 0 0).free = 0) ∧
    (AtHome (ringed 0 1 1 1 u) 1 [2] 64 0x30000 [(0x30108, 8)] true ∧ RingReady (ringed 0 1 1 1 u) 0x30000 8 1 ∧
      ((ringed 0 1 1 1 u).qblock (ringed 0 1 1 1 u).curDie 0x30000).esize = 8 ∧
      ((ringed 0 1 1 1 u).qblock (ringed 0 1 1 1 u).curDie 0x30000).pmode ≠ 2 ∧
      (blockOf 0 1 1 1).closed = true ∧ (ringed 0 1 1 1 u).cur.atTvec = false) := by
  refine ⟨⟨atHome_intro (page 0x10000 0x30000) ?_, ?_, ⟨?_, ?_, ?_, ?_⟩, ?_⟩, ⟨atHome_intro (page 0x10000 0x30000) ?_, ?_, ⟨?_, ?_, ?_, ?_⟩, ?_⟩,
    ⟨atHome_intro (page 0x10000 0x30000) ?_, ⟨?_, ?_, ?_, ?_⟩, ?_⟩, atHome_intro (page 0x10000 0x30000) ?_, ⟨?_, ?_, ?_, ?_⟩, ?_⟩ <;>
  decide +kernel

theorem test_witness_DequeueTakesFromHead :
    let u := regs [0x10000, 0] sup
    (AtHome (ringed 1 3 0 0 u) 1 [2] 64 0x30000 [(0x30108, 8)] false ∧ (ringed 1 3 0 0 u).curDie = homeDie 0x30000 ∧
      blockOf 1 3 0 0 = (ringed 1 3 0 0 u).qblock (homeDie 0x30000) 0x30000 ∧ RingReady (ringed 1 3 0 0 u) 0x30000 8 1 ∧
      (blockOf 1 3 0 0).cmode ≠ 2 ∧ (blockOf 1 3 0 0).count ≠ 0) ∧
    (AtHome (ringed 3 3 2 1 u) 1 [2] 64 0x30000 [(0x30108, 8)] false ∧ RingReady (ringed 3 3 2 1 u) 0x30000 8 3 ∧
      (blockOf 3 3 2 1).cmode ≠ 2 ∧ (blockOf 3 3 2 1).count = 0) := by
  refine ⟨⟨atHome_intro (page 0x10000 0x30000) ?_, ?_, ?_, ⟨?_, ?_, ?_, ?_⟩, ?_⟩, atHome_intro (page 0x10000 0x30000) ?_,
    ⟨?_, ?_, ?_, ?_⟩, ?_⟩ <;> decide +kernel

theorem test_witness_QueueControlForms :
    let u := regs [0x10000, 0, 1, 7, 6] sup
    let s := ringed 1 3 0 0 u
    let k := blockOf 1 3 0 0
    AtHome s 1 [] 64 0x30000 [] true ∧ AtHome s 1 [] 64 0x30000 [] false ∧ AtHome s 1 [2] 64 0x30000 [] true ∧ AtHome s 1 [3] 64 0x30000 [] true ∧
    k = s.qblock (homeDie 0x30000) 0x30000 ∧ k.badField = none ∧ k.home = homeDie 0x30000 ∧ k.pmode ≠ 2 ∧
    s.curTranslate .atomic k.ring 1 = .ok 0x30100 (page 0x20000 0x30000) ∧
    k.ring + k.esize * k.cap ≤ (page 0x20000 0x30000).va + (page 0x20000 0x30000).size ∧
    leafPlace (page 0x20000 0x30000).leaf = 0 ∧ leafFrame (page 0x20000 0x30000).leaf / 2 ^ 39 = k.home ∧ k.unsound 0x30000 = 0 ∧
    s.curDie = homeDie 0x30000 ∧ k.corrupt = false ∧ s.cur.reg 2 = 0 ∧ s.cur.reg 3 = 1 ∧ 3 ≤ (s.cur.reg 4).toNat ∧
    s.cur.sup = true ∧ (s.cur.reg 4).toNat % 4 ≠ 2 ∧ 3 ≤ (s.cur.reg 5).toNat := by
  refine ⟨atHome_intro (page 0x10000 0x30000) ?_, atHome_intro (page 0x10000 0x30000) ?_, atHome_intro (page 0x10000 0x30000) ?_,
    atHome_intro (page 0x10000 0x30000) ?_, ?_⟩ <;> decide +kernel

/-- A barrier at 0x30000 with its PHASE, COUNT, ARRIVED and FLAGS. -/
def barred4 (phase count arrived flags : Nat) (u : Strand) : State :=
  withWords (paged u [(0x10000, 0x30000)]) 0 0x30000 [phase, count, arrived, flags]

theorem test_witness_ArrivalsCountAndComplete :
    let u := regs [0x10000] sup
    let s := barred4 5 2 0 2 u
    let t := barred4 0xFFFFFFFF 2 1 0 u
    let p : Parked := ⟨.strand 9, 0x30000, .barrier, 0, [], 0, 0, 5, 0, Mark.plain⟩
    -- an arrival from another die: strand 64 is strand 0 of die 1
    let x := { (barred4 0 2 1 0 u).setStrand 64 (regs [0x10000] sup) with focus := { Focus.reset with strand := 64 } }
    let y := ({ x with seqs := { x.seqs with tlbs := [(.core 1 0, page 0x10000 0x30000)] } } : State).setLink { Link.reset 24 with st := .up }
    (AtHome s 1 [] 16 0x30000 [] true ∧ Arrives s 0x30000 ⟨5, 2, 0, 2⟩ ∧ (0 + 1 < 2)) ∧
    (AtHome t 1 [] 16 0x30000 [] true ∧ Arrives t 0x30000 ⟨0xFFFFFFFF, 2, 1, 0⟩ ∧ 1 + 1 = 2 ∧ t.curDie = homeDie 0x30000) ∧
    (p.pa = 0x30000 ∧ p.side = .barrier ∧ p.party = .strand 9 ∧ 9 ≠ t.focus.strand ∧
      ({ t with ports := { t.ports with parked := [p] } } : State).ports.parked = p :: []) ∧
    (AtHome y 1 [] 16 0x30000 [] true ∧ y.bword (homeDie 0x30000) 0x30000 = ⟨0, 2, 1, 0⟩ ∧ BWord.sound ⟨0, 2, 1, 0⟩ 0x30000 = true ∧
      y.curDie ≠ homeDie 0x30000 ∧ y.cur.atTvec = false) := by
  refine ⟨⟨atHome_intro (page 0x10000 0x30000) ?_, ⟨?_, ?_, fun _ => ?_⟩, ?_⟩, ⟨atHome_intro (page 0x10000 0x30000) ?_, ⟨?_, ?_, fun _ => ?_⟩, ?_⟩,
    ?_, atHome_intro (page 0x10000 0x30000) ?_, ?_⟩ <;> decide +kernel

theorem test_witness_BarrierControlForms :
    let u := regs [0x10000, 0x100000 + 3 * 2 ^ 24, 0, 0x100001, 2 ^ 26 + 1, 2 ^ 21 + 1, 5, 6, 0xFF] sup
    let s := barred4 6 2 1 0 u
    let t := barred4 6 2 1 0x80FF0000 u
    AtHome s 1 [2] 16 0x30000 [] true ∧ AtHome s 1 [7] 16 0x30000 [] false ∧ AtHome s 1 [] 16 0x30000 [] false ∧ AtHome t 1 [9] 16 0x30000 [] true ∧
    (1 ≤ (s.cur.reg 2).toNat % 2 ^ 21 ∧ (s.cur.reg 2).toNat % 2 ^ 21 ≤ 1048576 ∧ (s.cur.reg 2).toNat / 2 ^ 26 = 0 ∧
      (s.cur.reg 2).toNat / 2 ^ 21 % 8 = 0) ∧
    (s.cur.reg 3).toNat % 2 ^ 21 = 0 ∧ 1048576 < (s.cur.reg 4).toNat % 2 ^ 21 ∧ (s.cur.reg 5).toNat / 2 ^ 26 ≠ 0 ∧
    (s.cur.reg 6).toNat / 2 ^ 21 % 8 ≠ 0 ∧ s.curDie = homeDie 0x30000 ∧ s.bword (homeDie 0x30000) 0x30000 = ⟨6, 2, 1, 0⟩ ∧
    BWord.sound ⟨6, 2, 1, 0⟩ 0x30000 = true ∧ (s.cur.reg 7).toNat % 2 ^ 32 ≠ 6 ∧ (s.cur.reg 8).toNat % 2 ^ 32 = 6 ∧
    (t.cur.reg 9).toNat % 256 ≠ 0 ∧ (t.cur.reg 3).toNat % 256 = 0 ∧ t.bword (homeDie 0x30000) 0x30000 = ⟨6, 2, 1, 0x80FF0000⟩ ∧
    BWord.sound ⟨6, 2, 1, 0x80FF0000⟩ 0x30000 = true ∧ (⟨6, 2, 1, 0x80FF0000⟩ : BWord).poisoned = true ∧
    (⟨6, 2, 1, 0⟩ : BWord).poisoned = false := by
  refine ⟨atHome_intro (page 0x10000 0x30000) ?_, atHome_intro (page 0x10000 0x30000) ?_, atHome_intro (page 0x10000 0x30000) ?_,
    atHome_intro (page 0x10000 0x30000) ?_, ?_⟩ <;> decide +kernel

theorem test_witness_ControlRegistersReadAndWrite :
    let s := one (regs [0x41] sup)
    let t := one usr
    (csrValue s 0x041 = some 65536 ∧ s.cur.sup = true) ∧ (csrValue t 0x010 = some 0 ∧ 0x010 ≤ (0x010 : BitVec 11).toNat) ∧
    (0x021 : BitVec 11).toNat = 0x021 ∧ (csrWritten s.cur 0x041 (s.cur.reg 1)).isSome = true ∧
    (csrWritten s.cur 0x000 (0x80 ||| s.cur.reg 1)).isSome = true ∧ (csrWritten s.cur 0x040 (0 &&& ~~~(s.cur.reg 1))).isSome = true ∧
    t.cur.sup = false ∧ t.cur.atTvec = false ∧ csrValue t 0x006 ≠ none ∧ (0x006 : BitVec 11).toNat < 0x010 ∧
    csrWritten t.cur 0x041 0 ≠ none := by decide +kernel

theorem test_witness_TrapEntersAndEretReturns :
    let s := one sup
    let t := one { regs [0x20002] usr with atTvec := true, pc := 0x800 }
    s.cur.atTvec = false ∧ s.cur.sup = true ∧ t.cur.atTvec = true ∧
    (t.cur.reg 1 + BitVec.ofInt 64 (0 : BitVec 13).toInt).toNat % 4 ≠ 0 ∧ t.cur.sup = false := by decide +kernel

theorem test_witness_PrivilegedInstructionsTrapInUserMode :
    let s := one (regs [0, 6] usr)
    s.cur.sup = false ∧ s.cur.atTvec = false ∧ (s.cur.reg 2).toNat % 4 = 2 ∧ s.cur.task = none := by decide +kernel

theorem test_witness_HaltIdleYieldPause :
    (one sup).cur.writes = [] ∧ (one { sup with writes := [(1, 5, 9)] }).cur.writes ≠ [] := by decide +kernel

theorem test_witness_ShootdownsAndContextSwitches :
    let s := one (regs [0x10000, 0, 0x10000, 2 ^ 57 - 0x10000, 2 ^ 57, 1023, 1024] sup)
    let t := one { s.cur with progress := some ⟨1, Clock.zero, 3, 0, []⟩ }
    -- descriptor 1023 of a table at 0: V is set (R221)
    let c := withWords s 0 (64 * 1023) [0, 0, 0, 0x2000, 0, 0, 0, 0]
    s.cur.sup = true ∧ s.stage = 0 ∧ (∀ o ∈ s.cur.ops, s.opDone s.curDie o = true) ∧
    (∀ e, e < 8 → (s.clock e).covers s.reqClock = true) ∧ (s.cur.reg 1).toNat < 2 ^ 57 ∧ (s.cur.reg 2).toNat = 0 ∧
    (s.cur.reg 1).toNat + (s.cur.reg 4).toNat ≤ 2 ^ 57 ∧ (s.cur.reg 3).toNat ≠ 0 ∧ t.stage = 3 ∧ t.cur.sup = true ∧
    (t.cur.reg 1).toNat + (t.cur.reg 3).toNat ≤ 2 ^ 57 ∧ s.cur.atTvec = false ∧ 2 ^ 57 ≤ (s.cur.reg 5).toNat ∧
    2 ^ 57 < (s.cur.reg 3).toNat + (s.cur.reg 5).toNat ∧ (s.cur.reg 6).toNat < 1024 ∧ s.cur.writes = [] ∧
    s.cur.outstanding .ld = 0 ∧ s.cur.outstanding .st = 0 ∧ (c.desc c.curDie 1023).v = true ∧ (s.desc s.curDie 1023).v = false ∧
    1024 ≤ (s.cur.reg 7).toNat ∧ (one { sup with writes := [(1, 5, 9)] }).cur.writes ≠ [] := by decide +kernel

theorem test_witness_FreezeThawKillActOnStrands :
    let u := regs [7 * 2 ^ 57 + 63, 0, 2 ^ 32, 64 - 1] sup
    let s := (one u).setStrand 511 { sup with run := .frozen }
    let t := (one u).setStrand 511 sup
    let k := (one u).setStrand 511 { sup with killed := true, run := .halted }
    s.cur.sup = true ∧ s.stage = 0 ∧ 511 < 512 ∧ (s.cur.reg 1).toNat = 511 / 64 * 2 ^ 57 + 511 % 64 ∧ 511 ≠ s.focus.strand ∧
    (s.strand 511).killed = false ∧ t.ports.parked = [] ∧ (t.strand 511).run ≠ .frozen ∧ t.engs.cmds = [] ∧
    (t.strand 511).task = none ∧ t.ports.phases = [] ∧ (s.strand 511).run = .frozen ∧ (s.strand 511).worker = false ∧
    (t.strand 511).run = .running ∧ (s.cur.reg 2).toNat = 0 / 64 * 2 ^ 57 + 0 % 64 ∧ 0 = s.focus.strand ∧
    (k.strand 511).killed = true ∧ (s.cur.reg 3).toNat / 2 ^ 32 % 2 ^ 25 ≠ 0 := by decide +kernel

/-- A region bound to strand 0 on die 0 whose load is in a state. -/
def regionIn (st : RegionState) (depth : Nat) : Region :=
  { id := 1, die := 0, trow := 0, tcol := 0, trows := 1, tcols := 1, st := st, strand := some 0, task := none, ctx := 0, asid := 0,
    byDisp := false, info := none, next := none, cfgCmd := none, items := [], bad := [], probe := 0, depth := depth, levels := [],
    wave := none, call := none, seqCall := none, ret := none, ending := false, dropBy := none, failed := none, voids := [] }

/-- The machine with strand 0 bound to a region. -/
def bound (g : Region) (u : Strand) : State :=
  let s := one { u with region := some g.id }
  { s with tasks := { s.tasks with regions := [g] } }

theorem test_witness_TdoneCfgdropGretSwait :
    let u := regs [0, 1, 2, 0x10000, 0x10001, 0x50000, 0x10002] { sup with
      handles := [{ held 0 1 .done with kind := .sweep 0 0, cls := .tl, count := 9 }, held 1 1 .busy, held 2 1 .done] }
    let s := one u
    s.cur.sup = true ∧ (∀ c : OpClass, (one sup).cur.outstanding c = 0) ∧ s.cur.progress = none ∧ 2 ≤ (s.cur.reg 3).toNat ∧
    (s.cur.reg 2).toNat ≤ 1 ∧ s.cur.region = none ∧
    (∀ st ∈ [RegionState.reserved, .ended, .running], (bound (regionIn st 1) u).bound 0 = some (regionIn st 1)) ∧
    (bound (regionIn .ended 0) u).engs.cmds = [] ∧ s.cur.reg 1 = 0 ∧ s.cur.reg 2 = 1 ∧ (regionIn .reserved 0).byDisp = false ∧
    (bound (regionIn .running 0) u).bound 0 = some (regionIn .running 0) ∧
    (bound (regionIn .running 0) { u with progress := some ⟨1, Clock.zero, 1, 1, []⟩ }).bound 0 = some (regionIn .running 0) ∧
    (regionIn .running 0).depth < (1 : DWord).toNat ∧ s.cur.awaits 6 = false ∧
    s.cur.lookupHandle 0 (s.cur.reg 6) = none ∧
    (s.cur.lookupHandle 0 (s.cur.reg 4)).map Handle.kind = some (.sweep 0 0) ∧
    (s.cur.lookupHandle 0 (s.cur.reg 4)).map Handle.st = some .done ∧
    (s.cur.lookupHandle 0 (s.cur.reg 5)).map Handle.st = some .busy ∧ s.cur.lookupHandle 0 (s.cur.reg 7) = some (held 2 1 .done) ∧
    (held 2 1 .done).kind = .fill 0 64 0 ∧ (regionIn .running 1).strand = some s.focus.strand ∧ (regionIn .running 1).st ≠ .frozen ∧
    0 < (regionIn .running 1).depth ∧ (regionIn .running 1).wave = none ∧ (regionIn .running 1).call = none ∧ (regionIn .running 1).ret = none := by
  refine ⟨by decide +kernel, ?_, ?_⟩
  · intro c; cases c <;> decide +kernel
  · decide +kernel

/-- A page entry at 0x10000 whose subscriber bitmap lies at 0x10040 (R355). -/
def pageEntry (u : Strand) : State := withWords (paged u [(0x10000, 0x30000)]) 0 0x30000 [0, 0, 0, 0, 0, 0, 0x10040, 0]

theorem test_witness_SubscriptionsSetOneBit :
    let s := pageEntry (regs [0x10000, 159, 160] sup)
    s.cur.got = none ∧ s.cur.progress = none ∧ settled s [1, 2] ∧ (∀ o ∈ s.cur.ops, s.opDone s.curDie o = true) ∧
    (s.cur.reg 1).toNat % 32 = 0 ∧ s.curTranslate .read (s.cur.reg 1).toNat 32 = .ok 0x30000 (page 0x10000 0x30000) ∧
    s.dwordAt s.curDie (0x30000 + 0x18) = 0x10040 ∧ (0x10040 : DWord).toNat % 32 = 0 ∧
    s.curTranslate .atomic (0x10040 : DWord).toNat 32 = .ok 0x30040 (page 0x10000 0x30000) ∧ 0x30040 + 32 ≤ 2 ^ 51 ∧
    s.curDie = homeDie 0x30040 ∧ s.reachPa s.curDie 0x30040 = .open_ ∧
    s.ownedIn (pageAttr (page 0x10000 0x30000)) 0x30000 32 = none ∧ s.ownedIn (pageAttr (page 0x10000 0x30000)) 0x30040 32 = none ∧
    (pageAttr (page 0x10000 0x30000)).ms = false ∧ s.spoilt s.curDie (some (coreOf s.focus.strand)) 0x30000 32 = false ∧
    s.spoilt s.curDie (some (coreOf s.focus.strand)) 0x30040 32 = false ∧ KeyShows s (pageAttr (page 0x10000 0x30000)) 0x30000 32 ∧
    KeyShows s (pageAttr (page 0x10000 0x30000)) 0x30040 32 ∧
    (∀ e, e < 8 → (s.clock e).covers (s.clock s.curDie) = true) ∧ Memory.wf (s.image (homeDie 0x30040)).mem = true ∧
    (s.cur.reg 2).toNat ≤ 159 ∧ 159 < (s.cur.reg 3).toNat := by
  have h : ∀ pa, KeyShows (pageEntry (regs [0x10000, 159, 160] sup)) (pageAttr (page 0x10000 0x30000)) pa 32 := fun pa => keyShows_intro (by decide +kernel)
  unfold settled
  refine ⟨by decide +kernel, by decide +kernel, by decide +kernel, by decide +kernel, by decide +kernel, by decide +kernel, by decide +kernel,
    by decide +kernel, by decide +kernel, by decide +kernel, by decide +kernel, by decide +kernel, by decide +kernel, by decide +kernel,
    by decide +kernel, by decide +kernel, by decide +kernel, h _, h _, by decide +kernel⟩

theorem test_witness_PacketsAcceptedAndClassesMasked :
    let u := regs [15, 0x1FF00, 256, 0, 16, 0xFFFF, 0x10000] sup
    let s := paged u [(0x10000, 0x30000)]
    -- the routers of die 0 hold class 15 with V and KIND 3 (R381)
    let t := { s with routes := { s.routes with held := [(0, 15, 0xE000000000000000, 0)] } }
    let v := one { u with status := 0 }
    let w := { v with routes := t.routes }
    settled s [1, 2, 3] ∧ 16 ≤ (s.cur.reg 5).toNat ∧ (s.cur.reg 4).toNat = 0 ∧ 256 < (s.cur.reg 6).toNat ∧ (s.cur.reg 1).toNat < 16 ∧
    1 ≤ (s.cur.reg 3).toNat ∧ (s.cur.reg 3).toNat ≤ 256 ∧ (s.entry s.curDie 15).w.getLsbD 63 = false ∧
    (t.entry t.curDie 15).w.getLsbD 63 = true ∧ t.cur.sup = true ∧ (t.entry t.curDie 15).w.toNat / 2 ^ 61 % 4 = 3 ∧
    (∀ o ∈ t.cur.ops, t.opDone t.curDie o = true) ∧ (t.routes.out.filter fun p => p.die = t.curDie).length < 16 ∧
    (t.cur.reg 2).toNat % 65536 + 256 ≤ 65536 ∧
    t.curTranslate .read (t.cur.reg 2).toNat 256 = .ok 0x3FF00 (page 0x10000 0x30000) ∧
    t.ownedIn (pageAttr (page 0x10000 0x30000)) 0x3FF00 256 = none ∧ t.spoilt t.curDie (some (coreOf t.focus.strand)) 0x3FF00 256 = false ∧
    t.mem.sealed = [] ∧ s.cur.awaits 6 = false ∧
    2 ^ 16 ≤ (s.cur.reg 7).toNat ∧ (s.cur.reg 6).toNat < 2 ^ 16 ∧ v.cur.sup = false ∧ v.cur.atTvec = false ∧
    (∀ c, c < 16 → (0 : Nat).testBit c = true → (v.entry v.curDie c).kind ≠ 3 ∧ (v.entry v.curDie c).ctx = v.cur.ctx) ∧
    ¬ (∀ c, c < 16 → (0xFFFF : Nat).testBit c = true → (w.entry w.curDie c).kind ≠ 3 ∧ (w.entry w.curDie c).ctx = w.cur.ctx) := by
  unfold settled; decide +kernel

/-! ### Elements -/

/-- The first element of die 0. -/
def e0 : ElemId := ⟨0, 0, 0⟩

/-- A token of eight equal words. -/
def tok (w : Word) (k : Bool) : Token := ⟨lanes fun _ => w, 1, k⟩

/-- A region over the first tiles that runs on the elements of die 0. -/
def runs : Region := { regionIn .running 0 with trows := 2, tcols := 3 }

/-- The machine in cycle 10 with an element as given in that region, its context 0 and the named lanes in focus. -/
def firing (v : Elem) (m : BitVec 8) : State :=
  let s := State.reset.setElem e0 { v with st := .running, region := some 1, gate := .awake }
  { s with cycle := 10, focus := { Focus.reset with lanes := m }, tasks := { s.tasks with regions := [runs] } }

/-- An element whose channels i0 and i1 hold a token each, the second of kind 1, with registers x1, x2, … of equal words. -/
def holding (xs : List Word) : Elem :=
  let c := (xs.foldl (fun (p : Nat × TCtx) w => (p.1 + 1, p.2.setReg (BitVec.ofNat 4 p.1) (lanes fun _ => w))) (1, TCtx.reset)).2
  { Elem.reset with pl := { Plane4K.reset with ctxs := Vector.replicate 4 c,
                                               ins := ((Vector.replicate 4 []).set 0 [⟨tok 7 false, 9⟩]).set 1 [⟨tok 9 true, 9⟩] } }

/-- CanFire from what can be computed. -/
theorem canFire_intro {s : State} {d : Dst} {srcs : List Src}
    (h : s.curCtx.fly = none ∧ (∀ c : BitVec 2, (srcs.contains (.take c) || srcs.contains (.keep c)) = true →
      ((s.curElem.pl.inq c.toNat).head?.any fun e => decide (e.at_ < s.cycle)) = true) ∧
      ∀ o : Bool, dstNames d o = true → s.curElem.pl.outUsed o s.cycle < 2) : CanFire s d srcs := by
  refine ⟨h.1, fun c hc => ?_, h.2.2⟩
  have := h.2.1 c (by simpa using hc)
  match hq : s.curElem.pl.inq c.toNat with
  | [] => simp [hq] at this
  | e :: rest => exact ⟨e, rest, rfl, by simpa [hq] using this⟩

/-- The state of most element witnesses: registers as given, all lanes. -/
def ready (xs : List Word) : State := firing (holding xs) 0xFF

theorem test_witness_ElementSourcesRead :
    let s := { ready [5] with focus := { Focus.reset with elem := ⟨7, 63, 79⟩, ctx := 3 } }
    (ready [5]).curElem.pl.inq (1 : BitVec 2).toNat = [⟨tok 9 true, 9⟩] ∧ (9 < (ready [5]).cycle) ∧ 7 < 8 ∧
    s.focus.elem.die < 8 ∧ s.focus.elem.row < 64 ∧ s.focus.elem.col < 80 ∧ s.focus.ctx < 4 := by decide +kernel

theorem test_witness_IntegerLanesCompute : CanFire (ready [5]) .both [.take 0, .keep 0] ∧ CanFire (ready [5]) (.reg 15) [.reg 1, .take 1] ∧
    CanFire (ready [5]) .none [.zero, .lane] ∧ (PUpd.nz = .cu → (none : Option (Word → Word → Bool)) ≠ none) ∧ PUpd.nz ≠ .cu := by
  refine ⟨canFire_intro ?_, canFire_intro ?_, canFire_intro ?_, ?_⟩ <;> decide +kernel

theorem test_witness_ImmediateLanesCompute : CanFire (ready [5]) .both [.zero] ∧ CanFire (ready [5]) .o1 [.take 1] ∧
    (31 : BitVec 15).toNat ≤ 31 := by
  refine ⟨canFire_intro ?_, canFire_intro ?_, ?_⟩ <;> decide +kernel

theorem test_witness_FloatLanesRoundOnce : CanFire (ready [5]) .o0 [.take 0, .take 1] ∧ (PUpd.neg = .cu → (none : Option (Word → Word → Bool)) ≠ none) ∧
    (PUpd.cu = .cu → (some fun (_ _ : Word) => true) ≠ none) := by
  refine ⟨canFire_intro ?_, ?_, ?_⟩
  · decide +kernel
  · decide
  · exact fun _ h => nomatch h

theorem test_witness_ConversionLanesAndFunctions : CanFire (ready [5]) (.reg 0) [.take 0, .reg 0] ∧
    (PUpd.none = .cu → (none : Option (Word → Word → Bool)) ≠ none) := by
  refine ⟨canFire_intro ?_, ?_⟩ <;> decide +kernel

theorem test_witness_PredicatesTakeTheirValue : (ready []).curCtx.fly = none := by decide +kernel

theorem test_witness_LaneMovesPermute : CanFire (ready [5]) .both [.take 0, .reg 1] ∧ PUpd.nz ≠ .cu ∧ PUpd.cu = .cu := by
  refine ⟨canFire_intro ?_, ?_⟩ <;> decide +kernel

theorem test_witness_LaneReductionsAndStatistics :
    (CanFire (ready [5]) .o0 [.take 0, .reg 0] ∧ PUpd.nz ≠ .cu ∧ (ready [5]).focus.lanes = 0xFF) ∧
    (CanFire (firing (holding [5]) 0x80) (.reg 3) [.take 0, .reg 0] ∧ (firing (holding [5]) 0x80).focus.lanes = BitVec.ofNat 8 (2 ^ 7)) ∧
    (CanFire (ready [5]) .none [.take 0] ∧ Dst.reg 12 = .reg 12) ∧ (ready [5]).curCtx.fly = none := by
  refine ⟨⟨canFire_intro ?_, ?_⟩, ⟨canFire_intro ?_, ?_⟩, ⟨canFire_intro ?_, ?_⟩, ?_⟩ <;> decide +kernel

/-- An element with full bits, x1 at the last word of scratch, x2 at its first granule, x3 zero, x4 all of scratch. -/
def scratched : Elem := { holding [131068, 0, 0, 131072, 131040] with full := [0, 8190, 8191] }

theorem test_witness_ScratchInstructionsAct :
    let s := firing scratched 0xFF
    (CanFire s .o0 [.reg 1, .zero] ∧ InScratch (esizeBytes .w) (accesses s .w (.reg 1)) ∧ Unspoilt s (esizeBytes .w) (accesses s .w (.reg 1)) ∧
      (∀ k ∈ granulesOf (esizeBytes .w) (accesses s .w (.reg 1)), k ∈ s.curElem.full)) ∧
    (CanFire s .o0 [.reg 5, .zero] ∧ InScratch (esizeBytes .t) (accesses s .t (.reg 5)) ∧ Unspoilt s (esizeBytes .t) (accesses s .t (.reg 5))) ∧
    (∃ k ∈ granulesOf (esizeBytes .t) (accesses s .t (.reg 2)), k ∉ s.curElem.full) ∧
    (CanFire s .none [.reg 1, .take 0] ∧ InScratch (esizeBytes .b) (accesses s .b (.reg 1)) ∧ Memory.wf s.curElem.scr = true) ∧
    (CanFire s .none [.reg 3, .reg 4] ∧ (laneOf (s.src (.reg 3)) 0).toNat % 16 = 0 ∧ (laneOf (s.src (.reg 4)) 0).toNat % 16 = 0 ∧
      (laneOf (s.src (.reg 3)) 0).toNat + (laneOf (s.src (.reg 4)) 0).toNat ≤ 131072) := by
  refine ⟨⟨canFire_intro ?_, ?_, ?_, ?_⟩, ⟨canFire_intro ?_, ?_, ?_⟩, ?_, ⟨canFire_intro ?_, ?_, ?_⟩, canFire_intro ?_, ?_⟩ <;>
    first | decide +kernel | (unfold InScratch accesses; decide +kernel) | (unfold Unspoilt accesses; decide +kernel) | (unfold accesses; decide +kernel)

/-- MemInv from the eight images. -/
theorem memInv_intro {s : State} (h : Memory.wf s.mem.dram = true ∧ Memory.wf s.mem.host = true ∧
    ∀ d, d < 8 → Memory.wf (s.image d).mem = true) : MemInv s :=
  ⟨h.1, h.2.1, fun d => by
    have := h.2.2 (d % 8) (Nat.mod_lt _ (by decide))
    simpa [State.image] using this⟩

/-- A site binding with a window of one line at 0x10000 (R142). -/
def bindOf (fill : FillRule) (chain : Nat) : Site :=
  { no := 1, kind := .loadStore, fill := fill, life := .task, lb := 256, rows := 1, pitch := 0, boff := 0, blines := 1, group := 0,
    chain := chain, seq := 0, pred := 0, base := 0x10000, extent := 256, asid := 0 }

/-- The sector of its buffer that holds offset 192, whole. -/
def sectorOf : SiteSector := ⟨1, 0, 0x10000, 0xFFFF, 0, 1, 5, 0x100C0, 0x300C0, ⟨false, false, 0⟩, 0, 0⟩

/-- An element with a site, a sector, x1 at offset 252, x2 at 64, x3 zero and x4 one sector, in a machine whose hem tile holds the
page. -/
def sited (t : Site) (m : BitVec 8) : State :=
  let v := holding [252, 64, 0, 64]
  let s := firing { v with pl := { v.pl with sites := [t] }, sectors := [sectorOf] } m
  { s with seqs := { s.seqs with tlbs := [(.hem 0 .west 0, page 0x10000 0x30000)] }, ctxs := { s.ctxs with keys := [(0, 0)] } }

/-- The translations of that page. -/
def paOf (o : Nat) : Nat := 0x30000 + o

/-- SiteOpen of such a state. -/
theorem siteOpen_intro {t : Site} {m : BitVec 8} {acc : Access} {n : Nat} {xs : List (Nat × Nat)}
    (h : (sited t m).regionOf (sited t m).focus.elem = some runs ∧ (sited t m).curElem.pl.site 1 = some t ∧
      (sited t m).hasTurn (sited t m).focus.elem t (sited t m).serial = true ∧ (∀ x ∈ xs, x.2 + n ≤ t.extent ∧ x.2 % n = 0) ∧
      (∀ x ∈ xs, (sited t m).lookup (hemOf (sited t m).focus.elem) t.asid acc true runs.task (t.base + x.2) n =
        .ok (paOf x.2) (page 0x10000 0x30000) ∧ (t.base + x.2) % 65536 + n ≤ 65536) ∧
      ∀ x ∈ xs, (sited t m).ownedIn (pageAttr (page 0x10000 0x30000)) (paOf x.2) n = none) :
    SiteOpen (sited t m) runs t 1 acc n xs paOf (fun _ => page 0x10000 0x30000) :=
  ⟨h.1, h.2.1, h.2.2.1, h.2.2.2.1, h.2.2.2.2.1, h.2.2.2.2.2⟩

theorem test_witness_SiteInstructionsAct :
    let s := sited (bindOf .demand 0) 0xFF
    let v := sited (bindOf .stream 0) 0xFF
    let n := sited (bindOf .none 0) 0x80
    let w := sited (bindOf .combine 0) 0xFF
    (CanFire s .o0 [.reg 1, .zero] ∧ SiteOpen s runs (bindOf .demand 0) 1 .read 4 (accesses s .w (.reg 1)) paOf (fun _ => page 0x10000 0x30000) ∧
      (bindOf .demand 0).fill ≠ .none ∧ (∀ x ∈ accesses s .w (.reg 1),
        s.loadHits s.focus.elem (bindOf .demand 0) (s.curElem.pl.bufSite (bindOf .demand 0)) x.2 4 = true)) ∧
    (SiteOpen s runs (bindOf .demand 0) 1 .read 1 (accesses s .b (.reg 3)) paOf (fun _ => page 0x10000 0x30000) ∧
      ∃ x ∈ accesses s .b (.reg 3), s.loadHits s.focus.elem (bindOf .demand 0) (s.curElem.pl.bufSite (bindOf .demand 0)) x.2 1 = false) ∧
    (CanFire v .o0 [.reg 3, .zero] ∧ SiteOpen v runs (bindOf .stream 0) 1 .read 1 (accesses v .b (.reg 3)) paOf (fun _ => page 0x10000 0x30000) ∧
      ∃ x ∈ accesses v .b (.reg 3), v.loadHits v.focus.elem (bindOf .stream 0) (v.curElem.pl.bufSite (bindOf .stream 0)) x.2 1 = false) ∧
    (CanFire w .none [.reg 1, .take 0] ∧ SiteOpen w runs (bindOf .combine 0) 1 .write 4 (accesses w .w (.reg 1)) paOf (fun _ => page 0x10000 0x30000) ∧
      StoreFits w runs (bindOf .combine 0) 4 (accesses w .w (.reg 1)) paOf) ∧
    (CanFire n .none [.reg 1, .take 0] ∧ SiteOpen n runs (bindOf .none 0) 1 .write 4 (accesses n .w (.reg 1)) paOf (fun _ => page 0x10000 0x30000) ∧
      (7, 252) ∈ accesses n .w (.reg 1) ∧ (∀ y ∈ accesses n .w (.reg 1), y = (7, 252)) ∧ paOf 252 + 32 ≤ 2 ^ 51 ∧
      KeyShows n (pageAttr (page 0x10000 0x30000)) (paOf 252) (esizeBytes .w) ∧ MemInv n) := by
  refine ⟨⟨canFire_intro ?_, siteOpen_intro ?_, ?_, ?_⟩, ⟨siteOpen_intro ?_, ?_⟩, ⟨canFire_intro ?_, siteOpen_intro ?_, ?_⟩,
    ⟨canFire_intro ?_, siteOpen_intro ?_, ⟨?_, ?hits, ?_, ?_, ?_⟩⟩,
    canFire_intro ?_, siteOpen_intro ?_, ?_, ?_, ?_, keyShows_intro ?_, memInv_intro ?_⟩
  case hits =>
    intro x hx p h1 h2
    have h : ∀ x ∈ accesses (sited (bindOf .combine 0) 0xFF) .w (.reg 1), (sited (bindOf .combine 0) 0xFF).storeHits runs e0 (bindOf .combine 0)
        ((sited (bindOf .combine 0) 0xFF).curElem.pl.bufSite (bindOf .combine 0)) 4 ⟨0, x.2, 4, 0, ⟨false, false, 0⟩⟩ = true := by
      unfold accesses; decide +kernel
    have := h x hx
    unfold State.storeHits at this ⊢
    rw [h1, h2]
    exact this
  all_goals first | decide +kernel | (unfold accesses; decide +kernel)

/-- MayWriteBack from what can be computed, with no sector of memory sealed. -/
theorem mayWriteBack_intro {s : State} (h : s.holdsBack s.focus.elem = false ∧
    (∀ x ∈ s.curElem.sectors, x.dirty ≠ 0 → s.ownedIn x.page x.pa.toNat 64 = none) ∧ s.mem.sealed = [] ∧
    ∀ x ∈ s.curElem.sectors, 0 ≤ x.pa ∧ x.pa % 64 = 0) : MayWriteBack s :=
  ⟨h.1, h.2.1, fun _ _ _ => keyShows_intro h.2.2.1, h.2.2.2⟩

theorem test_witness_SiteInstructionsAct_atomics_and_maintenance :
    let s := sited (bindOf .demand 0) 0xFF
    -- the third firing waits: an operation of site 1 in an earlier firing has not performed
    let f : InFlight := ⟨.sld (.reg 1) 1 (.reg 3) .b false, 0, 0xFF, 99, .fill, 0, 0, [], [], none, none, 0, Clock.zero, none⟩
    let p := s.setElem e0 { s.curElem with pl := { s.curElem.pl with ctxs := s.curElem.pl.ctxs.set 1 { s.curElem.pl.ctx 1 with fly := some f } } }
    (CanFire s .o1 [.reg 1, .reg 2] ∧ SiteOpen s runs (bindOf .demand 0) 1 .atomic 4 (accesses s .w (.reg 1)) paOf (fun _ => page 0x10000 0x30000) ∧
      s.spread runs (bindOf .demand 0).group = false ∧ (∀ x ∈ accesses s .w (.reg 1), s.spoilt s.focus.elem.die none (paOf x.2) 4 = false)) ∧
    (CanFire s .none [.reg 3, .reg 4] ∧ SiteOpen s runs (bindOf .demand 0) 1 .read 1 [] paOf (fun _ => page 0x10000 0x30000) ∧
      (bindOf .none 0).fill ≠ .demand ∧ rangeSectors ((bindOf .demand 0).range (s.src (.reg 3)) (s.src (.reg 4))) = [0] ∧
      s.lookup (hemOf s.focus.elem) (bindOf .demand 0).asid .read true runs.task ((bindOf .demand 0).base + 0) 1 =
        .ok 0x30000 (page 0x10000 0x30000) ∧ ((bindOf .demand 0).base + 0) % 65536 + 64 ≤ 65536 ∧
      s.ownedIn (pageAttr (page 0x10000 0x30000)) 0x30000 64 = none ∧ s.spoilt s.focus.elem.die none 0x30000 64 = false ∧ MayWriteBack s) ∧
    (CanFire s .o0 [.zero, .zero] ∧ s.siteDone s.focus.elem 1 s.serial = true ∧ CanFire s .none [.zero, .zero]) ∧
    (CanFire p .o0 [.zero, .zero] ∧ p.siteDone p.focus.elem 1 p.serial = false) ∧
    (sited (bindOf .none 0) 0xFF).spread runs 0 = false := by
  refine ⟨⟨canFire_intro ?_, siteOpen_intro ?_, ?_, ?_⟩, ⟨canFire_intro ?_, siteOpen_intro ?_, ?_, ?_, ?_, ?_, ?_, ?_, mayWriteBack_intro ?_⟩,
    ⟨canFire_intro ?_, ?_, canFire_intro ?_⟩, ⟨canFire_intro ?_, ?_⟩, ?_⟩ <;>
    first | decide +kernel | (unfold accesses; decide +kernel)
/-- An element with a loop nest: levels 1 and 2 used with counts 2 and 1. -/
def nested (idx : List Nat) (armed : Bool) : Elem :=
  let v := holding [0, 4]
  { v with pl := { v.pl with lgen := some ⟨[0, 0x00020004, 0x00010100, 0, 0, 1], 0x40, [2, 1, 0, 0], idx, armed⟩ } }

/-- The second element of a row in focus, with the M-element to its east as given. -/
def beside (m : Elem) : State :=
  let s := (firing (holding [0]) 0xFF).setElem ⟨0, 0, 2⟩ { holding [0] with st := .running, region := some 1, gate := .awake }
  { (s.setElem ⟨0, 0, 3⟩ m) with focus := { Focus.reset with elem := ⟨0, 0, 2⟩, lanes := 0xFF } }

/-- An M-element of the region with node words. -/
def melOf (nw : List (Nat × Word)) (mel : MElem) : Elem :=
  { Elem.reset with st := .running, region := some 1, gate := .awake, pl := { Plane4K.reset with nw := nw, mel := mel } }

theorem test_witness_ChannelInstructionsAct :
    let s := ready [0, 4]
    let f := firing (nested [0, 0, 0, 0] true) 0xFF
    let l := firing (nested [1, 0, 0, 0] true) 0xFF
    let d := firing (nested [0, 0, 0, 0] false) 0xFF
    let i := beside Elem.reset
    let m := beside (melOf [(0, 2)] MElem.reset)
    let w := beside (melOf [(0, 2)] { MElem.reset with reload := some ⟨0, [], none⟩ })
    (CanFire s .both [.take 0, .zero] ∧ CanFire s .both [.reg 1, .take 0] ∧ CanFire s .none [asTake (.keep 0), asTake (.take 1)] ∧
      s.curElem.pl.inq (0 : BitVec 2).toNat = ⟨tok 7 false, 9⟩ :: []) ∧
    (CanFire s .none [.keep 0, .zero] ∧ (tok 7 false).k = false ∧ CanFire s .none [.keep 1, .zero] ∧
      s.curElem.pl.inq (1 : BitVec 2).toNat = ⟨tok 9 true, 9⟩ :: [] ∧ (tok 9 true).k = true) ∧
    (CanFire f .o0 [.zero, .zero] ∧ f.curElem.pl.lgen.isSome = true ∧ (f.curElem.pl.lgen.map LoopGen.armed) = some true) ∧
    (∃ n, f.curElem.pl.lgen = some n ∧ 1 ≤ 1 ∧ 1 ≤ 4 ∧ nestMore n 1) ∧
    (∃ n, l.curElem.pl.lgen = some n ∧ ∀ j, 1 ≤ j → j ≤ 4 → ¬nestMore n j) ∧
    (∃ n, d.curElem.pl.lgen = some n ∧ n.armed = false) ∧ s.curElem.pl.lgen = none ∧ CanFire f .none [.take 0, .zero] ∧
    (eastOf i.focus.elem = ⟨0, 0, 3⟩ ∧ CanFire i .none [(none : Option Src).getD .zero, .zero] ∧ (i.elem ⟨0, 0, 3⟩).pl.inert = true ∧
      (i.elem ⟨0, 0, 3⟩).region ≠ i.curElem.region) ∧
    (CanFire m .none [(some (Src.reg 1)).getD .zero, .zero] ∧ (m.elem ⟨0, 0, 3⟩).pl.inert = false ∧
      (m.elem ⟨0, 0, 3⟩).region = m.curElem.region ∧ blockAt m none ⟨0, 0, 3⟩ = 0 ∧ blockAt m (some (.reg 1)) ⟨0, 0, 3⟩ = 0 ∧
      0 + blockBytes ((m.elem ⟨0, 0, 3⟩).pl.node 0) ≤ 131072 ∧ (m.elem ⟨0, 0, 3⟩).pl.mel.reload = none) ∧
    ((w.elem ⟨0, 0, 3⟩).pl.mel.reload ≠ none ∧ CanFire w .none [(none : Option Src).getD .zero, .zero]) := by
  refine ⟨⟨canFire_intro ?_, canFire_intro ?_, canFire_intro ?_, ?_⟩, ⟨canFire_intro ?_, ?_, canFire_intro ?_, ?_⟩, ⟨canFire_intro ?_, ?_⟩,
    ⟨_, rfl, by decide, by decide, by unfold nestMore; decide +kernel⟩,
    ⟨_, rfl, fun j h1 h4 => by
      have h : j = 1 ∨ j = 2 ∨ j = 3 ∨ j = 4 := by omega
      rcases h with rfl | rfl | rfl | rfl <;> (unfold nestMore; decide +kernel)⟩, ⟨_, rfl, rfl⟩, ?_, canFire_intro ?_, ⟨?_, canFire_intro ?_, ?_⟩, ⟨canFire_intro ?_, ?_⟩, ?_, canFire_intro ?_⟩ <;>
    decide +kernel

/-- The region with ports: queue port 15 at 0x10000, barrier port 15 at 0x20040. -/
def ported : Region :=
  { runs with info := some { image := 0, load := 0, args := 0, argv := [], trows := 2, tcols := 3, scrhw := 0, retain := false, calls := [],
                             decls := [], qports := List.replicate 15 none ++ [some 0x10000],
                             bports := List.replicate 15 none ++ [some 0x20040] } }

/-- Its element with a queue of two 8-byte elements at 0x30000 and a barrier of two at 0x30040. -/
def atPort (head tail free closed arrived : Nat) (v : Elem) : State :=
  let s := firing v 0xFF
  let t := { s with tasks := { s.tasks with regions := [ported] }, ctxs := { s.ctxs with keys := [(0, 0)] },
                    seqs := { s.seqs with tlbs := [(.hem 0 .west 0, page 0x10000 0x30000), (.hem 0 .west 0, page 0x20000 0x30000)] } }
  withWords t 0 0x30000 [head, tail, free, 0x00010008, 0x20100, 0, closed * 2 ^ 30 + 0x50, 0x5B01, 0x30100, 0, 0, 0, tail, 0, head, 0,
    6, 2, arrived, 2]

theorem test_witness_PortsPermitsAndControlAct :
    let s := atPort 0 1 1 0 0 (holding [5])
    let k := blockOf 0 1 1 0
    let w := { s with fab := { s.fab with elems := putElem s.fab.elems e0 { s.curElem with posted := [⟨0, .bar, 0x20040, 0x30040, ⟨false, false, 0⟩, [], 16, 0, Clock.zero, 5, 0⟩] } } }
    (PortOpen s ported false (15 : BitVec 5).toNat 64 0x30000 (page 0x10000 0x30000) ∧ k = s.qblock s.focus.elem.die 0x30000 ∧ k.esize ≤ 32 ∧
      CanFire s .none [.reg 1, .zero] ∧ CanFire s .none [.zero, .zero] ∧ k.pmode ≠ 2 ∧ k.cmode ≠ 2 ∧
      k = s.qblock (homeDie 0x30000) 0x30000 ∧ k.unsound 0x30000 = 0 ∧ k.corrupt = false ∧ k.closed = false ∧ s.ports.parked = [] ∧
      Memory.wf (s.image (homeDie 0x30000)).mem = true ∧ 1 ≤ k.free ∧
      (pageAttr (page 0x10000 0x30000)).ms = false ∧ s.mem.sealed = [] ∧
      (s.clock (homeDie 0x30000)).covers (s.clock s.focus.elem.die) = true ∧ k.slotPa k.tail + k.esize ≤ 2 ^ 51 ∧
      0x30000 + 64 ≤ k.slotPa k.tail ∧ k.count ≠ 0 ∧ k.slotPa k.head + k.esize ≤ 2 ^ 51) ∧
    (PortOpen s ported true (15 : BitVec 5).toNat 16 0x30040 (page 0x20000 0x30000) ∧ CanFire s .none [.zero, .zero]) ∧
    (CanFire s .both [.zero, .zero] ∧ s.curElem.posted = [] ∧ s.fab.updates = [] ∧ CanFire w .o0 [.zero, .zero] ∧
      (∃ p ∈ w.curElem.posted, p.ctx = w.focus.ctx)) ∧
    (s.regionOf s.focus.elem = some ported ∧ CanFire s .none [.zero] ∧ CanFire s .none [.take 0] ∧ ported.call = none ∧
      ported.ret = none ∧ ported.wave = none ∧ s.focus.elem.col % 8 ≠ 3) := by
  refine ⟨⟨⟨?_, ?_, ?_, 0x10000, ?_, ?_⟩, ?_, ?_, canFire_intro ?_, canFire_intro ?_, ?_⟩, ⟨⟨?_, ?_, ?_, 0x20040, ?_, ?_⟩, canFire_intro ?_⟩,
    ⟨canFire_intro ?_, ?_, ?_, canFire_intro ?_, ?_⟩, ⟨?_, canFire_intro ?_, canFire_intro ?_, ?_⟩⟩ <;> decide +kernel

/-! ### Events of the fabric -/

/-- An instruction in flight that is due. -/
def flyAt (i : Instr) (w : Waiting) : InFlight :=
  { instr := i, slot := 0, exec_ := 0xFF, due := 10, wait := w, a := lanes fun _ => 0, b := 0, regs := [], preds := [], o0 := none,
    o1 := none, id := 5, clock := Clock.zero, fails := none }

/-- The element with an instruction in flight in context 3. -/
def inFlight (v : Elem) (f : InFlight) : Elem :=
  { v with pl := v.pl.setCtx 3 { v.pl.ctx 3 with fly := some f } }

/-- An element with its gating and idle time. -/
def gated (g : Gate) (n : Nat) : State :=
  State.reset.setElem e0 { Elem.reset with gate := g, idleFor := n, st := .running }

theorem test_witness_FiringsCompleteAndWaitsEnd :
    let f := { flyAt (.iadd ⟨.reg 1, .reg 2, .reg 3, 2, .nz, 0, 0⟩) .no with regs := [(1, 7, 0xFF)], preds := [(2, 1, 0xFF)], o0 := some (tok 1 false) }
    let s := firing (inFlight (holding []) f) 0xFF
    let h := flyAt (.wsplit true .o0 (.take 0) 1) (.pieces 1)
    let l := { flyAt (.wsplit true .o0 (.take 0) 1) (.pieces 2) with o0 := some (tok 1 false) }
    let d := flyAt (.sld .o0 1 (.reg 3) .w false) .fill
    let b := bindOf .none 1
    let z := { (sited (bindOf .none 1) 0xFF) with fab := { (sited (bindOf .none 1) 0xFF).fab with
      elems := putElem (sited (bindOf .none 1) 0xFF).fab.elems e0 (inFlight (sited (bindOf .none 1) 0xFF).curElem d) } }
    let o := flyAt (.ordt true .none 1 0) .turn
    let w := { z with fab := { z.fab with elems := putElem z.fab.elems e0 (inFlight (sited (bindOf .none 1) 0xFF).curElem o) } }
    let x := { z with fab := { z.fab with elems := putElem z.fab.elems e0 (inFlight (sited (bindOf .none 1) 0xFF).curElem { o with fails := some (0x0F, 0, 0) }) } }
    (s.flying e0 3 = some f ∧ f.due ≤ s.cycle ∧ f.wait = .no ∧ (f.regs.map Prod.fst).Nodup ∧ (f.preds.map Prod.fst).Nodup ∧
      s.regionOf e0 = some runs ∧ runs.wave = none) ∧
    ((firing (inFlight (holding []) h) 0xFF).flying e0 3 = some h ∧ h.due ≤ 10 ∧ (firing (inFlight (holding []) h) 0xFF).waving e0 = false ∧
      1 < 2 ∧ (firing (inFlight (holding []) h) 0xFF).curElem.pl.outUsed false 10 < 2 ∧ (firing (inFlight (holding []) l) 0xFF).flying e0 3 = some l ∧
      l.wait = .pieces 2) ∧
    (z.flying e0 3 = some d ∧ d.wait = .fill ∧ d.due ≤ z.cycle ∧ d.fails = none ∧ z.regionOf e0 = some runs ∧ (z.elem e0).pl.site 1 = some b ∧
      z.hasTurn e0 b d.id = true ∧ b.fill = .none ∧ (∀ x ∈ laneOffsets d.exec_ .w d.a, x.2 + esizeBytes .w ≤ b.extent ∧ x.2 % esizeBytes .w = 0 ∧
        z.lookup (hemOf e0) b.asid .read true runs.task (b.base + x.2) (esizeBytes .w) = .ok (paOf x.2) (page 0x10000 0x30000) ∧
        (b.base + x.2) % 65536 + esizeBytes .w ≤ 65536 ∧
        z.ownedIn (pageAttr (page 0x10000 0x30000)) (paOf x.2) (esizeBytes .w) = none ∧ z.spoilt e0.die none (paOf x.2) (esizeBytes .w) = false) ∧
      z.mem.sealed = []) ∧
    (w.flying e0 3 = some o ∧ o.wait = .turn ∧ w.waving e0 = false ∧ siteNamed o.instr = some 1 ∧ (w.elem e0).pl.site 1 = some b ∧ b.chain ≠ 0 ∧
      w.hasTurn e0 b o.id = true ∧ o.fails = none ∧ x.flying e0 3 = some { o with fails := some (0x0F, 0, 0) } ∧ x.hasTurn e0 b o.id = true) ∧
    (((gated .awake 16).elem e0).gate = .awake ∧ 16 ≤ ((gated .awake 16).elem e0).idleFor ∧ ((gated .awake 16).elem e0).idle = true) ∧
    (((gated .clock 4096).elem e0).gate = .clock ∧ 4096 ≤ ((gated .clock 4096).elem e0).idleFor ∧ ((gated .clock 4096).elem e0).idle = true) ∧
    ((State.reset.setElem e0 { Elem.reset with gate := .awake }).elem e0).gate ≠ .power ∧
    ((State.reset.setElem e0 { Elem.reset with gate := .awake }).elem e0).st = .unconfigured ∧
    ((gated (.waking 0) 0).elem e0).gate = .waking 0 ∧ 0 ≤ (gated (.waking 0) 0).cycle := by decide +kernel

/-- The element to the east. -/
def e1 : ElemId := ⟨0, 0, 1⟩

/-- Two neighbours: the first sends o0 east on plane A, the second takes from the west into i0. -/
def linked2 : State :=
  let v := { holding [] with pl := { (holding []).pl with sw := (Vector.replicate 2 0).set 0 0x0A00,
                                                          outs := (Vector.replicate 2 []).set 0 [.filled ⟨tok 5 false, 9⟩] } }
  let s := firing v 0xFF
  s.setElem e1 { Elem.reset with st := .running, region := some 1, gate := .awake, pl := { Plane4K.reset with sw := (Vector.replicate 2 0).set 0 4 } }

/-- A packet for e0. -/
def packetOf (load : RowLoad) : RowPacket := ⟨1, e0, false, 3, load, 9, 0, none, none, 0⟩

/-- An update of e1 for the directory, or on its way from it to e0. -/
def updateOf (stage : Nat) (toward : List ElemId) : SpreadUpdate := ⟨3, 1, 2, e1, 0, 1, 0, 0x100C0, 0xFF, 9, stage, toward, 9⟩

/-- A posted operation of the port at 0x10000 or 0x20040. -/
def post (kind : PostKind) (va pa size : Nat) (data : List Byte) : Posted :=
  ⟨1, kind, va, pa, pageAttr (page (va / 65536 * 65536) 0x30000), data, size, 4, Clock.zero, 9, 0⟩

/-- The ring and barrier of `atPort` with a posted operation of e0. -/
def posting (p : Posted) (head tail free closed arrived : Nat) : State :=
  atPort head tail free closed arrived { holding [5] with posted := [p] }

theorem test_witness_TokensUpdatesAndPortsMove :
    let s := linked2
    let p := packetOf (.queue 2 (tok 3 false))
    let q := packetOf (.scratch 131040 (tok 3 false))
    let sp := { ready [] with fab := { (ready []).fab with packets := [p] } }
    let sq := { ready [] with fab := { (ready []).fab with packets := [q] } }
    let u := updateOf 0 []
    let su := { ready [] with fab := { (ready []).fab with updates := [u], holders := [(512, 2, 0x100C0, [e0, e1])] } }
    let sn := { ready [] with fab := { (ready []).fab with updates := [u], holders := [(512, 2, 0x100C0, [e1])] } }
    let a := updateOf 1 [e0]
    let sa := { sited { bindOf .demand 0 with group := 2 } 0xFF with fab := { (sited { bindOf .demand 0 with group := 2 } 0xFF).fab with updates := [a] } }
    let sc := sa.setElem e0 { sa.elem e0 with gate := .clock }
    (e1 = { e0 with col := e0.col + 1 } ∧ e0.col < 79 ∧ (s.elem e0).pl.outq false = .filled ⟨tok 5 false, 9⟩ :: [] ∧ 9 < s.cycle ∧
      (tok 5 false).tag ≠ 7 ∧ (s.elem e0).pl.dirs .a 5 = [1] ∧ (s.elem e0).pl.sel .a 4 ≠ 5 ∧ (s.elem e0).pl.hopOn .a = false ∧
      (s.elem e0).pl.dirs .b 5 = [] ∧ (s.elem e0).pl.sel .b 4 ≠ 5 ∧ s.joined e0 e1 = true ∧ (s.elem e1).pl.sel .a 4 = 4 ∧
      (s.elem e1).pl.dirs .a 4 = [] ∧ (s.elem e1).gate = .awake ∧ ((s.elem e1).pl.inq 0).length < 4 ∧ s.mayMove e0 = true) ∧
    (sp.fab.packets[0]? = some p ∧ p.dst = e0 ∧ p.by_ = 0 ∧ sp.deliverable p = true ∧ p.frees = none ∧ ((sp.elem e0).pl.inq 2).length < 4 ∧
      sq.deliverable q = true ∧ Memory.wf (sq.elem e0).scr = true) ∧
    (su.nextForward 1 = some u ∧ (su.holdersOf (((su.region 1).map Region.key).getD 0) u.group u.va).filter (· != u.src) = [e0] ∧
      sn.nextForward 1 = some u ∧ (sn.holdersOf (((sn.region 1).map Region.key).getD 0) u.group u.va).filter (· != u.src) = []) ∧
    (sc.toApply 1 = [(a, e0)] ∧ (sc.elem e0).gate = .clock) ∧
    ((sa.toApply 1).find? (fun y => decide ((sa.elem y.2).gate = .awake)) = some (a, e0) ∧ sectorOf ∈ (sa.elem e0).sectors ∧ sectorOf.va = a.va ∧
      (∃ b ∈ (sa.elem e0).pl.sites, b.no = sectorOf.site ∧ b.group = a.group)) := by
  refine ⟨?_, ?_, ?_, ?_, ?_⟩ <;> decide +kernel

/-- Sends from what can be computed, with no party parked and no sector sealed. -/
theorem sends_intro {s : State} {e : ElemId} {p : Posted} {n : Nat} (h : s.reachPa e.die p.pa = .open_ ∧
    (s.clock (homeDie p.pa)).covers p.clock = true ∧ s.ownedIn p.page p.pa 16 = none ∧ p.page.ms = false ∧ s.mem.sealed = [] ∧
    p.pa + n ≤ 0x8000000000000 ∧ s.ports.parked = [] ∧ Memory.wf (s.image (homeDie p.pa)).mem = true) : Sends s e p n :=
  ⟨h.1, h.2.1, h.2.2.1, ⟨h.2.2.2.1, keyShows_intro h.2.2.2.2.1, h.2.2.2.2.2.1⟩, by simp [h.2.2.2.2.2.2.1], h.2.2.2.2.2.2.2⟩

theorem test_witness_TokensUpdatesAndPortsMove_queues :
    let e := post .enq 0x10000 0x30000 8 (toBytes 8 77)
    let d := post .deq 0x10000 0x30000 8 []
    let full := posting e 0 2 0 0 0
    let room := posting e 0 1 1 0 0
    let dry := posting d 3 3 2 0 0
    let wet := posting d 1 3 0 0 0
    (full.firstPost e0 (fun z => z = .enq) = some e ∧ Sends full e0 e 64 ∧ RingAlone full e.pa (blockOf 0 2 0 0) ∧ e.size = (blockOf 0 2 0 0).esize ∧
      (blockOf 0 2 0 0).closed = false ∧ e.data.length = (blockOf 0 2 0 0).esize ∧ (blockOf 0 2 0 0).free = 0) ∧
    (room.firstPost e0 (fun z => z = .enq) = some e ∧ Sends room e0 e 64 ∧ RingAlone room e.pa (blockOf 0 1 1 0) ∧ e.size = (blockOf 0 1 1 0).esize ∧
      (blockOf 0 1 1 0).closed = false ∧ e.data.length = (blockOf 0 1 1 0).esize ∧ 1 ≤ (blockOf 0 1 1 0).free ∧ room.mem.sealed = [] ∧
      (blockOf 0 1 1 0).slotPa 1 + 8 ≤ 2 ^ 51 ∧ 0x30000 + 64 ≤ (blockOf 0 1 1 0).slotPa 1) ∧
    (dry.firstPost e0 (fun z => z = .deq) = some d ∧ Sends dry e0 d 64 ∧ RingAlone dry d.pa (blockOf 3 3 2 0) ∧ d.size = (blockOf 3 3 2 0).esize ∧
      (blockOf 3 3 2 0).count = 0 ∧ (blockOf 3 3 2 0).closed = false) ∧
    (wet.firstPost e0 (fun z => z = .deq) = some d ∧ Sends wet e0 d 64 ∧ RingAlone wet d.pa (blockOf 1 3 0 0) ∧ d.size = (blockOf 1 3 0 0).esize ∧
      (blockOf 1 3 0 0).count ≠ 0 ∧ (blockOf 1 3 0 0).slotPa 1 + 8 ≤ 2 ^ 51) := by
  refine ⟨⟨?_, sends_intro ?_, ⟨?_⟩, ?_⟩, ⟨?_, sends_intro ?_, ⟨?_⟩, ?_⟩, ⟨?_, sends_intro ?_, ⟨?_⟩, ?_⟩, ⟨?_, sends_intro ?_, ⟨?_⟩, ?_⟩⟩ <;>
    decide +kernel

theorem test_witness_TokensUpdatesAndPortsMove_arrivals :
    let b := post .bar 0x20040 0x30040 16 []
    let last := posting b 0 1 1 0 1
    let first := posting b 0 1 1 0 0
    let w : Parked := ⟨.strand 0, 0x30000, .consumer, 8, [], 0, 0, 0, 0, Mark.plain⟩
    let c := { one { sup with status := 0xC0, events := [⟨3, 0, none⟩] } with ports := { State.reset.ports with parked := [w] } }
    (last.firstPost e0 (fun z => z = .bar || z = .barNa) = some b ∧ b.kind = .bar ∧ Sends last e0 b 16 ∧
      last.bword (homeDie 0x30040) 0x30040 = ⟨6, 2, 1, 2⟩ ∧ BWord.sound ⟨6, 2, 1, 2⟩ 0x30040 = true ∧ (⟨6, 2, 1, 2⟩ : BWord).poisoned = false ∧
      e0.die = homeDie 0x30040 ∧ ∀ d, d < 8 → (last.clock d).covers b.clock = true) ∧
    (first.firstPost e0 (fun z => z = .bar || z = .barNa) = some b ∧ Sends first e0 b 16 ∧ first.bword (homeDie 0x30040) 0x30040 = ⟨6, 2, 0, 2⟩) ∧
    (c.ports.parked.find? (fun v => decide (v.party = .strand 0)) = some w ∧ w.side ≠ .barrier ∧ c.cancels (.strand 0) = true) := by
  refine ⟨⟨?_, ?_, sends_intro ?_, ?_⟩, ⟨?_, sends_intro ?_, ?_⟩, ?_⟩ <;> decide +kernel
/-! ### M-elements, regions and levels -/

/-- The first M-element of die 0. -/
def m0 : ElemId := ⟨0, 0, 3⟩

/-- The machine in cycle 10 with that M-element as given. -/
def withMel (v : Elem) : State := (firing (holding []) 0xFF).setElem m0 v

/-- An M-element with a token on i0. -/
def fed (nw1 : Word) (mel : MElem) (t : Token) : State :=
  let v := melOf [(0, 2), (1, nw1)] mel
  withMel { v with pl := { v.pl with ins := (Vector.replicate 4 []).set 0 [⟨t, 9⟩] } }

/-- A fired row of 32 ones that is due. -/
def firedRow : FiredRow := ⟨List.replicate 32 1, 10⟩

theorem test_witness_MElementsLoadAssembleAndFire :
    let r := withMel { melOf [(0, 2)] { MElem.reset with reload := some ⟨0, [], none⟩ } with full := [0, 1, 2, 3, 4, 5, 6, 7] }
    let l := withMel (melOf [(0, 2)] { MElem.reset with reload := some ⟨0, [1], some 10⟩ })
    let a := fed 0 MElem.reset (tok 3 false)
    let b := fed 1 MElem.reset (tok 3 false)
    let h := fed 0 MElem.reset (tok 0 true)
    let k := fed 0 MElem.reset (tok 0x10000000 true)
    let n := fed 0 { MElem.reset with part := [tok 3 false] } (tok 0 true)
    let f := withMel (melOf [(0, 0), (2, 0x25)] { MElem.reset with weights := some ⟨0, [1]⟩, rowq := [([tok 3 false], none)] })
    let c := withMel { melOf [(0, 0), (2, 0x25)] MElem.reset with pl := { (melOf [(0, 0), (2, 0x25)] MElem.reset).pl with ins := (Vector.replicate 4 []).set 1 [⟨tok 0x10000000 true, 9⟩] } }
    let o := withMel (melOf [(0, 2), (2, 0x25)] { MElem.reset with fired := [firedRow] })
    let p := withMel (melOf [(0, 2), (2, 0x20)] { MElem.reset with fired := [firedRow] })
    let q := withMel (melOf [(0, 2), (2, 0x220)] { MElem.reset with fired := [firedRow] })
    ((r.elem m0).pl.mel.reload = some ⟨0, [], none⟩ ∧
      (∀ g ∈ readGranules (0 + ([] : List Byte).length) (min 128 (blockBytes ((r.elem m0).pl.node 0) - ([] : List Byte).length)), g ∈ (r.elem m0).full) ∧
      (r.elem m0).meetsSpoilt (0 + ([] : List Byte).length) (min 128 (blockBytes ((r.elem m0).pl.node 0) - ([] : List Byte).length)) = false ∧
      (l.elem m0).pl.mel.reload = some ⟨0, [1], some 10⟩ ∧ 10 ≤ l.cycle) ∧
    (a.melRuns m0 = true ∧ (a.elem m0).pl.inq (a.elem m0).pl.nextChan = ⟨tok 3 false, 9⟩ :: [] ∧ 9 < a.cycle ∧
      (a.elem m0).pl.inq (1 - (a.elem m0).pl.nextChan) = [] ∧ (a.elem m0).pl.mel.rowq.length < 4 ∧
      (a.elem m0).pl.mel.part.length + 1 ≠ (a.elem m0).pl.rowTokens ∧ (tok 3 false).k = false) ∧
    (b.melRuns m0 = true ∧ (b.elem m0).pl.inq (b.elem m0).pl.nextChan = ⟨tok 3 false, 9⟩ :: [] ∧
      (b.elem m0).pl.inq (1 - (b.elem m0).pl.nextChan) = [] ∧ (b.elem m0).pl.mel.part.length + 1 = (b.elem m0).pl.rowTokens) ∧
    (h.melRuns m0 = true ∧ (h.elem m0).pl.inq (h.elem m0).pl.nextChan = ⟨tok 0 true, 9⟩ :: [] ∧ (h.elem m0).pl.mel.part = [] ∧
      scaleHeader (h.elem m0).pl.afmt (laneOf (tok 0 true).data 0) = true ∧
      scaleHeader (k.elem m0).pl.afmt (laneOf (tok 0x10000000 true).data 0) = false ∧ (n.elem m0).pl.mel.part ≠ []) ∧
    (c.headerAstray m0 = some 0x10000000 ∧ c.melRuns m0 = true) ∧
    ((f.elem m0).pl.mel.rowq = ([tok 3 false], none) :: [] ∧ (f.elem m0).pl.mel.weights = some ⟨0, [1]⟩ ∧ f.melRuns m0 = true ∧
      (f.elem m0).pl.mel.reload = none ∧ (f.elem m0).pl.pos = 0 ∧ (f.elem m0).pl.csrc = 0 ∧ f.sinkRoom m0 (f.elem m0).pl.mel.fired.length = true ∧ f.headerAstray m0 = none ∧
     
      f.rateAllows m0 ⟨0, [1]⟩ = true ∧ (f.elem m0).pl.path = 2) ∧
    ((o.elem m0).pl.mel.fired = firedRow :: [] ∧ firedRow.due ≤ o.cycle ∧ o.sinkRoom m0 0 = true ∧ firedRow.vals.length = 32 ∧
      wfield ((o.elem m0).pl.node 2) 9 9 = 0 ∧ (o.elem m0).pl.ofmt = 5) ∧
    (p.sinkRoom m0 0 = true ∧ wfield ((p.elem m0).pl.node 2) 9 9 = 0 ∧ (p.elem m0).pl.ofmt ≠ 5) ∧
    (q.sinkRoom m0 0 = true ∧ wfield ((q.elem m0).pl.node 2) 9 9 = 1 ∧ Memory.wf (q.elem m0).scr = true) := by decide +kernel

/-- An image of 96 bytes for one tile with one load and no records; its CHECK is CRC-32 of the other bytes (R261). -/
def imageWords : List Nat := [0x524D5250, 1, 96, 0x9ED494F3, 0x00010101, 0, 64, 0, 0, 0, 0, 0, 0, 0, 0, 0, 0, 0, 0, 0, 0, 0, 0, 0]
/-- The same with a reserved word of its header set. -/
def badImageWords : List Nat := [0x524D5250, 1, 96, 0x0BA44066, 0x00010101, 0, 64, 0, 0, 0, 0, 0, 0, 0, 0, 1, 0, 0, 0, 0, 0, 0, 0, 0]

/-- The machine with strand 0 bound to a region, commands, and words at 0x30000, which die 0's engines find at 0x10000. -/
def loading (u : Strand) (gs : List Region) (cs : List Cmd) (ws : List Nat) : State :=
  let s := withWords (one u) 0 0x30000 ws
  { s with cycle := 10, tasks := { s.tasks with regions := gs }, engs := { s.engs with cmds := cs }, ctxs := { s.ctxs with keys := [(0, 0)] },
           seqs := { s.seqs with tlbs := [(.engine 0, page 0x10000 0x30000)] } }

/-- Strand 0 bound to region 1. -/
def binder : Strand := { sup with region := some 1 }

/-- For whom an image is read in those tests. -/
def who0 (w : Waiter) : Binder := ⟨w, 0, 0, 0, false, none⟩

set_option maxRecDepth 20000 in
theorem test_witness_RegionsBindConfigureAndEnd :
    let o := { opOf (.place 0x10000 0) .ld with due := 9 }
    let s := loading { binder with ops := [o] } [] [] imageWords
    (s.placeReqs 0 = [.place 0 o 0x10000 0] ∧ field (0 : DWord) 63 16 = 0 ∧ field (0 : DWord) 14 9 = 0 ∧ (s.strand 0).region = some 1) := by decide +kernel

set_option maxRecDepth 20000 in
theorem test_witness_RegionsBindConfigureAndEnd_new_region :
    let o := { opOf (.place 0x10000 0) .ld with due := 9 }
    let t := loading { sup with ops := [o] } [] [] imageWords
    (t.placeReqs 0 = [.place 0 o 0x10000 0] ∧ (t.strand 0).region = none ∧ t.tasks.regions = [] ∧
      (match t.readImage (who0 (.op 0 1)) 0x10000 with
       | (.inl b, s1) => decide ((headerOf b).badField b = none ∧ s1.chooseOrigin (headerOf b) 0 origins = some (0, 0) ∧ s1.tasks.regions = [])
       | _ => false) = true) := by decide +kernel

set_option maxRecDepth 20000 in
theorem test_witness_RegionsBindConfigureAndEnd_load :
    let c := cmdOf 7 (.cfgld 0x10000 0 0)
    let rv := regionIn .reserved 0
    let v := loading binder [rv] [c] imageWords
    (v.region 1 = some rv ∧ rv.st = .reserved ∧ rv.wave = none ∧ v.nextLoad rv = some (c, 0x10000, 0, 0) ∧ v.seenAs c.strand rv = (.reserved, c.ctx) ∧
      (match v.readImage (who0 (.cmd 7)) 0x10000 with | (.inl b, _) => decide (loadUnfit rv (headerOf b) 0 = none) | _ => false) = true) := by decide +kernel

set_option maxRecDepth 20000 in
theorem test_witness_RegionsBindConfigureAndEnd_checks :
    let c := cmdOf 7 (.cfgld 0x10000 0 0)
    let ck := { regionIn .checking 0 with cfgCmd := some 7 }
    let k := loading binder [ck] [c] imageWords
    let b := loading binder [ck] [c] badImageWords
    (k.region 1 = some ck ∧ k.binding ck = some (0x10000, 0, 0, false, none) ∧
      (match k.readImage (who0 (.region 1)) 0x10000 with
       | (.inl b, s1) => (match s1.checkBinding (who0 (.region 1)) b 0x10000 0 0 ck.row0 ck.col0 with | (.inl _, _) => true | _ => false)
       | _ => false) = true ∧
      (match b.readImage (who0 (.region 1)) 0x10000 with
       | (.inl y, s1) => (match s1.checkBinding (who0 (.region 1)) y 0x10000 0 0 ck.row0 ck.col0 with | (.inr f, _) => !f.waits | _ => false)
       | _ => false) = true ∧ b.cmd 7 = some c ∧ c.ended = none) := by decide +kernel

set_option maxRecDepth 20000 in
theorem test_witness_RegionsBindConfigureAndEnd_words_and_ends :
    let c := cmdOf 7 (.cfgld 0x10000 0 0)
    let cf (trig op : Word) := { regionIn .configuring 0 with items := [.word e0 1 0 3 [trig, op]] }
    let w := (loading binder [cf 0x14000000 0x75300021] [c] []).setElem e0 { Elem.reset with st := .configuring, region := some 1 }
    let ce := { regionIn .configuring 0 with cfgCmd := some 7 }
    let cd := { regionIn .configuring 0 with byDisp := true }
    let cb := { regionIn .configuring 0 with cfgCmd := some 7, bad := [(e0, 1, 4096)] }
    let rn := regionIn .running 0
    let re := { regionIn .running 0 with cfgCmd := some 7, ending := true }
    let rf := { regionIn .running 0 with failed := some 0x10, ending := true, task := some 4 }
    let x := loading binder [re] [c] []
    let z := { (loading binder [rf] [] []) with tasks := { State.reset.tasks with regions := [rf], tasks := [taskOf0 .running] } }
    (w.region 1 = some (cf 0x14000000 0x75300021) ∧ (w.elem e0).st = .configuring ∧ wordBad e0 0 [0x14000000, 0x75300021] = none ∧
      wordBad e0 0 [0x14000000, 0] = some 1) ∧
    ((loading binder [ce] [c] []).region 1 = some ce ∧ ce.items = [] ∧ ce.bad = [] ∧ ce.wave = none ∧ ce.cfgCmd ≠ none ∧
      (∀ e ∈ ce.elems, ((loading binder [ce] [c] []).elem e).pl.sites = []) ∧ cd.byDisp = true ∧ cd.cfgCmd = none ∧ cd.levels = [] ∧
      cb.bad = [(e0, 1, 4096)] ∧ (loading binder [cb] [c] []).cmd 7 = some c) ∧
    (rn.ending = false ∧ (loading binder [rn] [] []).allHalted rn = true ∧ re.ending = true ∧ x.settledLoad re = true ∧ x.streamsOf re 0 = [] ∧
      x.cmd 7 = some c ∧ (∀ z ∈ x.engs.cmds, z.id = 7 → z.strm = none) ∧ x.engs.sweeps = []) ∧
    (z.region 1 = some rf ∧ z.quiet rf = true ∧ z.taskNo 4 = some (taskOf0 .running) ∧ (taskOf0 .running).open_ = true) := by decide +kernel

/-- A frozen level of a region. -/
def levelAt (kind : LevelKind) (place : LevelPlace) (calls : List DWord) : Level :=
  { kind := kind, place := place, info := { LoadInfo.none with image := 0x10000, calls := calls, trows := 1, tcols := 1 }, next := none, items := [], bad := [],
    more := [], depth := 0, voids := [], saveBytes := 0, frameLen := 0, cmd := none, saved := [⟨e0, .running, Plane4K.reset, [], []⟩], ctx := 0, was := .running, failed := none }

/-- The machine with a region of levels, whose engines find two pages of frames at 0x100000. -/
def levelled (g : Region) (cs : List Cmd) (ws : List Nat) : State :=
  let s := loading binder [g] cs ws
  -- descriptor 0 at 0: V, and the hamper base 0x100000 (R221)
  let t := withWords { s with seqs := { s.seqs with tlbs := [(.engine 0, page 0x10000 0x30000), (.engine 0, page 0x100000 0x50000), (.engine 0, page 0x110000 0x60000)] } }
    0 0 [0, 0, 0, 0x2000, 0, 0, 0, 0, 0x100000, 0]
  t

set_option maxRecDepth 20000 in
theorem test_witness_FreezesCallsAndReturnsMoveLevels :
    let gw := { regionIn .running 0 with wave := some ⟨[.freeze], 3⟩ }
    let p : Parked := ⟨.elem e0 3, 0x30000, .consumer, 8, [], 0, 0, 0, 0, Mark.plain⟩
    let sw := { levelled gw [] [] with ports := { State.reset.ports with parked := [p] } }
    let sv := sw.setElem e0 (inFlight Elem.reset (flyAt (.edeq false 0 0) .delivery))
    ((levelled gw [] []).region 1 = some gw ∧ p ∈ sv.ports.parked ∧ p.side ≠ .barrier ∧ p.party = .elem e0 3 ∧ gw.holds e0 = true ∧
      sv.flying e0 3 = some (flyAt (.edeq false 0 0) .delivery)) := by decide +kernel

set_option maxRecDepth 20000 in
theorem test_witness_FreezesCallsAndReturnsMoveLevels_freeze_point :
    let gw := { regionIn .running 0 with wave := some ⟨[.freeze], 3⟩ }
    (gw.ending = false ∧ gw.levels = [] ∧ (levelled gw [] []).still gw = true) := by decide +kernel

set_option maxRecDepth 20000 in
theorem test_witness_FreezesCallsAndReturnsMoveLevels_callee :
    let ow := levelAt (.call 0 (some e0) none) (.pleat 1) [0xC000000000000000]
    let gc := { regionIn .frozen 0 with levels := [ow] }
    let nw := levelAt (.call 0 (some e0) none) (.pleat 1) [0]
    let gn := { regionIn .frozen 0 with levels := [nw] }
    ((levelled gc [] imageWords).region 1 = some gc ∧ gc.levels = ow :: [] ∧
      (match (levelled gc [] imageWords).checkCallee gc ow 0 none with | (.inl _, _) => true | _ => false) = true ∧
      (match (levelled gn [] imageWords).checkCallee gn nw 0 none with | (.inr x, _) => !x.waits | _ => false) = true) := by decide +kernel

set_option maxRecDepth 20000 in
theorem test_witness_FreezesCallsAndReturnsMoveLevels_command :
    let c := cmdOf 7 (.gcall 3 0)
    let gr := regionIn .running 0
    ((levelled gr [c] []).nextCall 1 = some (c, 3, 0) ∧ ((levelled gr [c] []).seenAs c.strand gr).1 = .running ∧ field (3 : DWord) 63 5 = 0) := by decide +kernel

set_option maxRecDepth 20000 in
theorem test_witness_FreezesCallsAndReturnsMoveLevels_return :
    let ow := levelAt (.call 0 (some e0) none) (.pleat 1) [0xC000000000000000]
    let gt := { regionIn .running 1 with ret := some (some e0), levels := [ow], ending := true }
    (gt.levels = ow :: [] ∧ gt.failed = none ∧ gt.dropBy = none ∧ (levelled gt [] []).settledLoad gt = true ∧
      (levelled gt [] []).streamsOf gt gt.levels.length = [] ∧ ow.place = .pleat 1 ∧ gt.st = .running) := by decide +kernel

set_option maxRecDepth 20000 in
theorem test_witness_FreezesCallsAndReturnsMoveLevels_spill :
    let ow := levelAt (.call 0 (some e0) none) (.pleat 1) [0xC000000000000000]
    let hs := { regionIn .running 2 with wave := some ⟨[.freeze], 3⟩, levels := [ow, levelAt .freeze (.pleat 2) []] }
    (hs.levels.zipIdx.find? (fun z => decide (z.1.place = .pleat 2)) = some (levelAt .freeze (.pleat 2) [], 1) ∧
      (match (levelled hs [] []).framePieces hs (levelAt .freeze (.pleat 2) []) .write ((levelled hs [] []).frameAt hs 1) ((levelled hs [] []).frameBytes hs 1) with
       | (.inl ps, _) => decide (ps.length = 2)
       | _ => false) = true) := by decide +kernel

set_option maxRecDepth 20000 in
theorem test_witness_FreezesCallsAndReturnsMoveLevels_refill :
    let lv := { levelAt .freeze (.hamper 0x100000) [] with saveBytes := 0, frameLen := 64 + 16 * recordBytes 0 }
    let hr := { regionIn .running 2 with levels := [lv] }
    ((levelled hr [] []).mem.sealed = [] ∧ hr.wave = none ∧ hr.wanted = some (lv, 0, 0x100000) ∧
      (match (levelled hr [] []).framePieces hr lv .read 0x100000 lv.frameLen with
       | (.inl ps, _) => decide (ps.length = 2)
       | _ => false) = true) := by decide +kernel

/-! ### The ordering machine and the strands -/

/-- The machine in cycle 10 with strand 0 as given. -/
def late10 (u : Strand) : State := { one u with cycle := 10 }

/-- The machine in cycle 10 with one operation in flight. -/
def flies (o : Op) : State := late10 { sup with ops := [o] }

/-- A plain page. -/
def plainPage : PageAttr := ⟨false, false, 0⟩

/-- Performs from what can be computed. -/
theorem performs_intro {s : State} {n ev : Nat} {o : Op}
    (h : s.op n ev = some o ∧ s.mayPerform n o = true ∧ s.opPath n o = .open_ ∧ n < 512) : Performs s n ev o := ⟨h.1, h.2.1, h.2.2.1, h.2.2.2⟩

/-- A write of die 1 on its way to a die. -/
def writeAt (pa : Nat) (home : Nat) (on : List Nat) : WriteEv :=
  ⟨4, 1, home, pa, [some 0x11, none], (Vector.replicate 8 0).set 1 1, false, Mark.plain, on⟩

theorem test_witness_EventsOfMemoryPerformAndApply :
    let l := opOf (.load 0x30000 8 true false plainPage) .ld
    let v := opOf (.value 5) .ld
    let a := opOf (.atomic .add 0x30000 4 0xFFFFFFFF 0 plainPage) .ld
    let p := opOf (.store 0x7FFFFFFFFFFF8 8 1 false plainPage) .st
    let m := { flies l with seqs := { (flies l).seqs with cores := [(0, { (flies l).core 0 with d1 := [⟨0x30000, 0, 7⟩] })] } }
    (MemInv (flies l) ∧ Performs (flies l) 0 1 l ∧ (flies l).snoopFirst plainPage 0x30000 = false ∧
      (flies l).spoiltLoad 0 0x30000 8 = false ∧ (flies l).inL1 0 0x30000 = none ∧ (flies l).mem.sealed = []) ∧
    (MemInv m ∧ Performs m 0 1 l ∧ m.spoiltLoad 0 0x30000 8 = false ∧ (m.inL1 0 0x30000).isSome = true) ∧
    (MemInv (flies v) ∧ Performs (flies v) 0 1 v) ∧
    (MemInv (flies a) ∧ Performs (flies a) 0 1 a ∧ a.acq = false ∧ (flies a).snoopFirst plainPage 0x30000 = false ∧ plainPage.ms = false ∧
      (flies a).spoilt (homeDie 0x30000) none 0x30000 4 = false ∧ (flies a).mem.sealed = []) ∧
    (MemInv (flies p) ∧ Performs (flies p) 0 1 p ∧ (flies p).snoopFirst plainPage 0x7FFFFFFFFFFF8 = false ∧ (flies p).mem.sealed = [] ∧
      0x7FFFFFFFFFFF8 + 8 ≤ 2 ^ 51) := by
  refine ⟨⟨?_, performs_intro ?_, ?_⟩, ⟨?_, performs_intro ?_, ?_⟩, ⟨?_, performs_intro ?_⟩, ⟨?_, performs_intro ?_, ?_⟩, ⟨?_, performs_intro ?_, ?_⟩⟩ <;>
    first | exact memInv_intro (by decide +kernel) | decide +kernel

theorem test_witness_EventsOfMemoryPerformAndApply_applied :
    let s0 := { State.reset with outer := { State.reset.outer with links := (List.range 80).map fun k => { State.reset.link k with no := linkKey k, st := .up } } }
    let h := { s0 with mem := { s0.mem with pending := [writeAt 0x30000 0 [1]] } }
    let g := { s0 with mem := { s0.mem with pending := [writeAt 0x30000 0 [1, 0]] } }
    let d := { opOf (.load 0x30000 8 false false plainPage) .ld with result := some 7, dst := 3 }
    let b : WriteBack := ⟨0, 0x30000, 1, 0x55, none⟩
    let w := { State.reset with mem := { State.reset.mem with wbs := [b] } }
    ((h.mem.pending.find? fun w => w.src = 1 && h.mayApply 0 w && h.reach 1 0 = .open_) = some (writeAt 0x30000 0 [1])) ∧
    ((g.mem.pending.find? fun w => w.src = 1 && g.mayApply 7 w && g.reach 1 7 = .open_) = some (writeAt 0x30000 0 [1, 0])) ∧
    ((flies d).op 0 1 = some d ∧ d.result = some 7 ∧ (flies d).opDone (dieOf 0) d = true) ∧
    ((w.mem.wbs.find? fun w => w.die = 0 && w.pa = 0x30000) = some b ∧ (dramKey 0x30000).isSome = true ∧
      b.mask.getLsbD 0 = true ∧ ∀ j < 64, j ≠ 0 → dramKey (0x30000 + j) ≠ dramKey 0x30000) := by decide +kernel

/-- The machine whose context 0 has page tables at 0x1000: a 1 GiB page at 0 (R221, R235 to R237). -/
def tabled (v : Nat) (u : Strand) : State :=
  withWords (withWords (withWords (withWords (late10 u) 0 0 [0x1000, 0, 0, 0x2000]) 0 0x1000 [0x2001, 0]) 0 0x2000 [0x3001, 0]) 0 0x3000 [v, 0]

theorem test_witness_EventsOfStrandsWakeAndTrap :
    let c := late10 { sup with late := some (0x16, 0x40, 3) }
    let e := late10 { sup with status := sup.status ||| 0x40, events := [⟨1, 0x40, some 15⟩] }
    let i := late10 { sup with run := .idle, woken := true }
    let y := late10 { sup with yieldTo := some (10, []) }
    let w : Walk := ⟨0, 0, 0, 0x10000, [(.strand 0, .core 0 0), (.cmd 7, .engine 0)], 10⟩
    let k := tabled 0x3F sup
    let m := tabled 0x1003F sup
    let f (s : State) := { s with seqs := { s.seqs with walks := [w] }, ctxs := { s.ctxs with live := [0] } }
    let d := late10 { sup with progress := some ⟨9, Clock.zero, 2, 1, [⟨0x10000, 0, 65536, plainPage⟩, ⟨0xFFFF, 0, 0, plainPage⟩]⟩ }
    ((c.strand 0).late = some (0x16, 0x40, 3) ∧ (c.strand 0).atTvec = false) ∧
    (e.takable 0 = true ∧ (e.strand 0).events = ⟨1, 0x40, some 15⟩ :: []) ∧
    i.wakes 0 = true ∧ ((y.strand 0).yieldTo = some (10, []) ∧ 10 ≤ y.cycle) ∧
    ((f k).seqs.walks[0]? = some w ∧ w.due ≤ (f k).cycle ∧ (f k).ctxs.live.contains w.ctx = true ∧ (f k).seqs.queued = [] ∧ (.strand 0, .core 0 0) ∈ w.waiters ∧
      (.cmd 7, .engine 0) ∈ w.waiters ∧ (∀ x ∈ w.waiters, x = (.strand 0, .core 0 0) ∨ x = (.cmd 7, .engine 0)) ∧
      (f k).walk w.die (BitVec.ofNat 10 w.ctx) w.asid w.va = .inl ⟨0, 0, 2 ^ 30, 0x3F, 0, 0, []⟩) ∧
    (f m).walk w.die (BitVec.ofNat 10 w.ctx) w.asid w.va = .inr 1 ∧
    ((d.strand 0).progress = some ⟨9, Clock.zero, 2, 1, [⟨0x10000, 0, 65536, plainPage⟩, ⟨0xFFFF, 0, 0, plainPage⟩]⟩ ∧
      d.drained (BitVec.ofNat 16 0xFFFF) 0x10000 65536 (1 : DWord).toNat = true) := by decide +kernel
/-! ### The engines -/

/-- A result from its two parts. -/
theorem pair_intro {α γ β : Type} {p : (α ⊕ γ) × β} {a : α} {b : β} (h : p.1.getLeft? = some a ∧ p.2 = b) : p = (.inl a, b) :=
  Prod.ext (Sum.getLeft?_eq_some_iff.mp h.1) h.2

/-- A slot of the first west hem tile of die 0. -/
def hemSlot : HemSlot := ⟨0, .west, 0, 0⟩

/-- A linear stream of 32-byte elements from 0x10000, to the slot or to memory. -/
def streamOf (toMem : Bool) (at_ : Nat) : StreamSt :=
  { slot := hemSlot, block := [0x10000, 0, 2, 32, 1, 0, 1, 0, 1, 0, if toMem then 0xA800 else 0xA000, 0, 0, 0, 0, 0], region := 1, level := 0,
    at_ := at_, total := 2, gates := [], started := true, paused := false }

/-- The command of a stream that runs. -/
def streamCmd (st : StreamSt) : Cmd := { cmdOf 7 (.strm false 0x20000 0) with strm := some st, began := true }

/-- The machine with a region that runs, engine commands, and a page at 0x10000 for the engines and the first hem tile. -/
def working (cs : List Cmd) (slots : List SlotQueue) : State :=
  let s := loading binder [regionIn .running 0] cs []
  { s with engs := { s.engs with slots := slots },
           seqs := { s.seqs with tlbs := [(.engine 0, page 0x10000 0x30000), (.hem 0 .west 0, page 0x10000 0x30000)] } }

/-- StreamRuns from what can be computed. -/
theorem streamRuns_intro {s : State} {id : Nat} {c : Cmd} {st : StreamSt} {g : Region}
    (h : (s.cmd id = some c ∧ c.id = id) ∧ c.kind = .strm false 0x20000 0 ∧ c.strm = some st ∧
      (c.ended = none ∧ c.paused = false ∧ st.started = true ∧ st.paused = false) ∧
      (s.region st.region = some g ∧ st.slot.die < 8) ∧ (g.st = .running ∧ g.wave = none ∧ g.levels.length = st.level)) :
    StreamRuns s id c st g := ⟨h.1, ⟨_, _, _, h.2.1⟩, h.2.2.1, h.2.2.2.1, h.2.2.2.2.1, .inl h.2.2.2.2.2.1, h.2.2.2.2.2.2⟩

set_option synthInstance.maxSize 4000 in
theorem test_witness_EnginesMoveTokensSectorsAndRows_tokens :
    let a := streamOf false 0
    let b := streamOf true 1
    let e := streamOf false 2
    let s := working [streamCmd a] []
    let t := working [streamCmd b] [⟨hemSlot, [⟨tok 3 false, 9⟩]⟩]
    let u := working [streamCmd e] []
    let g := regionIn .running 0
    (StreamRuns s 7 (streamCmd a) a g ∧ a.at_ < a.total ∧ a.gateWait = false ∧ a.kind = 0 ∧ a.toMem = false ∧ g.ending = false ∧
      (s.slotToks a.slot).length + s.inNetwork a.slot < 16 ∧
      s.elemPieces (streamCmd a) a .read a.nextElems = (.inl [some (0x10000, [(0x30000, 32, plainPage)])], s) ∧ s.mem.sealed = []) ∧
    (StreamRuns t 7 (streamCmd b) b g ∧ b.at_ < b.total ∧ b.gateWait = false ∧ b.kind = 0 ∧ b.toMem = true ∧
      t.nextToken b g = some (tok 3 false).data ∧
      t.elemPieces (streamCmd b) b .write b.nextElems = (.inl [some (0x10020, [(0x30020, 32, plainPage)])], t) ∧
      t.mem.sealed = [] ∧ MemInv t) ∧
    (StreamRuns u 7 (streamCmd e) e g ∧ e.total ≤ e.at_ ∧ u.slotToks e.slot = [] ∧ u.inNetwork e.slot = 0 ∧
      ∀ y ∈ g.elems, ∀ k, k < 2 → (u.elem y).pl.hops.toList[k]? = some none) := by
  refine ⟨⟨streamRuns_intro ?_, ?_, ?_, ?_, ?_, ?_, ?_, pair_intro ?_, ?_⟩, ⟨streamRuns_intro ?_, ?_, ?_, ?_, ?_, ?_, pair_intro ?_, ?_, ?_⟩,
    streamRuns_intro ?_, ?_⟩ <;>
    first | exact memInv_intro (by decide +kernel) | decide +kernel

/-- A command of 65 bytes from 0x1003F, at its last sector, and one of a sector at the end of memory. -/
theorem test_witness_EnginesMoveTokensSectorsAndRows_sectors :
    let f := { cmdOf 7 (.fill 0x1003F 65 0x1122334455667788) with at_ := 1 }
    let c := cmdOf 7 (.copy 0x10000 0x10100 1)
    let s := working [f] []
    let t := working [c] []
    (s.cmd 7 = some f ∧ f.die < 8 ∧ s.mayBegin f = true ∧ f.at_ < 65 ∧ 0x10040 = 0x1003F + f.at_ ∧ 64 = min (64 - 0x10040 % 64) (65 - f.at_) ∧
      0x30040 + 64 ≤ 2 ^ 51 ∧ MemInv s ∧ s.rangePieces (.engine f.die) f .write 0x10040 64 = (.inl [(0x30040, 64, plainPage)], s) ∧
      s.mem.sealed = []) ∧
    (t.cmd 7 = some c ∧ c.die < 8 ∧ t.mayBegin c = true ∧ c.at_ < 1 ∧ 0x10000 = 0x10000 + c.at_ ∧ 1 = min (64 - 0x10000 % 64) (1 - c.at_) ∧
      MemInv t ∧ t.rangePieces (.engine c.die) c .read (0x10100 + c.at_) 1 = (.inl [(0x30100, 1, plainPage)], t) ∧
      t.rangePieces (.engine c.die) c .write 0x10000 1 = (.inl [(0x30000, 1, plainPage)], t) ∧
      t.mem.sealed = [] ∧ ([(0x30100, 1, plainPage)].map fun p : Nat × Nat × PageAttr => p.2.1).sum = 1) := by
  refine ⟨⟨?_, ?_, ?_, ?_, ?_, ?_, ?_, ?_, pair_intro ?_, ?_⟩, ?_, ?_, ?_, ?_, ?_, ?_, ?_, pair_intro ?_, pair_intro ?_, ?_⟩ <;>
    first | exact memInv_intro (by decide +kernel) | decide +kernel

/-- A command past its checks, with a page of channel-linear memory at 0x10000. -/
def rowCmd (kind : CmdKind) : Cmd := { cmdOf 7 kind with began := true, pages := [page 0x10000 (2 ^ 38 + 0x10000)] }

theorem test_witness_EnginesMoveTokensSectorsAndRows_rows :
    let b := rowCmd (.bankop 0 0x10000 0x10040 0x10080 64)
    let z := rowCmd (.rowzero 0x10800 2048)
    let r := rowCmd (.rowcp 0x10800 0x10000 2048)
    let at_ (o : Nat) := 2 ^ 38 + 0x10000 + o
    let s (c : Cmd) := working [c] []
    ((s b).cmd 7 = some b ∧ (s b).mayBegin b = true ∧ b.pages ≠ [] ∧ MemInv (s b) ∧ b.paOf (0x10040 + b.at_) = some (at_ 0x40, plainPage) ∧
      b.paOf (0x10080 + b.at_) = some (at_ 0x80, plainPage) ∧ b.paOf (0x10000 + b.at_) = some (at_ 0, plainPage) ∧
      (s b).snoopFirst plainPage (at_ 0) = false ∧ (s b).snoopFirst plainPage (at_ 0x40) = false ∧ (s b).snoopFirst plainPage (at_ 0x80) = false ∧
      (s b).spoiltDram (at_ 0x40) 64 = false ∧ (s b).spoiltDram (at_ 0x80) 64 = false ∧ at_ 64 ≤ 2 ^ 51 ∧ ∀ i < 64, dramKey (at_ 0 + i) = some (0x10000 + i)) ∧
    ((s z).cmd 7 = some z ∧ (s z).mayBegin z = true ∧ MemInv (s z) ∧ z.paOf (0x10800 + z.at_) = some (at_ 0x800, plainPage) ∧
      (s z).ownedIn plainPage (at_ 0x800) 2048 = none ∧ at_ 0x800 % 64 = 0 ∧ at_ 0x800 + 2048 ≤ 2 ^ 51) ∧
    (∀ k < 32, ∀ i < 64, dramKey (at_ 0x800 + (64 * k + i)) = some (0x10800 + (64 * k + i))) ∧
    ((s r).cmd 7 = some r ∧ (s r).mayBegin r = true ∧ MemInv (s r) ∧ r.paOf (0x10800 + r.at_) = some (at_ 0x800, plainPage) ∧
      r.paOf (0x10000 + r.at_) = some (at_ 0, plainPage) ∧ (s r).ownedIn plainPage (at_ 0) 2048 = none ∧ (s r).ownedIn plainPage (at_ 0x800) 2048 = none ∧
      (s r).spoiltDram (at_ 0) 2048 = false) := by
  refine ⟨⟨?_, ?_, ?_, ?_, ?_, ?_, ?_⟩, ⟨?_, ?_, ?_, ?_, ?_⟩, ?_, ?_, ?_, ?_, ?_⟩ <;>
    first | exact memInv_intro (by decide +kernel) | decide +kernel

theorem test_witness_EnginesMoveTokensSectorsAndRows_ends :
    let c := { cmdOf 7 (.copy 0x10000 0x10100 1) with ended := some 0, slot := some 63 }
    let d := { cmdOf 7 (.bankop 0 0x10000 0x10040 0x10080 64) with ended := some 0x16, slot := none }
    let k := { taskOf0 .running with bank := some 7 }
    let s := working [c] []
    let t := working [d] []
    let u := { t with tasks := { t.tasks with tasks := [k] } }
    (s.cmd 7 = some c ∧ c.ended = some 0 ∧ s.ctxs.records = [] ∧ c.slot = some 63 ∧ c.writes = []) ∧
    (u.cmd 7 = some d ∧ d.ended = some 0x16 ∧ u.ctxs.records = [] ∧ d.slot = none ∧ d.writes = [] ∧
      (u.tasks.tasks.find? fun t => decide (t.bank = some 7)) = some k ∧ u.taskNo k.no = some k ∧ k.st = .running) := by decide +kernel

/-! ### Sweeps -/

/-- A page of one key, with its bitmap at 0x10040 and its snapshot once that is read. -/
def sweepPage (pindex : Nat) (snap : Option (BitVec 160)) (sent : Bool) (toward late : List Nat) : SweepPage :=
  ⟨0x10000, 0x10020, pindex, 1, 0x10040, 0x20000, snap, sent, toward, late⟩

/-- A query of the first element. -/
def queryOf (q : Nat) (part : List Token) (written : Bool) : SweepQuery :=
  ⟨q, e0, 0, 0, 0, 0xFF800000, 0, [], [], [], [5], part, written⟩

/-- A sweep of one row of tokens. -/
def sweepOf (ps : List SweepPage) (qs : List SweepQuery) : Sweep :=
  { cmd := 7, die := 0, region := 1, level := 0, port := (0, .west), hdt := 1, pages := ps, queries := qs, queue := [], endSent := false,
    ended := false, written := 0, on := true }

/-- Its command. -/
def sweepCmd : Cmd := { cmdOf 7 (.sweep 0x20000 0) with began := true }

/-- The machine with that sweep, page 0x10000 in unit 5 and a bitmap there. -/
def sweeps (w : Sweep) (ps : List RowPacket) (bits : List Nat) : State :=
  let s := loading binder [regionIn .running 0] [sweepCmd] []
  let t := { s with engs := { s.engs with sweeps := [w] }, fab := { s.fab with packets := ps },
                    seqs := { s.seqs with tlbs := [(.hem 0 .west 5, page 0x10000 0x30000)] } }
  withWords (t.setElem e0 { Elem.reset with st := .running, region := some 1 }) 0 0x30040 bits

/-- SweepRuns from what can be computed. -/
theorem sweepRuns_intro {s : State} {w : Sweep} (h : s.sweepOn 0 = some w ∧
    s.engs.sweeps.find? (fun v => decide (v.cmd = w.cmd)) = some w ∧ s.cmd w.cmd = some sweepCmd ∧ sweepCmd.id = w.cmd) :
    SweepRuns s 0 w sweepCmd := ⟨h.1, h.2.1, h.2.2.1, h.2.2.2, rfl⟩

/-- A result is a value if it is one. -/
theorem left_intro {α γ β : Type} {p : (α ⊕ γ) × β} (h : p.1.isLeft = true) : ∃ a b, p = (.inl a, b) := by
  obtain ⟨x | y, b⟩ := p
  · exact ⟨_, _, rfl⟩
  · simp at h

theorem test_witness_SweepUnitsSendPagesAndMerge_pages :
    let n := sweepPage 5 none false [] []
    let m := sweepOf [n] [queryOf 3 [] false]
    let z := sweeps m [] [8, 0, 0, 0, 0, 0, 0, 0]
    let p := sweepPage 5 (some 8) false [] []
    let w := sweepOf [p] [queryOf 3 [] false]
    let s := sweeps w [] [8, 0, 0, 0, 0, 0, 0, 0]
    let k := sweepPage 5 (some 0xFFFFFFFFFFFFFFFF) false [] []
    let v := sweepOf [sweepPage 4 (some 0xFFFFFFFFFFFFFFFF) false [] [], k] ((List.range 64).map fun k => queryOf k [] false)
    let r := sweeps v [] [0]
    let l := sweepPage 5 (some 0) true [] [159]
    let x := sweepOf [l] [queryOf 159 [] false]
    let t := sweeps x [] [0]
    (SweepRuns z 0 m sweepCmd ∧ m.next 5 = some n ∧ z.mayFetch m = true ∧ n.snap = none ∧ z.readBitmap sweepCmd m n = (.inl 8, z)) ∧
    (SweepRuns s 0 w sweepCmd ∧ w.next 5 = some p ∧ s.mayFetch w = true ∧ p.snap = some 8 ∧
      s.grants w p ((w.queries.filter fun y => (8 : BitVec 160).getLsbD y.q).map SweepQuery.q) = true) ∧
    (∃ a b, s.readRange (unitTlb w.die p.unit) sweepCmd p.kaddr (32 * w.hdt * p.ntok) = (.inl a, b)) ∧
    (∃ a b, (s.readRange (unitTlb w.die p.unit) sweepCmd p.kaddr (32 * w.hdt * p.ntok)).2.readRange (unitTlb w.die p.unit) sweepCmd p.vaddr
      (32 * w.hdt * p.ntok) = (.inl a, b)) ∧
    (SweepRuns r 0 v sweepCmd ∧ v.next 5 = some k ∧ r.mayFetch v = true ∧ k.snap = some 0xFFFFFFFFFFFFFFFF ∧
      r.grants v k ((v.queries.filter fun y => (0xFFFFFFFFFFFFFFFF : BitVec 160).getLsbD y.q).map SweepQuery.q) = false) ∧
    (SweepRuns t 0 x sweepCmd ∧ t.mayFetch x = true ∧ t.mainStalled x 5 = true ∧
      (x.pages.find? fun p => decide (p.unit = 5) && p.sent && !p.late.isEmpty && t.grants x p p.late) = some l) ∧
    (∃ a b, t.readRange (unitTlb x.die l.unit) sweepCmd l.kaddr (32 * x.hdt * l.ntok) = (.inl a, b)) ∧
    (∃ a b, (t.readRange (unitTlb x.die l.unit) sweepCmd l.kaddr (32 * x.hdt * l.ntok)).2.readRange (unitTlb x.die l.unit) sweepCmd l.vaddr
      (32 * x.hdt * l.ntok) = (.inl a, b)) := by
  refine ⟨⟨sweepRuns_intro ?_, ?_, ?_, ?_, pair_intro ?_⟩, ⟨sweepRuns_intro ?_, ?_⟩, left_intro ?_, left_intro ?_, ⟨sweepRuns_intro ?_, ?_⟩,
    ⟨sweepRuns_intro ?_, ?_⟩, left_intro ?_, left_intro ?_⟩ <;> decide +kernel

/-- A partial's header for query 159 and page 5. -/
def partialHead : Token := ⟨lanes fun l => if l = 2 then 5 else if l = 3 then 159 else 0x3F800000, 1, true⟩

theorem test_witness_SweepUnitsSendPagesAndMerge_partials :
    let w := sweepOf [sweepPage 5 (some 0) true [159] []] [queryOf 3 [] false, { queryOf 159 [] false with e := e1 }]
    let u := sweepOf [sweepPage 5 (some 0) true [159] []] [queryOf 3 [] false, { queryOf 159 [partialHead] false with e := e1 }]
    let p (ts : List Token) : RowPacket := ⟨1, e1, true, 1, .partial_ 0 ts, 10, 0, none, none, 0⟩
    let s (w : Sweep) (ts : List Token) := (sweeps w [p ts] []).setElem e1 { Elem.reset with st := .running, region := some 1 }
    let f (s : State) (w : Sweep) : Bool := decide (s.sweepOn 0 = some w ∧ s.engs.sweeps.find? (fun v => decide (v.cmd = 7)) = some w ∧
      s.cmd 7 = some sweepCmd ∧ s.packetFirst (p [partialHead]) = true ∧ (s.elem e1).region = some w.region ∧
      (s.engs.sweeps.find? fun v => s.sweepLive v && decide (v.level = 0) && decide ((s.elem e1).region = some v.region)) = some w)
    (f (s w [partialHead]) w = true ∧ (s w [partialHead]).fab.packets[0]? = some (p [partialHead]) ∧ 10 ≤ (s w [partialHead]).cycle ∧
      [partialHead].length < w.hdt + 1) ∧
    (f (s u [partialHead]) u = true ∧ laneOf partialHead.data 3 = BitVec.ofNat 32 159 ∧ 159 < 160 ∧ (laneOf partialHead.data 2).toNat = 5 ∧
      (s u [partialHead]).nextPage u { queryOf 159 [partialHead] false with e := e1 } = some 5 ∧ [partialHead].length = u.hdt ∧
      (∃ y ∈ u.pages, y.pindex = 5 ∧ y.toward.contains 159 = true) ∧ ∀ y ∈ u.pages, y.sent = true) := by decide +kernel

theorem test_witness_SweepUnitsSendPagesAndMerge_end :
    let w := sweepOf [sweepPage 5 (some 0) true [159] []] [queryOf 159 [] false]
    let v := { sweepOf [sweepPage 5 (some 0) true [159] []] [queryOf 159 [] true] with endSent := true, written := 1 }
    (SweepRuns (sweeps w [] []) 0 w sweepCmd ∧ (sweeps w [] []).mayFetch w = true ∧ ∀ p ∈ w.pages, p.sent = true ∧ p.late = []) ∧
    (SweepRuns (sweeps v [] []) 0 v sweepCmd ∧ v.endSent = true ∧ v.queue = [] ∧ (∀ x ∈ v.queries, x.written = true) ∧
      v.written = v.queries.length) := by
  refine ⟨⟨sweepRuns_intro ?_, ?_⟩, sweepRuns_intro ?_, ?_⟩ <;> decide +kernel
/-! ### Tasks -/

/-- An image for a strand alone: 32 bytes of text at 64. -/
def scalarWords : List Nat := [0x524D5250, 0x80001, 96, 0x48CB611E, 0x00000101, 0, 0, 0, 0, 64, 32, 0, 0, 0, 0, 0, 0, 0, 0, 0, 0, 0, 0, 0]

/-- The machine with a valid context 0, tasks, regions, and words at 0x30000, which die 0's engines find at 0x10000. -/
def tasked (ks : List Task) (gs : List Region) (cs : List Cmd) (ws : List Nat) (u : Strand) : State :=
  let s := withWords (loading u gs cs ws) 0 0 [0x1000, 0, 0, 0x2000]
  { s with tasks := { s.tasks with tasks := ks }, ctxs := { s.ctxs with live := [0] } }

/-- A task that waits or has ended. -/
def taskIn (st : TaskState) : Task := { taskOf0 st with strand := none, region := none }

theorem test_witness_TasksAreAdmittedBoundAndRetired_launch :
    let c := cmdOf 7 (.launch 0x10000 1)
    let f := tasked (List.replicate 4096 (taskIn .waiting)) [] [c] [] sup
    let s := tasked [taskIn .waiting] [] [c] [] sup
    let b := tasked [] [] [c] [0, 0, 0, 0, 0, 0, 1] sup
    ((f.nextLaunch 0 = some (c, 0x10000, 1)) ∧ 4096 ≤ (f.tasks.tasks.filter fun k => k.die = 0 && k.held).length) ∧
    (s.nextLaunch 0 = some (c, 0x10000, 1) ∧ (s.tasks.tasks.filter fun k => k.die = 0 && k.held).length < 4096 ∧
      (match s.readVa (.cmd c.id) (.engine 0) c.ctx c.asid c.user c.task 0x10000 128 with
       | (.inl x, s1) => decide (s1.cmd c.id = some c ∧ (launchRec x).bad = none ∧ (s1.desc 0 0).v = true ∧ s1.ctxs.dying = [] ∧
          (launchRec x).group = 0 ∧ ∀ x ∈ s1.tasks.tasks, x.no = 0 % 8 * 2 ^ 21 + (s1.disp 0).counter % 2 ^ 21 → x.held = false)
       | _ => false) = true) ∧
    (b.nextLaunch 0 = some (c, 0x10000, 1) ∧
      (match b.readVa (.cmd c.id) (.engine 0) c.ctx c.asid c.user c.task 0x10000 128 with
       | (.inl x, s1) => decide (s1.cmd c.id = some c ∧ (launchRec x).bad = some 0x18)
       | _ => false) = true) := by
  refine ⟨⟨?_, ?_⟩, ?_⟩
  · decide +kernel
  · show 4096 ≤ ((List.replicate 4096 (taskIn .waiting)).filter fun k => decide (k.die = 0) && k.held).length
    rw [List.filter_replicate, if_pos (by decide), List.length_replicate]
    all_goals exact Nat.le_refl _
  · decide +kernel

theorem test_witness_TasksAreAdmittedBoundAndRetired_ready :
    let g := regionIn .ended 0
    let b : PinBreakDue := ⟨1, 0, e0, 1, 4⟩
    let v := holding []
    let p0 := (tasked [] [g] [] [] sup).setElem e0 { v with pl := { v.pl with sites := [bindOf .demand 0] } }
    let p := { p0 with tasks := { p0.tasks with breaks := [b] } }
    let w := taskIn .waiting
    let a := { w with arcs := [3] }
    let r := taskIn .ready
    let q := { r with pooled := true }
    let t (k : Task) := { tasked [k] [] [] [] sup with cycle := 2 ^ 20 }
    let full := { tasked (r :: List.replicate 1024 q) [] [] [] sup with cycle := 10 }
    (p.region 1 = some g ∧ g.st ≠ .running ∧ g.st ≠ .frozen ∧ (p.tasks.breaks.filter fun x => decide (x.region = 1)) = [b] ∧
      (match (p.planesAt g b.lvl).find? fun x => decide (x.1 = b.e) with
       | some (e, z) => decide (e = b.e ∧ z.site b.site = some (bindOf .demand 0))
       | none => false) = true ∧ p.holdsBack b.e = false ∧ (∀ x ∈ (p.elem b.e).sectors, x.dirty ≠ 0 → x.page.sysatom = false)) ∧
    ((t w).taskNo 4 = some w ∧ w.st = .waiting ∧ w.arcs = [] ∧ (t w).tasks.breaks = [] ∧ w.follows = none ∧
      (t a).taskNo 4 = some a ∧ a.st = .waiting ∧ a.arcs ≠ []) ∧
    ((t r).taskNo 4 = some r ∧ r.st = .ready ∧ r.pooled = false ∧
      (∀ u ∈ (t r).tasks.tasks, u.die = r.die → u.st = .ready → u.pooled = false → r.since ≤ u.since) ∧
      ((t r).tasks.tasks.filter fun u => u.die = r.die && u.pooled && u.st = .ready).length < 1024) ∧
    (full.taskNo 4 = some r ∧ (∀ u ∈ full.tasks.tasks, u.die = r.die → u.st = .ready → u.pooled = false → r.since ≤ u.since) ∧
      1024 ≤ (full.tasks.tasks.filter fun u => u.die = r.die && u.pooled && u.st = .ready).length) ∧
    ((t q).taskNo 4 = some q ∧ q.pooled = true ∧ q.aged < ((t q).cycle - q.since) / 2 ^ 20) := by decide +kernel

/-- A region over a whole die, and the task that runs in it. -/
def wide : Region := { regionIn .running 0 with trows := 16, tcols := 20, task := some 4 }

theorem test_witness_TasksAreAdmittedBoundAndRetired_preempt :
    let v := { taskOf0 .running with prio := 3 }
    let k := { taskIn .ready with no := 5, pooled := true }
    let j := { k with waitAt := some 10 }
    let s (k : Task) (n : Nat) := { tasked [v, k] [wide] [] imageWords { sup with region := some 1, task := some 4 } with cycle := n }
    ((s k 10).taskNo 5 = some k ∧ k.st = .ready ∧ k.pooled = true ∧ k.kind = 0 ∧ k.group = 0 ∧ k.above = none ∧ k.waitAt = none ∧
      assignOver (s k 10) [k] [] = none) ∧
    ((s j 4105).taskNo 5 = some j ∧ assignOver (s j 4105) [j] [] = none ∧ j.waitAt = some 10 ∧
      (s j 4105).chooseVictim [j] j.eff = some (⟨[v], 3, 0, 0⟩, [(5, 1)]) ∧ (s j 4105).cycle < 10 + 4096) ∧
    (assignOver (s j 4106) [j] [] = none ∧ (s j 4106).chooseVictim [j] j.eff = some (⟨[v], 3, 0, 0⟩, [(5, 1)]) ∧
      10 + 4096 ≤ (s j 4106).cycle ∧ v.region = some 1 ∧ (s j 4106).region 1 = some wide) := by decide +kernel

theorem test_witness_TasksAreAdmittedBoundAndRetired_retire :
    let k := taskIn .retiring
    let q := { k with cq := 0x10000, status := 255, launch := some 7 }
    let c := cmdOf 7 (.launch 0x10000 1)
    let o := { k with cmdsDue := [7] }
    let s (k : Task) := tasked [k] [] [c] [] sup
    let p : Completion := ⟨4, 0x10000, false, 0, 0, 0, List.replicate 32 0, Clock.zero⟩
    let r0 := withWords (tasked [k] [] [] [] sup) 0 0x30000 [0, 1, 1, 0x00010020, 0x20100, 0, 0x50, 0x5B29, 0x30100, 0, 0, 0, 1, 0, 0, 0]
    let r := { r0 with ctxs := { r0.ctxs with posts := [p] },
                       seqs := { r0.seqs with tlbs := [(.engine 0, page 0x10000 0x30000), (.engine 0, page 0x20000 0x30000)] } }
    ((s k).taskNo 4 = some k ∧ k.st = .retiring ∧ (s k).ctxs.posts = [] ∧ (s k).retireRegion k = some (s k) ∧ k.cq = 0 ∧ (s k).owes k = false) ∧
    ((s o).retireRegion o = some (s o) ∧ (s o).owes o = true) ∧
    ((s q).taskNo 4 = some q ∧ (s q).retireRegion q = some (s q) ∧ (s q).owes q = false ∧ q.cq ≠ 0 ∧ q.launch = some 7 ∧ (s q).cmd 7 = some c ∧ c.ended = none) ∧
    ((r.ctxs.posts.find? fun p => decide (p.task = 4)) = some p ∧
      (match r.deviceEnq (.task 4) p.die p.ctx p.asid p.user p.cq p.clock p.bytes with | (.done, _) => true | _ => false) = true) := by decide +kernel

theorem test_witness_TasksAreAdmittedBoundAndRetired_bind :
    let idle := { sup with run := .idle, worker := true }
    let k := { taskIn .ready with pooled := true, kind := 1 }
    let s := tasked [k] [] [] scalarWords idle
    let r := { taskIn .running with kind := 1, strand := some 0 }
    let t := tasked [r] [] [] scalarWords idle
    (QuietDie s 0 ∧ (∀ x ∈ s.tasks.tasks, x.die = 0 → x.st ≠ .running) ∧ s.pick 0 = some k ∧ k.die = 0 ∧ s.taskNo k.no = some k ∧ k.group = 0 ∧
      k.kind = 1 ∧ (s.workers 0).head? = some 0 ∧
      (match s.readImage k.binder k.image with
       | (.inl b, s1) => decide ((headerOf b).badField b = none ∧ (headerOf b).scalar = true ∧ s1.taskNo k.no = some k)
       | _ => false) = true) ∧
    (QuietDie t 0 ∧ (t.tasks.tasks.filter fun x => x.die = 0 && x.st = .running) = [r] ∧ (∀ x ∈ t.tasks.tasks, x.die = 0 → x.pooled = false) ∧
      r.strand = some 0 ∧ (t.strand 0).task ≠ some r.no ∧ r.kind = 1 ∧ r.group = 0 ∧ r.region = none ∧ (t.strand 0).worker = true ∧
      (t.strand 0).run = .idle ∧
      t.ctxs.frozenCtx.contains r.ctx.toNat = false ∧ t.taskNo r.no = some r) := by
  refine ⟨⟨⟨?_, ?_⟩, ?_⟩, ⟨?_, ?_⟩, ?_⟩ <;> decide +kernel

theorem test_witness_TasksAreAdmittedBoundAndRetired_groups :
    let g : Group := { id := 9, members := 2, ctx := 0, tasks := [4, 5], st := .forming, since := 0 }
    let p := { g with st := .pending }
    let a := { taskIn .ready with group := 9, pooled := true, kind := 2 }
    let b := { a with no := 5, since := 1 }
    let s (g : Group) := let s := tasked [a, b] [] [] [] sup
      { s with tasks := { s.tasks with groups := [g] } }
    ((s g).group 9 = some g ∧ g.st = .forming ∧ g.tasks.length = g.members ∧
      (∀ n ∈ g.tasks, ∀ k ∈ (s g).taskNo n, k.st = .ready ∧ k.pooled = true)) ∧
    ((s p).group 9 = some p ∧ (s p).oldest p = some a ∧ ((s p).pick a.die).map Task.no = some a.no ∧
      (s p).groupWait p = none ∧ (match (s p).bindAll p with | some t => (t.group 9).isSome | none => false) = true) := by decide +kernel
/-! ### The host, the links and packets -/

/-- A queue block at 0x30000 with MODE and CHECK as given. -/
def queueAt (head tail free mode check : Nat) : State :=
  withWords State.reset 0 0x30000 [head, tail, free, 0x00010008, 0x20100, 0, mode, check, 0x30100, 0, 0, 0, tail, 0, head, 0]

theorem test_witness_HostAccessesLinksAndPackets_host :
    let s := State.reset
    let b := { s with mem := { s.mem with snoops := [2 ^ 42 - 64], hostHas := [2 ^ 42 - 64] } }
    let p := queueAt 0xFFFFFFFF 0 1 0x60 0x5B31
    let c := queueAt 0xFFFFFFFF 0 1 0x90 0x5BC1
    let x := queueAt 0xFFFFFFFF 0 1 0x40000060 0x5B31
    let m := { s with outer := { s.outer with mgmt := { s.outer.mgmt with mode := .minimal } } }
    let f (s : State) : Bool := let k := s.qblock (homeDie 0x30000) 0x30000
      k.unsound 0x30000 = 0 && !k.corrupt && s.ports.parked.isEmpty && hostReaches 0x30004 4 && hostReaches 0x30000 4
    MemInv s ∧ s.outer.mgmt.mode ≠ .minimal ∧ hostReaches (2 ^ 43) 8 = false ∧ hostReaches 0 8 = true ∧ s.ports.kept = [] ∧ m.outer.mgmt.mode = .minimal ∧
    (MemInv b ∧ (2 ^ 42 - 1) / 64 * 64 ∈ b.mem.snoops ∧ (2 ^ 42 - 1) / 64 * 64 + 64 ≤ 2 ^ 51 ∧ b.mem.held = []) ∧
    (MemInv x ∧ f x = true ∧ (x.qblock (homeDie 0x30000) 0x30000).closed = true ∧ (x.qblock (homeDie 0x30000) 0x30000).pmode = 2 ∧
      (x.qblock (homeDie 0x30000) 0x30000).free = 1 ∧ (x.qblock (homeDie 0x30000) 0x30000).cmode ≠ 2) ∧
    (MemInv p ∧ f p = true ∧ (p.qblock (homeDie 0x30000) 0x30000).pmode = 2 ∧
      ((1 : DWord).toNat + 2 ^ 32 - (p.qblock (homeDie 0x30000) 0x30000).tail) % 2 ^ 32 = 1 ∧ (p.qblock (homeDie 0x30000) 0x30000).free = 1 ∧
      (p.qblock (homeDie 0x30000) 0x30000).closed = false ∧ ((2 : DWord).toNat + 2 ^ 32 - (p.qblock (homeDie 0x30000) 0x30000).tail) % 2 ^ 32 = 2) ∧
    (MemInv c ∧ f c = true ∧ (c.qblock (homeDie 0x30000) 0x30000).cmode = 2 ∧ (c.qblock (homeDie 0x30000) 0x30000).pmode ≠ 2 ∧
      ((0 : DWord).toNat + 2 ^ 32 - (c.qblock (homeDie 0x30000) 0x30000).head) % 2 ^ 32 = 1 ∧ (c.qblock (homeDie 0x30000) 0x30000).count = 1 ∧
      ((1 : DWord).toNat + 2 ^ 32 - (c.qblock (homeDie 0x30000) 0x30000).head) % 2 ^ 32 = 2) := by
  refine ⟨?_, ?_, ?_, ?_, ?_, ?_, ⟨?_, ?_⟩, ⟨?_, ?_⟩, ⟨?_, ?_⟩, ?_, ?_⟩ <;> first | exact memInv_intro (by decide +kernel) | decide +kernel

/-- The machine after reset with one link as given. -/
def withLink (l : Link) : State := State.reset.setLink l

/-- LinkIdle of a machine after reset with one link as given. -/
theorem linkIdle_intro {l : Link} {k : Nat} (h : k < 24 ∨ l.held = []) : LinkIdle (withLink l) k := by
  refine ⟨rfl, fun x hx => (nomatch (show x ∈ ([] : List (Nat × Option Nat × Packet)) from hx)), rfl, fun hk j _ => ?_, rfl⟩
  have hl : l.held = [] := h.resolve_left (by omega)
  show (((State.reset.outer.links.filter fun x => x.no != l.no) ++ [l]).find? (fun x => decide (x.no = j))|>.getD (Link.reset j)).held = []
  by_cases hj : l.no = j
  · simp [State.reset, hj, hl]
  · simp [State.reset, hj, Link.reset]

theorem test_witness_HostAccessesLinksAndPackets_links :
    let live (ds : List Nat) : State := { State.reset with ctxs := { State.reset.ctxs with live := [0, 1023], dying := ds } }
    let l (k : Nat) (st : LinkSt) (fails : Nat) : Link :=
      { Link.reset k with st := st, fails := fails, held := if k < 24 then [3] else [], expect := 1, nextSeq := 4 }
    let f (k : Nat) (st : LinkSt) (fails : Nat) : Bool := (withLink (l k st fails)).link k = l k st fails
    ((∀ c ∈ (live [0, 1023]).ctxs.live, c ∈ (live [0, 1023]).ctxs.dying) ∧ ∃ c ∈ (live [0]).ctxs.live, c ∉ (live [0]).ctxs.dying) ∧
    (∀ k ∈ [0, 17, 18, 24], isLink k = true ∧ (f k .training 0 && f k .retraining 1 && f k .training 2 && f k .up 0 && f k .degraded 0 && f k .down 0 &&
      f k .fenced 0 && f k .failed 2) = true ∧ (l k .up 0).flows = true) ∧
    (∀ k ∈ [0, 17, 18, 24], ∀ st fails, LinkIdle (withLink (l k st fails)) k) := by
  refine ⟨by decide +kernel, by decide +kernel, fun k hk st fails => linkIdle_intro ?_⟩
  by_cases h : k < 24
  · exact .inl h
  · exact .inr (if_neg h)

theorem test_witness_HostAccessesLinksAndPackets_flits :
    let x (k : Nat) : Link := { Link.reset k with st := .up, held := [3], expect := 1, nextSeq := 4 }
    let r := { x 17 with again := (3, 7) }
    let pk : Packet := ⟨5, 0, 0, 0, 1, 0, 1, 0, 0, [], Clock.zero, 0⟩
    let q := { withLink (x 17) with routes := { State.reset.routes with sent := [(17, none, pk)] } }
    (∀ k ∈ [0, 17, 18, 24], (withLink (x k)).sender k = x k ∧ isLink k = true ∧ ((withLink (x k)).link k).flows = true ∧ (x k).expect < 2 ∧
      0 < (x k).expect ∧ 3 ∈ (x k).held ∧ (if (x k).again.1 = 3 then (x k).again.2 + 1 else 1) < 8) ∧
    ((withLink r).sender 17 = r ∧ 3 ∈ r.held ∧ r.again = (3, 7)) ∧ (withLink (x 17)).routes.sent = [] ∧
    (q.routes.sent = (17, none, pk) :: [] ∧ q.link 17 = x 17) ∧ (1 ≤ 1 * 256 / 256 % 512 ∧ 256 * 256 / 256 % 512 ≤ 256) := by
  decide +kernel

/-- An entry that is valid: its kind, the target of a forward, and the strand of an event. -/
def entryOf (kind target who : Nat) : DWord := BitVec.ofNat 64 (2 ^ 63 + kind * 2 ^ 61 + target * 2 ^ 54 + who * 2 ^ 36)

/-- The machine whose routers on die 0 hold an entry of class 15, with packets and slots as given. -/
def routed (w : DWord) (ps : List Packet) (rs : List RecvSlot) : State :=
  let s := loading binder [] [] []
  { s with routes := { s.routes with held := [(0, 15, w, 0x10000)], moving := ps, slots := rs },
           outer := { s.outer with links := (List.range 80).map fun k => { Link.reset (linkKey k) with st := .up } } }

theorem test_witness_HostAccessesLinksAndPackets_packets :
    let p (n : Nat) : Packet := ⟨15, 0, 0, 0, 1, 2, 1, 63, 0, List.replicate n 0x5A, Clock.zero, 10⟩
    let q := { p 1 with srcKind := 0, hops := 7 }
    let s (kind n : Nat) := routed (entryOf kind 0 0) [p n] []
    let f := routed (entryOf 3 7 0) [q] []
    let r : RecvSlot := ⟨0, 15, 0, 0x10000, p 1, false, false, 0, 0⟩
    let e := routed (entryOf 1 0 63) [] [r]
    let g (kind n : Nat) : Bool := let s := s kind n
      (s.entry 0 15).unroutable = false && (s.entry 0 15).kind = kind && s.routes.moving = [p n] && decide ((p n).due ≤ s.cycle) &&
      s.routes.slots.isEmpty && s.routes.sent.isEmpty && s.routes.out.isEmpty &&
      (match (s.holdEntry 0 15 (s.entry 0 15)).translate (.packets 0) (.engine 0) (s.entry 0 15).ctx (s.desc 0 (s.entry 0 15).ctx.toNat).asid .write false none 0x10000 512 with
       | (.ok pa e, s1) => pa = 0x30000 && (s1.ownedIn (pageAttr e) pa 512).isNone && s1.mem.sealed.isEmpty && ((List.range 8).all fun d => Memory.wf (s1.image d).mem) && Memory.wf s1.mem.dram && Memory.wf s1.mem.host
       | _ => false)
    (∀ kind ∈ [0, 1, 2], g kind 32 = true) ∧ g 0 256 = true ∧ g 1 256 = true ∧ (s 1 1).entry 0 15 = ⟨entryOf 1 0 0, 0x10000⟩ ∧
    (f.routes.moving = [q] ∧ q.due ≤ f.cycle ∧ (f.entry 0 15).unroutable = false ∧ (f.entry 0 15).kind = 3 ∧ (f.entry 0 15).fwd = 0 ∧
      (f.entry 0 15).target = 7 ∧ f.masked 0 15 = false ∧ q.hops < 8 ∧ f.reach 0 7 = .open_) ∧
    (e.routes.moving = [] ∧ e.routes.slots = [r] ∧ r.started = false ∧ e.masked 0 15 = false ∧ (e.entry 0 15).kind = 1 ∧ (e.entry 0 15).who = 63) := by
  decide +kernel
/-! ### Records, probes, errors and starts -/

/-- A fault record of context 0. -/
def recordOf : FaultRec := ⟨0, 0, 0, [0x10, 0, 0, 0, 0, 0, 0, 0, 0, 0, 0, 0, 0, 0, 0, 0], Clock.zero, 0⟩

/-- The machine with that record, the fault queue of context 0, and a ring of 64-byte elements at 0x30000. -/
def recorded (faultq : Nat) (dying : List Nat) : State :=
  let s := withWords (withWords (loading sup [] [] []) 0 0 [0x1000, 0, 0, 0x2000, 0, 0, faultq]) 0 0x30000
    [0, 1, 1, 0x00010040, 0x20100, 0, 0x50, 0x5B49, 0x30100, 0, 0, 0, 1, 0, 0, 0]
  { s with ctxs := { s.ctxs with records := [recordOf], live := [0], dying := dying },
           seqs := { s.seqs with tlbs := [(.engine 0, page 0x10000 0x30000), (.engine 0, page 0x20000 0x30000)] } }

/-- Two elements that wait for each other: each takes from the other on plane A, both inputs empty for 100 cycles. -/
def locked (waits : Nat) (probes : List Probe) : State :=
  let c := { TCtx.reset with waits := [(0, waits), (1, waits)] }
  let pl (sw : BitVec 16) := { Plane4K.reset with ctxs := (Vector.replicate 4 TCtx.reset).set 0 c, sw := (Vector.replicate 2 0).set 0 sw }
  let v (sw : BitVec 16) : Elem := { Elem.reset with st := .running, region := some 1, gate := .awake, pl := pl sw }
  let s := (State.reset.setElem e0 (v 0x0A02)).setElem e1 (v 0x002C)
  { s with cycle := 100, tasks := { s.tasks with regions := [{ runs with probe := 100 }] }, outer := { s.outer with probes := probes } }

theorem test_witness_FaultsProbesTestsAndStarts_records :
    let a := recorded 0x10000 []
    let b := recorded 0 [0]
    let c := recorded 0 []
    let d := { recorded 0 [1023] with ctxs := { (recorded 0 [1023]).ctxs with records := [] } }
    (MemInv a ∧ (a.ctxs.records.find? fun r => decide (r.ctx.toNat = 0)) = some recordOf ∧ (a.desc 0 0).faultq ≠ 0 ∧
      (match a.deviceEnq (.queue 0) 0 0 0 false (a.desc 0 0).faultq.toNat recordOf.clock (recordOf.words.flatMap fun w => toBytes 4 w.toNat) with
       | (.done, _) => true | _ => false) = true) ∧
    (MemInv b ∧ (b.ctxs.records.find? fun r => decide (r.ctx.toNat = 0)) = some recordOf ∧ (b.desc 0 0).faultq = 0 ∧
      b.ctxs.dying.contains 0 = true) ∧ recordOf.words = 0x10 :: List.replicate 15 0 ∧
    (MemInv c ∧ (c.ctxs.records.find? fun r => decide (r.ctx.toNat = 0)) = some recordOf ∧ (c.desc 0 0).faultq = 0 ∧ c.outer.mgmt.log.length < 4095) ∧
    (MemInv d ∧ d.ctxs.dying.contains 1023 = true ∧ d.ctxs.records = [] ∧ d.ctxs.posts = [] ∧ d.engs.cmds = [] ∧ d.tasks.tasks = [] ∧
      d.tasks.regions = [] ∧ d.descPa 1023 + 64 ≤ 2 ^ 51) := by
  refine ⟨⟨?_, ?_⟩, ⟨?_, ?_⟩, ?_, ⟨?_, ?_⟩, ?_, ?_⟩ <;> first | exact memInv_intro (by decide +kernel) | decide +kernel

theorem test_witness_FaultsProbesTestsAndStarts_probes :
    let p : Probe := ⟨e0, 0, 0, (e0, 0), [(e0, 0, 99)], 100⟩
    let q : Probe := ⟨e0, 0, 0, (e1, 0), [(e0, 0, 98), (e1, 0, 99)], 100⟩
    let r : Probe := ⟨e0, 0, 0, (e0, 0), [(e0, 0, 98)], 100⟩
    let u : Probe := ⟨e0, 0, 0, (e0, 0), [(e0, 0, 99)], 100⟩
    let q1 : Probe := ⟨e0, 0, 1, (e1, 0), [(e0, 1, 98), (e1, 0, 99)], 100⟩
    (MemInv (locked 100 []) ∧ (locked 100 []).probeDue e0 0 0 = true ∧ (locked 99 []).probeDue e0 0 0 = false) ∧
    (MemInv (locked 0 [r]) ∧ (locked 0 [r]).outer.probes[0]? = some r ∧ r.due ≤ (locked 0 [r]).cycle ∧ (locked 0 [r]).stillWait r = false) ∧
    (MemInv (locked 100 [p]) ∧ (locked 100 [p]).stillWait p = true ∧ (locked 100 [p]).regionOf e0 = some { runs with probe := 100 } ∧
      ∀ x ∈ (locked 100 [p]).probeNext p, p.closes x = false) ∧
    (MemInv (locked 100 [q]) ∧ (locked 100 [q]).stillWait q = true ∧ (∃ x ∈ (locked 100 [q]).probeNext q, q.closes x = true) ∧
      (∀ x ∈ (locked 100 [q]).outer.probes.erase q, x.e = q.e → q.queue ≤ x.queue) ∧ runs.failed = none) ∧
    (MemInv (locked 100 [u, q1]) ∧ (locked 100 [u, q1]).outer.probes[1]? = some q1 ∧ (locked 100 [u, q1]).stillWait q1 = true ∧
      (∃ x ∈ (locked 100 [u, q1]).probeNext q1, q1.closes x = true) ∧
      ∃ x ∈ (locked 100 [u, q1]).outer.probes.erase q1, x.e = q1.e ∧ x.queue < q1.queue) := by
  refine ⟨⟨?_, ?_⟩, ⟨?_, ?_⟩, ⟨?_, ?_⟩, ⟨?_, ?_⟩, ?_, ?_⟩ <;> first | exact memInv_intro (by decide +kernel) | decide +kernel

theorem test_witness_FaultsProbesTestsAndStarts_errors :
    let o := { opOf (.load 0x30000 8 false false plainPage) .ld with due := 9 }
    let s := flies o
    let w (u : ErrUnit) (b : Bool) : State := { State.reset with outer := { State.reset.outer with wrings := [⟨u, [5], b⟩] } }
    let g (st : RegionState) : State := { (w (.elem e0) false).setElem e0 { Elem.reset with region := some 1 } with
      tasks := { State.reset.tasks with regions := [regionIn st 0] } }
    (s.outer.wrings = [] ∧ (s.seqs.strands.map Prod.fst = [0]) ∧ (s.strand 0).ops = [o] ∧ (s.strand 0).late = none ∧ o.result = none ∧
      o.meets 0x30007 = true ∧ (∀ x ∈ s.outer.wrings, x.unit ≠ .msu 0 0)) ∧
    (tested (.dram 0 0) = none ∧ tested (.elem e0) = some (.elem e0) ∧ (w (.elem e0) false).outer.wrings = [⟨.elem e0, [5], false⟩]) ∧
    ((∀ x ∈ (g .running).regionOf e0, x.st = .running) ∧ ((g .running).regionOf e0).isSome = true ∧
      (∀ x ∈ (g .ended).regionOf e0, x.st ≠ .running ∧ x.st ≠ .frozen)) ∧
    (∀ u ∈ [ErrUnit.elem e0, .l1 7 15, .sliceBank 0 63 7], (w u false).outer.wrings[0]? = some ⟨u, [5], false⟩ ∧
      (w u true).outer.wrings[0]? = some ⟨u, [5], true⟩) := by decide +kernel

theorem test_witness_FaultsProbesTestsAndStarts_starts :
    let s (f : Nat) : State := { State.reset with outer := { State.reset.outer with mgmt := { State.reset.outer.mgmt with fails := f, floor := 2 } } }
    let ok : FirmwareImage := ⟨true, true, true, 2⟩
    let i : StartInput := ⟨ok, [], false, true, true⟩
    let t : State := { State.reset with outer := { State.reset.outer with
      links := allLinks.map fun k => { Link.reset (linkKey k) with st := .up },
      mgmt := { State.reset.outer.mgmt with mode := .starting, diesUp := 0xFF } } }
    let n : State := { State.reset with outer := { State.reset.outer with mgmt := { State.reset.outer.mgmt with session := true } } }
    (3 ≤ (s 3).outer.mgmt.fails ∧ (s 2).outer.mgmt.fails < 3 ∧ (s 2).outer.mgmt.floor ≤ ok.version ∧ i.badUnits = [] ∧
      i.otherFail = false ∧ i.hbmOk = true ∧ i.pairsOk = true ∧ unitSpared (.elem e0) = true ∧ unitSpared (.msu 0 0) = false) ∧
    ((t.starting && t.trained) = true ∧ t.outer.mgmt.mode = .starting ∧ t.outer.mgmt.diesUp ≠ 0) ∧
    (n.outer.mgmt.session = true ∧ 1023 < 1024 ∧ n.ctxs.keys = []) := by decide +kernel
/-! ### The step and the words -/

/-- The machine whose strand 0 stands before words that its page holds. -/
def before (ws : List Nat) (u : Strand) : State := withWords (paged u [(0x10000, 0x30000)]) 0 0x30000 ws

/-- The hypotheses of a strand's turn: what it fetches, or that it stops. -/
theorem test_witness_StepRunsTheDecodedInstruction_strands :
    let a := before [0x00844301] sup
    let z := before [0] sup
    let l := before [0x1F9C1FFF, 0xFFFFFFFF] sup
    let f (s : State) : Bool := s.ready 0 && decide ((s.core (coreOf 0)).used ≠ s.cycle + 1) && (s.strand 0).late.isNone && !s.takable 0 && !s.passes (.strand 0) &&
      (s.strand 0).pc.toNat % 4 = 0
    let g (s : State) (v : Nat) : Option Nat := match s.curTranslate .fetch ((s.strand 0).pc.toNat + v) 4 with
      | .ok pa e => if s.ownedIn (pageAttr e) pa 4 = none ∧ s.spoiltCode pa = false ∧ s.mem.sealed = [] then
          some (s.codeWord pa (s.mark (s.strand 0).ctx 63 false (pageAttr e))).1 else none
      | _ => none
    (f a = true ∧ g a 0 = some 0x00844301 ∧ isLongWord 0x00844301 = false ∧
      (decodeSeq 0x00844301 0).toOption = some (.sub ⟨0, false⟩ 1 2 3) ∧ ∀ x ∈ (a.core (coreOf 0)).i1, x.pa ≠ 0x30000) ∧
    (f z = true ∧ g z 0 = some 0 ∧ (decodeSeq 0 0).toOption = none) ∧
    (f l = true ∧ g l 0 = some 0x1F9C1FFF ∧ g l 4 = some 0xFFFFFFFF ∧ isLongWord 0x1F9C1FFF = true ∧
      (decodeSeq 0x1F9C1FFF 0).toOption.isSome = true ∧
      (decodeSeq 0x1F9C1FFF 0xFFFFFFFF).toOption = some (.limm ⟨0, false⟩ 7 (BitVec.ofInt 45 (-1)))) := by decide +kernel

theorem test_witness_StepRunsTheDecodedInstruction_stops :
    let c := one { sup with late := some (0x16, 0x40, 3) }
    let e := one { sup with status := sup.status ||| 0x40, events := [⟨1, 0x40, none⟩] }
    let d := one { sup with run := .idle }
    let u0 := one sup
    let u := u0.setCore 0 { u0.core 0 with used := 1 }
    (c.ready 0 = true ∧ (c.core (coreOf 0)).used ≠ c.cycle + 1 ∧ (c.strand 0).late ≠ none) ∧
    (e.ready 0 = true ∧ (e.strand 0).late = none ∧ e.takable 0 = true) ∧ d.ready 0 = false ∧ (u.core (coreOf 0)).used = u.cycle + 1 := by
  decide +kernel

theorem test_witness_StepRunsTheDecodedInstruction_elements :
    let t := { TCtx.reset with stopped := true }
    let v := { Elem.reset with pl := { Plane4K.reset with slots := [(15, 0x14000000, 0x75300021)], arb := 1, ctxs := (Vector.replicate 4 t).set 0 TCtx.reset } }
    let s := firing v 0xFF
    let r := { s with tasks := { s.tasks with regions := [{ runs with ending := true }] } }
    let k := ((s.elem e0).pl.arb + 3) % 4
    r.mayRun e0 = false ∧ s.mayRun e0 = true ∧ k = 0 ∧ (∀ j < 3, (s.focusOn e0 (((s.elem e0).pl.arb + j) % 4)).readySlot = none) ∧
    (s.focusOn e0 0).readySlot = some (15, 0x14000000, 0x75300021) ∧ (decodeElem (0x75300021 : Word).toNat).toOption = some (.pset 0 true) := by
  decide +kernel

/-- No turn is passed over at reset; while die 1 is behind with die 0's writes all are but those that apply them. -/
theorem test_witness_StepRunsTheDecodedInstruction_passes :
    let r := State.reset.setImage 0 { State.reset.image 0 with clock := Clock.zero.put 0 0x7FFFFFFF }
    let s := { r with mem := { r.mem with pending := [⟨4, 0, 0, 0, [some 1], Clock.zero, false, Mark.plain, [0]⟩] } }
    (∀ t : Turn, State.reset.passes t = false) ∧ s.passes (.strand 0) = true ∧ s.passes (.orderApplyPending 1 0) = false := by
  refine ⟨fun t => ?_, by decide +kernel⟩
  unfold State.passes
  rw [show dieList.any State.reset.lags = false by decide +kernel, Bool.false_and]

theorem test_witness_StepRunsTheDecodedInstruction_inputs :
    let s := { State.reset with inputs := [.startWatchdog] }
    s.agenda = [] ∧ s.inputs = .startWatchdog :: [] ∧ isInput .startWatchdog = true ∧ State.reset.agenda = [] ∧ State.reset.inputs = [] := by
  decide +kernel

theorem test_witness_DecodeInvertsEncode :
    (Instr.sub q 31 0 15).wf = true ∧ (∃ w, encode (.sub q 31 0 15) = [w]) ∧ onElement (.sub q 31 0 15) = false ∧
    (Instr.limm q 7 (BitVec.ofInt 45 (-1))).wf = true ∧ (∃ w v, encode (.limm q 7 (BitVec.ofInt 45 (-1))) = [w, v]) ∧
    (Instr.movi (.reg 1) 0x7FFFF).wf = true ∧ (∃ w, encode (.movi (.reg 1) 0x7FFFF) = [w]) ∧ onElement (.movi (.reg 1) 0x7FFFF) = true ∧
    (Instr.hostTailWrite 0 0).wf = true :=
  ⟨by decide, ⟨_, rfl⟩, rfl, by decide, ⟨_, _, rfl⟩, by decide, ⟨_, rfl⟩, rfl, by decide⟩

theorem test_witness_MemoriesStayCanonical :
    MemInv State.reset ∧ ∃ t, step State.reset = .next t :=
  ⟨memInv_intro (by decide +kernel), _, rfl⟩

end Sys2Proof.Test
end

/-! SUPPORT. Proofs about elements and M-elements: what a change of one element leaves alone, the queues of a plane, and the
four steps of an M-element (05_fabric.md R111 to R115; 02_numbers.md R26, R29, R48, R49; 07_element_storage.md R183). -/

namespace Sys2Proof.Proofs

open Sys2Proof Sys2Proof.Machine Sys2Proof.Claim Sys2Proof.Laws

/-! ### Elements: what is found after one is changed -/

theorem findElem_putElem_same (l : List (ElemId × Elem)) (e : ElemId) (v : Elem) : findElem (putElem l e v) e = v := by
  induction l with
  | nil => simp [putElem, findElem]
  | cons p t ih =>
    obtain ⟨k, w⟩ := p
    by_cases h : k = e <;> simp [putElem, findElem, h, ih]

theorem findElem_putElem_other (l : List (ElemId × Elem)) {e x : ElemId} (v : Elem) (h : x ≠ e) :
    findElem (putElem l e v) x = findElem l x := by
  induction l with
  | nil => simp [putElem, findElem, h.symm]
  | cons p t ih =>
    obtain ⟨k, w⟩ := p
    by_cases hk : k = e
    · subst hk; simp [putElem, findElem, h.symm]
    · simp [putElem, findElem, hk, ih]

@[simp] theorem elem_setElem_same (s : State) (e : ElemId) (v : Elem) : (s.setElem e v).elem e = v :=
  findElem_putElem_same _ e v

theorem elem_setElem_other (s : State) {e x : ElemId} (v : Elem) (h : x ≠ e) : (s.setElem e v).elem x = s.elem x :=
  findElem_putElem_other _ v h

@[simp] theorem elem_modElem_same (s : State) (e : ElemId) (f : Elem → Elem) : (s.modElem e f).elem e = f (s.elem e) :=
  elem_setElem_same s e _

theorem elem_modElem_other (s : State) {e x : ElemId} (f : Elem → Elem) (h : x ≠ e) : (s.modElem e f).elem x = s.elem x :=
  elem_setElem_other s _ h

@[simp] theorem modPl_pl (v : Elem) (f : Plane4K → Plane4K) : (v.modPl f).pl = f v.pl := rfl
@[simp] theorem modPl_scr (v : Elem) (f : Plane4K → Plane4K) : (v.modPl f).scr = v.scr := rfl
@[simp] theorem modPl_full (v : Elem) (f : Plane4K → Plane4K) : (v.modPl f).full = v.full := rfl

/-! ### Queues of a plane -/

/-- A taken head leaves the rest of its queue, with a token of a landing slot behind it (R105). -/
theorem inq_popIn_same (p : Plane4K) (c : Nat) : (p.popIn c).inq c = (p.inq c).drop 1 ++ (p.landq c).take 1 := by
  unfold Plane4K.popIn
  split
  · next h => simp [h, Plane4K.setIn, Plane4K.inq]
  · next h => simp [h, Plane4K.setIn, Plane4K.setLand, Plane4K.inq]

theorem inq_popIn_other (p : Plane4K) {c d : Nat} (h : c % 4 ≠ d % 4) : (p.popIn c).inq d = p.inq d := by
  unfold Plane4K.popIn
  split <;> simp [Plane4K.inq, Plane4K.setIn, Plane4K.setLand, Vector.getElem_set_ne, h]

@[simp] theorem popIn_mel (p : Plane4K) (c : Nat) : (p.popIn c).mel = p.mel := by
  unfold Plane4K.popIn
  split <;> rfl

@[simp] theorem popIn_nw (p : Plane4K) (c : Nat) : (p.popIn c).nw = p.nw := by
  unfold Plane4K.popIn
  split <;> rfl

@[simp] theorem outq_setOut_same (p : Plane4K) (o : Bool) (q : List OutEntry) : (p.setOut o q).outq o = q := by
  simp [Plane4K.outq, Plane4K.setOut]

@[simp] theorem outq_setOut_other (p : Plane4K) (o : Bool) (q : List OutEntry) : (p.setOut o q).outq (!o) = p.outq (!o) := by
  have hne : o.toNat ≠ (!o).toNat := by cases o <;> decide
  simp [Plane4K.outq, Plane4K.setOut, Vector.getElem_set_ne, hne]

/-! ### Granules set full -/

theorem mem_setFull (l : List Nat) (g k : Nat) : k ∈ setFull l g ↔ k = g ∨ k ∈ l := by
  induction l with
  | nil => simp [setFull]
  | cons a t ih =>
    simp only [setFull]
    split
    · simp
    · split
      · next h => simp [h]
      · simp only [List.mem_cons, ih]
        exact or_left_comm

theorem mem_foldl_setFull (gs l : List Nat) (k : Nat) : k ∈ gs.foldl setFull l ↔ k ∈ gs ∨ k ∈ l := by
  induction gs generalizing l with
  | nil => simp
  | cons g t ih =>
    simp only [List.foldl_cons, ih, mem_setFull, List.mem_cons]
    rw [or_left_comm, or_assoc]

/-! ### What a change of one element leaves alone -/

theorem onlyElems_refl (s : State) (es : List ElemId) : OnlyElems s s es := ⟨fun _ _ => rfl, rfl⟩

theorem onlyElems_modElem {s t : State} {es : List ElemId} {e : ElemId} (f : Elem → Elem) (he : e ∈ es) (h : OnlyElems s t es) :
    OnlyElems s (t.modElem e f) es := by
  obtain ⟨hothers, hrest⟩ := h
  refine ⟨fun x hx => ?_, congrArg (·.modElem e f) hrest⟩
  have hne : x ≠ e := fun h => hx (h.symm ▸ he)
  rw [elem_modElem_other t f hne, hothers x hx]

/-! ### The state of an M-element -/

@[simp] theorem elem_modMel (s : State) (e : ElemId) (f : MElem → MElem) :
    (s.modMel e f).elem e = (s.elem e).modPl fun p => { p with mel := f p.mel } := elem_modElem_same s e _

@[simp] theorem modMel_cycle (s : State) (e : ElemId) (f : MElem → MElem) : (s.modMel e f).cycle = s.cycle := rfl
@[simp] theorem modMel_mem (s : State) (e : ElemId) (f : MElem → MElem) : (s.modMel e f).mem = s.mem := rfl

theorem inq_modMel (s : State) (e : ElemId) (f : MElem → MElem) (c : Nat) :
    ((s.modMel e f).elem e).pl.inq c = (s.elem e).pl.inq c := by
  rw [elem_modMel]; rfl

theorem outq_modMel (s : State) (e : ElemId) (f : MElem → MElem) (o : Bool) :
    ((s.modMel e f).elem e).pl.outq o = (s.elem e).pl.outq o := by
  rw [elem_modMel]; rfl

theorem melOnly_refl (s : State) (e : ElemId) : MelOnly s s e (s.elem e).pl.mel := ⟨onlyElems_refl s [e], rfl, rfl, rfl, rfl⟩

/-- A change of the M-element's own state is no other change. -/
theorem melOnly_modMel {s t : State} {e : ElemId} {m : MElem} (f : MElem → MElem) (h : MelOnly s t e m) :
    MelOnly s (t.modMel e f) e (f m) := by
  obtain ⟨honly, hmel, hscr, hfull, hnw⟩ := h
  have he := elem_modMel t e f
  exact ⟨onlyElems_modElem _ (List.mem_singleton_self e) honly, he ▸ congrArg f hmel, he ▸ hscr, he ▸ hfull, he ▸ hnw⟩

/-- A change of the queues of a plane keeps the M-element's own state. -/
theorem melOnly_modPl {s t : State} {e : ElemId} {m : MElem} (g : Plane4K → Plane4K) (hmel : ∀ p, (g p).mel = p.mel)
    (hnw : ∀ p, (g p).nw = p.nw) (h : MelOnly s t e m) : MelOnly s (t.modElem e fun v => v.modPl g) e m := by
  obtain ⟨honly, hm, hscr, hfull, hn⟩ := h
  have he := elem_modElem_same t e fun v => v.modPl g
  exact ⟨onlyElems_modElem _ (List.mem_singleton_self e) honly, he ▸ (hmel _).trans hm, he ▸ hscr, he ▸ hfull,
    he ▸ (hnw _).trans hn⟩

/-! ### Faults of an M-element -/

theorem elemFault_mem (s : State) (e : ElemId) (ctx code detail addr : Nat) : (s.elemFault e ctx code detail addr).mem = s.mem := by
  unfold State.elemFault
  split
  · rfl
  · simp only [State.modElem_mem]
    split
    · rfl
    · exact State.post_mem ..

theorem melFault_mem (s : State) (e : ElemId) (w : Word) : (s.melFault e w).mem = s.mem := elemFault_mem s e 0 0x13 w.toNat 0

theorem melFault_stopped (s : State) (e : ElemId) (w : Word) : ((s.melFault e w).elem e).pl.mel.stopped = true := by
  unfold State.melFault
  rw [elem_modMel, modPl_pl]

/-! ### WEIGHT_LATCH (R111) -/

/-- The next bytes of a weight block are read once their granules are full, if none is spoilt. -/
theorem exec_weightLatch_reads {e : ElemId} {s : State} {r : Reload} {n : Nat} (hr : (s.elem e).pl.mel.reload = some r)
    (hends : r.ends = none) (hn : n = min 128 (blockBytes ((s.elem e).pl.node 0) - r.got.length))
    (hfull : ∀ k ∈ readGranules (r.off + r.got.length) n, k ∈ (s.elem e).full)
    (hsound : (s.elem e).meetsSpoilt (r.off + r.got.length) n = false) :
    exec (.weightLatch e) s = .next (s.modMel e fun m =>
      { m with reload := some ⟨r.off, r.got ++ readN (s.elem e).scr (r.off + r.got.length) n,
          if blockBytes ((s.elem e).pl.node 0) ≤ (r.got ++ readN (s.elem e).scr (r.off + r.got.length) n).length
          then some (s.cycle + 4) else none⟩ }) := by
  subst hn
  have hall : (readGranules (r.off + r.got.length) (min 128 (blockBytes ((s.elem e).pl.node 0) - r.got.length))).all
      (s.elem e).full.contains = true := by simpa using hfull
  show execWeightLatch e s = _
  simp [execWeightLatch, hr, hends, hall, hsound]

/-- A block that has been read is latched when its time has come. -/
theorem exec_weightLatch_latches {e : ElemId} {s : State} {r : Reload} {u : Nat} (hr : (s.elem e).pl.mel.reload = some r)
    (hends : r.ends = some u) (hu : u ≤ s.cycle) :
    exec (.weightLatch e) s =
      .next (s.modMel e fun m => { m with reload := none, weights := some ⟨(s.elem e).pl.node 0, r.got⟩ }) := by
  show execWeightLatch e s = _
  simp [execWeightLatch, hr, hends, hu]

/-! ### ROW_ASSEMBLY (R112) -/

theorem nextChan_cases (p : Plane4K) : p.nextChan = 0 ∨ p.nextChan = 1 := by
  unfold Plane4K.nextChan
  split
  · exact .inl rfl
  · exact .inr rfl
  · split
    · cases p.mel.onI1 <;> simp
    · omega

/-- The two channels of row assembly have a queue each. -/
theorem nextChan_other (p : Plane4K) : p.nextChan % 4 ≠ (1 - p.nextChan) % 4 := by
  rcases nextChan_cases p with h | h <;> simp [h]

theorem assemble_of_empty {s : State} {e : ElemId} {ch : Nat} (h : (s.elem e).pl.inq ch = []) : s.assemble e ch = s := by
  simp [State.assemble, h]

theorem assemble_of_stopped {s : State} {e : ElemId} (ch : Nat) (h : (s.elem e).pl.mel.stopped = true) : s.assemble e ch = s := by
  unfold State.assemble
  dsimp only
  split
  · rfl
  · simp [h]

theorem not_stopped_of_melRuns {s : State} {e : ElemId} (h : s.melRuns e = true) : (s.elem e).pl.mel.stopped = false := by
  simp only [State.melRuns, Bool.and_eq_true, Bool.not_eq_true'] at h
  exact h.2

/-- The state with the head of an element's input queue taken. -/
def takenFrom (s : State) (e : ElemId) (c : Nat) : State := s.modElem e fun v => v.modPl fun p => p.popIn c

theorem elem_takenFrom (s : State) (e : ElemId) (c : Nat) : ((takenFrom s e c).elem e) = (s.elem e).modPl fun p => p.popIn c :=
  elem_modElem_same s e _

theorem takenFrom_mem (s : State) (e : ElemId) (c : Nat) : (takenFrom s e c).mem = s.mem := rfl

theorem melOnly_takenFrom (s : State) (e : ElemId) (c : Nat) : MelOnly s (takenFrom s e c) e (s.elem e).pl.mel :=
  melOnly_modPl _ (fun p => popIn_mel p c) (fun p => popIn_nw p c) (melOnly_refl s e)

/-- With nothing on the other channel a step of row assembly takes the one token, and changes no more than that says. -/
theorem exec_rowAssembly_of_assemble {e : ElemId} {s : State} {x : Entry} {rest : List Entry} (hruns : s.melRuns e = true)
    (hq : (s.elem e).pl.inq (s.elem e).pl.nextChan = x :: rest) (hother : (s.elem e).pl.inq (1 - (s.elem e).pl.nextChan) = [])
    (f : MElem → MElem) (h : s.assemble e (s.elem e).pl.nextChan = (takenFrom s e (s.elem e).pl.nextChan).modMel e f) :
    ∃ t, exec (.rowAssembly e) s = .next t ∧ MelOnly s t e (f (s.elem e).pl.mel) ∧
      (t.elem e).pl.inq (s.elem e).pl.nextChan = rest ++ ((s.elem e).pl.landq (s.elem e).pl.nextChan).take 1 := by
  refine ⟨_, ?_, melOnly_modMel f (melOnly_takenFrom s e (s.elem e).pl.nextChan), ?_⟩
  · show execRowAssembly e s = _
    have hempty : (((takenFrom s e (s.elem e).pl.nextChan).modMel e f).elem e).pl.inq (1 - (s.elem e).pl.nextChan) = [] := by
      rw [inq_modMel, elem_takenFrom, modPl_pl, inq_popIn_other _ (nextChan_other _), hother]
    simp [execRowAssembly, hruns, h, assemble_of_empty hempty]
  · rw [inq_modMel, elem_takenFrom, modPl_pl, inq_popIn_same, hq, List.drop_one, List.tail_cons]

section
variable {e : ElemId} {s : State} {x : Entry} {rest : List Entry}
  (hruns : s.melRuns e = true) (hq : (s.elem e).pl.inq (s.elem e).pl.nextChan = x :: rest) (hat : x.at_ < s.cycle)
  (hroom : (s.elem e).pl.mel.rowq.length < 4)

include hruns hq hat hroom

/-- What the next token of a row does once it is taken: a header between rows sets the scales, any other stops the element,
and a token of a row is appended to it. -/
theorem assemble_takes :
    s.assemble e (s.elem e).pl.nextChan =
      let s1 := takenFrom s e (s.elem e).pl.nextChan
      let m := (s.elem e).pl.mel
      if x.tok.k then
        if m.part = [] ∧ scaleHeader (s.elem e).pl.afmt (laneOf x.tok.data 0) = true then
          s1.modMel e fun m => { m with scales := some (scalesOf x.tok) }
        else s1.melFault e (laneOf x.tok.data 0)
      else if m.part.length + 1 = (s.elem e).pl.rowTokens then
        s1.modMel e fun m' => { m' with part := [], rowq := m'.rowq ++ [(m.part ++ [x.tok], m'.scales)], onI1 := !m'.onI1 }
      else s1.modMel e fun m' => { m' with part := m.part ++ [x.tok] } := by
  have hstop := not_stopped_of_melRuns hruns
  simp [State.assemble, takenFrom, hq, hstop, Nat.not_le.mpr hat, Nat.not_le.mpr hroom]

/-- A header inside a row, or one that the activation format does not allow, stops the M-element (R29). -/
theorem exec_rowAssembly_badHeader (hk : x.tok.k = true)
    (hbad : (s.elem e).pl.mel.part ≠ [] ∨ scaleHeader (s.elem e).pl.afmt (laneOf x.tok.data 0) = false) :
    ∃ t, exec (.rowAssembly e) s = .next t ∧ (t.elem e).pl.mel.stopped = true ∧ t.mem = s.mem := by
  have hno : ¬((s.elem e).pl.mel.part = [] ∧ scaleHeader (s.elem e).pl.afmt (laneOf x.tok.data 0) = true) := by
    rcases hbad with h | h <;> simp [h]
  have hfirst := assemble_takes hruns hq hat hroom
  simp only [hk, if_true, if_neg hno] at hfirst
  have hstopped := melFault_stopped (takenFrom s e (s.elem e).pl.nextChan) e (laneOf x.tok.data 0)
  refine ⟨_, ?_, hstopped, (melFault_mem _ _ _).trans (takenFrom_mem s e _)⟩
  show execRowAssembly e s = _
  simp [execRowAssembly, hruns, hfirst, assemble_of_stopped _ hstopped]

end

/-! ### MROW_FIRE (R113) -/

/-- A header on a channel that carries no first token of a row stops the M-element (R112). -/
theorem exec_mrowFire_astray {e : ElemId} {s : State} {w : Word} (h : s.headerAstray e = some w) (hruns : s.melRuns e = true) :
    exec (.mrowFire e) s = .next (s.melFault e w) := by
  show execMrowFire e s = _
  simp [execMrowFire, h, hruns]

theorem takeC_of_noC {e : ElemId} {s : State} (hpos : (s.elem e).pl.pos = 0) (hc : (s.elem e).pl.csrc = 0) :
    s.takeC e = some (List.replicate 32 0, s) := by
  simp [State.takeC, Plane4K.cChan, hpos, hc]

theorem not_cSpoilt_of_noC {p : Plane4K} (v : Elem) (hc : p.csrc = 0) : p.cSpoilt v = false := by
  simp [Plane4K.cSpoilt, hc]

/-- A row whose element stands alone fires with no C when it has weights, none are on their way, and its sink has room. -/
theorem exec_mrowFire_fires {e : ElemId} {s : State} {toks : List Token} {sc : Option Scales}
    {rest : List (List Token × Option Scales)} {w : Weights} (hhdr : s.headerAstray e = none)
    (hrow : (s.elem e).pl.mel.rowq = (toks, sc) :: rest) (hw : (s.elem e).pl.mel.weights = some w)
    (hruns : s.melRuns e = true) (hreload : (s.elem e).pl.mel.reload = none) (hpos : (s.elem e).pl.pos = 0)
    (hc : (s.elem e).pl.csrc = 0) (hroom : s.sinkRoom e (s.elem e).pl.mel.fired.length = true) (hrate : s.rateAllows e w = true) :
    exec (.mrowFire e) s = .next
      ((s.modMel e fun m =>
        { m with rowq := rest, rowsNow := if m.lastRow = s.cycle + 1 then m.rowsNow + 1 else 1, lastRow := s.cycle + 1 }).modMel e
      fun m => { m with fired := m.fired ++ [⟨rowResults (s.elem e).pl w toks sc (List.replicate 32 0),
        s.cycle + if 9 ≤ planesOf (wfield w.nw0 3 0) then 6 else 5⟩] }) := by
  show execMrowFire e s = _
  simp [execMrowFire, hhdr, hrow, hw, hruns, hreload, hpos, hroom, hrate, takeC_of_noC hpos hc, not_cSpoilt_of_noC _ hc]

/-- A fold depends on its step only at the members of the list. -/
theorem foldl_congr_of_mem {α β : Type} {f g : β → α → β} (l : List α) (b : β) (h : ∀ c, ∀ a ∈ l, f c a = g c a) :
    l.foldl f b = l.foldl g b := by
  induction l generalizing b with
  | nil => rfl
  | cons a t ih =>
    rw [List.foldl_cons, List.foldl_cons, h b a List.mem_cons_self, ih _ fun c x hx => h c x (List.mem_cons_of_mem a hx)]

/-- On the integer path result n is the exact dot product of the row with column n of the weights (R48). -/
theorem rowResults_integer {p : Plane4K} (w : Weights) (toks : List Token) (sc : Option Scales) (hpath : p.path = 2) {n : Nat}
    (hn : n < 32) :
    (rowResults p w toks sc (List.replicate 32 0))[n]? = some ((List.range 64).foldl (fun a k =>
      a + codeInt p.afmt (packedAt (formatBits p.afmt) (leNat (toks.flatMap fun z => toBytes 32 z.data.toNat)) k) *
        codeInt (wfield w.nw0 3 0) (packedAt (formatBits (wfield w.nw0 3 0)) (leNat w.block) (32 * k + n))) 0) := by
  have hc : ((List.replicate 32 (0 : Int)).drop n).headD 0 = 0 := by
    rw [List.drop_replicate]
    cases 32 - n <;> rfl
  simp only [rowResults, List.getElem?_map, List.getElem?_range hn, Option.map_some, hpath, hc, integerColumn, Weights.nat]
  refine congrArg some (foldl_congr_of_mem _ _ fun a k hk => ?_)
  simp only [List.getElem?_range (List.mem_range.mp hk), Option.map_some, Option.getD_some]

/-! ### MROW_OUTPUT (R49, R115) -/

theorem outBytes_length (p : Plane4K) (v : Int) : (outBytes p v).length = if p.ofmt = 5 then 2 else 4 := by
  unfold outBytes
  split
  · exact toBytes_length ..
  · split <;> exact toBytes_length ..

theorem flatMap_outBytes_length (p : Plane4K) (vals : List Int) :
    (vals.flatMap (outBytes p)).length = vals.length * if p.ofmt = 5 then 2 else 4 := by
  induction vals with
  | nil => exact (Nat.zero_mul _).symm
  | cons v t ih =>
    rw [List.flatMap_cons, List.length_append, ih, outBytes_length, List.length_cons, Nat.succ_mul, Nat.add_comm]

/-- Nothing is put out while no fired row is due. -/
theorem outputRow_of_notDue {s : State} {e : ElemId} (h : ∀ q ∈ (s.elem e).pl.mel.fired.head?, s.cycle < q.due) :
    s.outputRow e = s := by
  unfold State.outputRow
  dsimp only
  split
  · rfl
  · next r rest hf => simp [h r (by simp [hf])]

/-- A step of MROW_OUTPUT puts out one row when no other is due. -/
theorem exec_mrowOutput_of_single {s : State} {e : ElemId} {rest : List FiredRow} (hcycle : (s.outputRow e).cycle = s.cycle)
    (hfired : ((s.outputRow e).elem e).pl.mel.fired = rest) (hlater : ∀ q ∈ rest.head?, s.cycle < q.due) :
    exec (.mrowOutput e) s = .next (s.outputRow e) := by
  show execMrowOutput e s = _
  rw [execMrowOutput, outputRow_of_notDue (s := s.outputRow e) (by rwa [hfired, hcycle])]

/-- The entry of an output queue that holds 32 bytes of a row, the j-th of them. -/
def rowEntry (bs : List Byte) (cycle j : Nat) : OutEntry := .filled ⟨tokenOf (bs.drop (32 * j)) 0, cycle⟩

/-- The tokens of a row of n times 32 bytes put into the output queues by turns (R115). -/
def putRow (p : Plane4K) (bs : List Byte) (cycle n : Nat) : Plane4K :=
  (p.setOut false (p.outq false ++ ((List.range n).filter fun j => j % 2 = 0).map (rowEntry bs cycle))).setOut true
    (p.outq true ++ ((List.range n).filter fun j => j % 2 = 1).map (rowEntry bs cycle))

theorem outq_putRow_false (p : Plane4K) (bs : List Byte) (cycle n : Nat) :
    (putRow p bs cycle n).outq false = p.outq false ++ ((List.range n).filter fun j => j % 2 = 0).map (rowEntry bs cycle) :=
  (outq_setOut_other _ true _).trans (outq_setOut_same ..)

theorem outq_putRow_true (p : Plane4K) (bs : List Byte) (cycle n : Nat) :
    (putRow p bs cycle n).outq true = p.outq true ++ ((List.range n).filter fun j => j % 2 = 1).map (rowEntry bs cycle) :=
  outq_setOut_same ..

section
variable {e : ElemId} {s : State} {r : FiredRow} {rest : List FiredRow} (hfired : (s.elem e).pl.mel.fired = r :: rest)
  (hdue : r.due ≤ s.cycle) (hroom : s.sinkRoom e 0 = true)

include hfired hdue hroom

theorem outputRow_toQueues (hsink : wfield ((s.elem e).pl.node 2) 9 9 = 0) :
    s.outputRow e = (s.modMel e fun m => { m with fired := rest }).modElem e fun v => v.modPl fun q =>
      putRow q (r.vals.flatMap (outBytes (s.elem e).pl)) s.cycle ((r.vals.flatMap (outBytes (s.elem e).pl)).length / 32) := by
  simp only [State.outputRow, hfired, Nat.not_lt.mpr hdue, hroom, hsink]
  rfl

theorem outputRow_toRing (hsink : wfield ((s.elem e).pl.node 2) 9 9 = 1) :
    s.outputRow e = ((s.modMel e fun m => { m with fired := rest }).modElem e fun v =>
      v.engineWrite ((s.elem e).pl.ringOff 0) ((r.vals.flatMap (outBytes (s.elem e).pl)).map some)).modMel e
        fun m => { m with ringAt := (m.ringAt + (s.elem e).pl.rowBytes) % (s.elem e).pl.ringBytes } := by
  simp only [State.outputRow, hfired, Nat.not_lt.mpr hdue, hroom, hsink]
  rfl

variable (hlater : ∀ q ∈ rest.head?, s.cycle < q.due)
include hlater

/-- A row put into the output queues changes nothing else but the list of fired rows. -/
theorem exec_mrowOutput_toQueues (hsink : wfield ((s.elem e).pl.node 2) 9 9 = 0) {bs : List Byte} {n : Nat}
    (hbs : bs = r.vals.flatMap (outBytes (s.elem e).pl)) (hn : bs.length = 32 * n) :
    ∃ t, exec (.mrowOutput e) s = .next t ∧ MelOnly s t e { (s.elem e).pl.mel with fired := rest } ∧
      (t.elem e).pl.outq false =
        (s.elem e).pl.outq false ++ ((List.range n).filter fun j => j % 2 = 0).map (rowEntry bs s.cycle) ∧
      (t.elem e).pl.outq true =
        (s.elem e).pl.outq true ++ ((List.range n).filter fun j => j % 2 = 1).map (rowEntry bs s.cycle) := by
  have hrow := outputRow_toQueues hfired hdue hroom hsink
  rw [← hbs, hn, Nat.mul_div_cancel_left n (by decide)] at hrow
  have htaken := melOnly_modMel (fun m => { m with fired := rest }) (melOnly_refl s e)
  have honly : MelOnly s (s.outputRow e) e { (s.elem e).pl.mel with fired := rest } :=
    hrow ▸ melOnly_modPl _ (fun _ => rfl) (fun _ => rfl) htaken
  obtain ⟨-, hfired', -⟩ := id honly
  refine ⟨_, exec_mrowOutput_of_single (by rw [hrow]; rfl) (by rw [hfired']) hlater, honly, ?_, ?_⟩
  · rw [hrow, elem_modElem_same, modPl_pl, outq_putRow_false, outq_modMel]
  · rw [hrow, elem_modElem_same, modPl_pl, outq_putRow_true, outq_modMel]

/-- A row put into the output ring changes its bytes and their full bits, and no other byte of scratch. -/
theorem exec_mrowOutput_toRing (hsink : wfield ((s.elem e).pl.node 2) 9 9 = 1) (hwf : Memory.wf (s.elem e).scr = true)
    {bs : List Byte} (hbs : bs = r.vals.flatMap (outBytes (s.elem e).pl)) :
    ∃ t, exec (.mrowOutput e) s = .next t ∧ OnlyElems s t [e] ∧
      (t.elem e).pl.mel = { (s.elem e).pl.mel with
        fired := rest, ringAt := ((s.elem e).pl.mel.ringAt + (s.elem e).pl.rowBytes) % (s.elem e).pl.ringBytes } ∧
      readN (t.elem e).scr ((s.elem e).pl.ringOff 0) bs.length = bs ∧
      (∀ k ∈ granulesOf bs.length [(0, (s.elem e).pl.ringOff 0)], k ∈ (t.elem e).full) ∧
      ∀ k, k < (s.elem e).pl.ringOff 0 ∨ (s.elem e).pl.ringOff 0 + bs.length ≤ k →
        memRead (t.elem e).scr k = memRead (s.elem e).scr k := by
  have hrow := outputRow_toRing hfired hdue hroom hsink
  rw [← hbs] at hrow
  have he := List.mem_singleton_self e
  have hmel : ((s.outputRow e).elem e).pl.mel = { (s.elem e).pl.mel with
      fired := rest, ringAt := ((s.elem e).pl.mel.ringAt + (s.elem e).pl.rowBytes) % (s.elem e).pl.ringBytes } := by
    rw [hrow, elem_modMel, elem_modElem_same, elem_modMel]; rfl
  have hscr : ((s.outputRow e).elem e).scr = writeN (s.elem e).scr ((s.elem e).pl.ringOff 0) bs := by
    rw [hrow, elem_modMel, elem_modElem_same, elem_modMel]; rfl
  have hfull : ((s.outputRow e).elem e).full =
      (granulesOf bs.length [(0, (s.elem e).pl.ringOff 0)]).foldl setFull (s.elem e).full := by
    rw [hrow, elem_modMel, elem_modElem_same, elem_modMel, ← List.length_map (as := bs) some]; rfl
  refine ⟨_, exec_mrowOutput_of_single (by rw [hrow]; rfl) (by rw [hmel]) hlater, ?_, hmel, ?_, fun k hk => ?_, fun k hk => ?_⟩
  · rw [hrow]
    exact onlyElems_modElem _ he (onlyElems_modElem _ he (onlyElems_modElem _ he (onlyElems_refl s [e])))
  · simpa [hscr] using readN_writeN (s.elem e).scr ((s.elem e).pl.ringOff 0) bs 0 bs.length hwf (by omega)
  · exact hfull ▸ (mem_foldl_setFull _ _ k).mpr (.inl hk)
  · rw [hscr]
    exact memRead_writeOpt_outside _ k _ hwf (by simpa using hk)

end

/-! ### The statement -/

/-- Settles O46, event by event from the equations of the four steps above. -/
theorem mElementsLoadAssembleAndFire : Obligations.MElementsLoadAssembleAndFire := by
  unfold Obligations.MElementsLoadAssembleAndFire
  rintro e s p m rfl rfl
  refine ⟨fun r hr => ⟨?_, ?_⟩, fun x rest hruns hq hat hother hroom => ?_, fun w hw hruns => ?_, ?_, ?_⟩
  · rintro n got hends hn hfull hsound rfl
    exact ⟨_, exec_weightLatch_reads hr hends hn hfull hsound, melOnly_modMel _ (melOnly_refl s e)⟩
  · intro u hends hu
    exact ⟨_, exec_weightLatch_latches hr hends hu, melOnly_modMel _ (melOnly_refl s e)⟩
  · have htakes := assemble_takes hruns hq hat hroom
    refine ⟨fun hk hlen => ?_, fun hk hlen => ?_, fun hk hpart hhdr => ?_, exec_rowAssembly_badHeader hruns hq hat hroom⟩
    · simp only [hk, hlen, Bool.false_eq_true, if_false] at htakes
      exact exec_rowAssembly_of_assemble hruns hq hother _ htakes
    · simp only [hk, hlen, Bool.false_eq_true, if_false, if_true] at htakes
      exact exec_rowAssembly_of_assemble hruns hq hother _ htakes
    · simp only [hk, hpart, hhdr, and_self, if_true] at htakes
      obtain ⟨t, hexec, honly, -⟩ := exec_rowAssembly_of_assemble hruns hq hother _ htakes
      exact ⟨t, hexec, honly⟩
  · exact ⟨_, exec_mrowFire_astray hw hruns, melFault_stopped s e w, melFault_mem s e w⟩
  · intro toks sc rest w hhdr hrow hw hruns hreload hpos hc hroom hrate
    exact ⟨_, _, exec_mrowFire_fires hhdr hrow hw hruns hreload hpos hc hroom hrate,
      melOnly_modMel _ (melOnly_modMel _ (melOnly_refl s e)), rfl, fun hpath n hn => rowResults_integer w toks sc hpath hn⟩
  · intro r rest bs hfired hdue hlater hroom hlen hbs
    have hsize : bs.length = 32 * if (s.elem e).pl.ofmt = 5 then 2 else 4 := by
      rw [hbs, flatMap_outBytes_length, hlen]
    refine ⟨fun hsink hfmt => ?_, fun hsink hfmt => ?_, fun hsink hwf =>
      exec_mrowOutput_toRing hfired hdue hroom hlater hsink hwf hbs⟩
    · exact exec_mrowOutput_toQueues hfired hdue hroom hlater hsink (n := 2) hbs (by rw [hsize, if_pos hfmt])
    · exact exec_mrowOutput_toQueues hfired hdue hroom hlater hsink (n := 4) hbs (by rw [hsize, if_neg hfmt])

end Sys2Proof.Proofs
